-- ==== Sys2Proof/Word.lean ====
section
/-! DEFINITION. The word types of the model: bytes of the Typing Link and of table memory, and the
16-bit wrapping numbers and two-byte fields of the formats chapter. -/

namespace Sys2Proof

/-- One byte: a feed or return byte, a byte of table memory, a character code. -/
abbrev Byte := BitVec 8

/-- A 16-bit quantity: the wrapping strike, sequence and word numbers, and the two-byte fields of
the formats (R188). -/
abbrev Word := BitVec 16

end Sys2Proof
end

