-- ==== Sys2Proof/Syntax.lean ====
section
/-! DEFINITION. The commands of the block: one constructor of `Instr` for each row of
spec/opcode_table.json, with the operands that the row's rule names (log entries 1 to 4). -/

namespace Sys2Proof

/-- One byte as received on the feed line; `bad` marks a missing stop bit (R168). -/
structure FeedByte where
  data : Byte
  bad  : Bool
  deriving DecidableEq, Repr

/-- The five actuator channels, in the order of R142. -/
inductive Channel where
  | carriage | wheel | hammer | lift | paper
  deriving DecidableEq, Repr

/-- The steps of the part. The receiver's rows carry the feed bytes that arrive with the step; the
rows of CONTROL commands carry the payload bytes after the command code (or the one index that the
row names); rows that read a sensor carry what the sensor shows. All other rows act on what State
holds. -/
inductive Instr where
  -- reset input (R187)
  | resetAsserted
  | resetReleased
  -- the receiver (R169 to R172)
  | huntCandidateBlock (feed : List FeedByte)
  | confirmBlock (feed : List FeedByte) (paper : Bool)
  | confirmStrayByte (feed : List FeedByte)
  | lockedStrayByte (feed : List FeedByte)
  | badBlock (feed : List FeedByte)
  | keyBlock (feed : List FeedByte)
  | textBlock (feed : List FeedByte)
  | controlBlock (feed : List FeedByte) (paper : Bool)
  | unknownKindBlock (feed : List FeedByte)
  -- CONTROL commands (R176, R181 to R186)
  | set (params : List Byte)
  | queryStatus
  | queryCounters (group : Byte)
  | queryDirectory (slot : Byte)
  | queryLine (first : Byte)
  | queryWords (first : Byte)
  | queryUserWord (index : Byte)
  | queryFaults
  | tableOpen (params : List Byte)
  | tableWrite (params : List Byte)
  | tableSeal (params : List Byte)
  | sealComplete
  | tableDrop (params : List Byte)
  | tabAdd (params : List Byte)
  | tabRemove (params : List Byte)
  | tabsClear
  | userWordAdd (letters : List Byte)
  | userWordRemove (letters : List Byte)
  | pause
  | resume (paper : Bool)
  | ackFault
  | creditRestate
  | clearCounters
  | restartLink
  | restartText
  | restartMech
  | restartTables
  | restartCounters
  | restartAll
  -- Key Intake (R14 to R21)
  | keyPress
  | keyRelease
  | typematicCountdownExpiry
  | typematicPeriodicExpiry
  -- the Composer's key actions (R29 to R46)
  | characterKeyAction
  | deadKeyAction
  | space
  | returnKey
  | backspace
  | tab
  | marginLeft
  | marginRight
  | marginRelease
  | tabSet
  | decimalTabSet
  | tabClear
  | correct
  | wordCorrect
  | lineCorrect
  | relocate
  | paperUp
  | paperDown
  | halfUp
  | halfDown
  | pitchCycle
  | modeToggle
  | justifyCycle
  | spellToggle
  | acceptWord
  | addWord
  | cursorLeft
  | cursorRight
  | boldToggle
  | underlineToggle
  | pauseKey (paper : Bool)
  | sourceToggle
  -- remote text (R23, R29 to R36)
  | remotePrintableChar
  | remoteCr
  | remoteLf
  | remoteFf
  | remoteBs
  | remoteHt
  | unmappedControl
  -- the outgoing line (R42)
  | outgoingPlacementAppended
  | outgoingLineEnd
  -- the mechanism (R70 to R87)
  | positionComplete
  | heatDecayTick
  | hammerPulseComplete
  | recoverComplete
  | moveComplete
  | indexComplete (paper : Bool)
  | liftMotionComplete
  | liftRestTimerExpiry
  | coverOpen
  | coverClose
  | homeSensorSeen
  | homeNotFound
  | homingReturnComplete
  | indexMarkSeen
  | wheelIndexLost
  | identificationRead (code : BitVec 6)
  -- Drive Stages (R143 to R146)
  | offStateTestComplete (pass : Bool)
  | rotationTimerExpiry
  | overcurrent (ch : Channel)
  -- Spelling Unit, return line, beeper
  | lookupComplete
  | returnBlockSent
  | beeperIntervalExpiry
  deriving DecidableEq, Repr

end Sys2Proof
end

