-- ==== Sys2Proof/Decode.lean ====
section
/-! DEFINITION. The command that a word spells by the bits of spec/opcode_table.json. No row of this
block's table gives bits (98_reader.md: n_rows_with_fixed 0, n_rows_with_fields 0), so no word spells a
command: commands reach the part as blocks, sensor changes and timer expiries. -/

namespace Sys2Proof

/-- The command read from a table word: none, as no row gives bits. -/
def decodeTableWord (_nbits _w : Nat) : Option Instr := none

end Sys2Proof
end

