-- ==== Sys2Proof/Config.lean ====
section
/-! DEFINITION. What an implementation fixes and the spec does not state: the free values. Each is an
opaque constant, so that nothing can be proved of the value it gives. -/

namespace Sys2Proof

/-- How far a motion that is stopped before it completes had got. R74 and R81 say that the stopped
motion "leaves the physical carriage position and the current petal at the unit and the step it had
reached", which depends on time, and the model keeps no time (log entries 5 and 6). The value is read
modulo the length of the motion, so the position it gives always lies on the way. -/
opaque Config.motionReached : Nat → Nat

/-- The petal at the hammer when the wheel's index mark is seen. R71 says that the petal is then known
and states no number (log entry 7). Read modulo 96. -/
opaque Config.indexMarkPetal : Nat

/-- Whether the first expiry after MISS has cut off a REFUSED is that of the REFUSED. R139 has it so where request and
expiry fall together and the request is taken first; in its worked sequence, where the REFUSED is cut off earlier, no
such expiry comes. The row BEEPER_INTERVAL_EXPIRY does not say which of the two it is (log entry 58). -/
opaque Config.cutOffExpiry : Nat → Bool

end Sys2Proof
end

