-- ==== Sys2Proof/Machine/State.lean ====
section
/-! DEFINITION. The state of the DW-44 as plain data, block by block in the order of the manual's block
overview, the fault and refusal reasons, and the state right after power-on reset. -/

namespace Sys2Proof.Machine

/-! ### Settings and counters (chapters 2 and 11) -/

/-- Setting MODE (R182). -/
inductive Mode where
  | direct | line
  deriving DecidableEq, Repr

/-- Setting SOURCE (R182): LOCAL keys or REMOTE text. -/
inductive Source where
  | localKeys | remoteText
  deriving DecidableEq, Repr

/-- Setting PITCH (R182). -/
inductive Pitch where
  | p10 | p12 | p15 | ps
  deriving DecidableEq, Repr

/-- Setting JUSTIFY and the composition justify choice (R22, R182). -/
inductive Justify where
  | ragged | justify | center | flushRight
  deriving DecidableEq, Repr

/-- Setting IMPRESSION (R63, R182). -/
inductive Impression where
  | light | normal | heavy
  deriving DecidableEq, Repr

/-- Setting RIBBON (R63, R182). -/
inductive Ribbon where
  | film | fabric
  deriving DecidableEq, Repr

/-- One entry of FAULT_MASK (R149). -/
inductive MaskValue where
  | halt | report
  deriving DecidableEq, Repr

/-- The settings store of the Command Engine (R182): every setting but the five line settings, whose
values in force the Composer holds (R22). -/
structure Settings where
  lineSpacing      : Nat
  pageLength       : Nat
  justify          : Justify
  spell            : Bool
  holdOnMiss       : Bool
  language         : Nat
  keyboard         : Nat
  expectedWheel    : Nat
  impression       : Impression
  ribbon           : Ribbon
  correctionOffset : Nat
  autoReturn       : Bool
  /-- DECIMAL_CHAR: false for '.', true for ','. -/
  decimalComma     : Bool
  display          : Bool
  beeper           : Bool
  maskOpenLoad     : MaskValue
  maskHomeNotFound : MaskValue
  maskIndexLost    : MaskValue
  deriving DecidableEq, Repr

/-- The twenty statistics counters (R185). -/
structure Counters where
  strikes          : Nat
  lifts            : Nat
  lines            : Nat
  checks           : Nat
  misses           : Nat
  unprintable      : Nat
  pastTravel       : Nat
  heatWaits        : Nat
  checksDropped    : Nat
  noKeymap         : Nat
  keyOverflows     : Nat
  textOverruns     : Nat
  badBlocks        : Nat
  huntDiscards     : Nat
  syncLosses       : Nat
  unknownKinds     : Nat
  eventsLost       : Nat
  answersLost      : Nat
  unmappedControls : Nat
  faultsUnlisted   : Nat
  deriving DecidableEq, Repr

/-! ### The Table Store (chapter 9) -/

/-- Table memory: the listed bytes, by address (segment times 16 plus offset), in rising order; an
unlisted address reads as `unwrittenByte` (log entry 8). -/
abbrev Memory := List Host.Cell

/-- The kinds of table (R155). -/
inductive TableKind where
  | wheelMap | keyMap | lexicon
  deriving DecidableEq, Repr

/-- The state of a directory slot (R155). -/
inductive SlotState where
  | empty | opened | sealed
  deriving DecidableEq, Repr

/-- One slot record of the table directory (R155). `written` has one mark per segment of the run. -/
structure Slot where
  state   : SlotState
  kind    : TableKind
  key     : Nat
  first   : Nat
  count   : Nat
  written : List Bool
  guarded : Bool
  check   : Word
  deriving DecidableEq, Repr

/-- The seal engine while SEALING (R160): the slot, the check value and protect flag given, the whole time of
the seal in microseconds, and its progress: the bytes of the table read so far and the figure they give (R161,
log entry 59). -/
structure Seal where
  slot   : Nat
  check  : Word
  guarded : Bool
  micros : Nat
  progress : Nat
  figure : Word
  deriving DecidableEq, Repr

/-- The Table Store: table memory, the twelve slots, the seal engine (none when IDLE). -/
structure TableStore where
  mem    : Memory
  slots  : List Slot
  sealing : Option Seal
  deriving DecidableEq, Repr

/-! ### Key Intake (chapter 1) -/

/-- The 33 key functions (section 12.3). -/
inductive Func where
  | shift | code | shiftLock | space | returnKey | backspace | tab | marginLeft | marginRight
  | marginRelease | tabSet | tabClear | decimalTabSet | correct | wordCorrect | lineCorrect | relocate
  | paperUp | paperDown | halfUp | halfDown | pitchCycle | modeToggle | justifyCycle | spellToggle
  | acceptWord | addWord | cursorLeft | cursorRight | boldToggle | underlineToggle | pause | sourceToggle
  deriving DecidableEq, Repr

/-- A key map entry (R12). -/
inductive KeyEntry where
  | none
  | char (code : Byte) (rep : Bool)
  | dead (code : Byte)
  | func (f : Func) (rep : Bool)
  deriving DecidableEq, Repr

/-- What Key Intake hands the Composer (R16). -/
inductive KeyAction where
  | char (code : Byte)
  | dead (code : Byte)
  | func (f : Func)
  deriving DecidableEq, Repr

/-- A press resolved at the head of the key queue and offered to the Composer (R16). -/
structure Offered where
  key    : Nat
  action : KeyAction
  rep    : Bool
  deriving DecidableEq, Repr

/-- The typematic timer (R19): the key it repeats, the action it makes, and whether the 480 ms
countdown (false) or the 80 ms periodic timer (true) runs. -/
structure Typematic where
  key      : Nat
  action   : KeyAction
  periodic : Bool
  deriving DecidableEq, Repr

/-- Key Intake (R15): held keys with the entry recorded at their press, SHIFT_LOCK, the press offered
at the head of the key queue, the typematic timer and the pending repeat. -/
structure Intake where
  held      : List (Nat × KeyEntry)
  shiftLock : Bool
  offered   : Option Offered
  timer     : Option Typematic
  pendingRepeat : Option KeyAction
  deriving DecidableEq, Repr

/-! ### The Composer (chapter 2) -/

/-- The kind of a composition record (R39). -/
inductive RecKind where
  | char | space | tab | dead
  deriving DecidableEq, Repr

/-- A record of the composition buffer (R39), with its word reference (R111). -/
structure CompRec where
  code      : Byte
  kind      : RecKind
  bold      : Bool
  underline : Bool
  adv       : Nat
  word      : Option Word
  deriving DecidableEq, Repr

/-- The role of a strike (R65). -/
inductive Role where
  | base | part | shadow | underscore
  deriving DecidableEq, Repr

/-- One strike of a strike set (R50). -/
structure Strike where
  role : Role
  code : Byte
  pos  : Nat
  deriving DecidableEq, Repr

/-- A placement of the outgoing line (R59). -/
structure Placement where
  kind    : RecKind
  code    : Byte
  pos     : Nat
  adv     : Nat
  strikes : List Strike
  deriving DecidableEq, Repr

/-- The outgoing line: placements not yet appended, and the left margin and LINE_SPACING recorded at
the release (R41, R42). -/
structure Outgoing where
  placements : List Placement
  left       : Nat
  spacing    : Nat
  deriving DecidableEq, Repr

/-- A tab stop (section 2.9). -/
structure TabStop where
  pos     : Nat
  decimal : Bool
  deriving DecidableEq, Repr

/-- The pending line settings (R26). -/
structure PendingLine where
  mode   : Option Mode
  source : Option Source
  pitch  : Option Pitch
  left   : Option Nat
  right  : Option Nat
  deriving DecidableEq, Repr

/-- The line flags (R22). -/
structure LineFlags where
  marginReleased      : Bool
  hotZone             : Bool
  unprintableReported : Bool
  pastMargin          : Bool
  deriving DecidableEq, Repr

/-- What a waiting item waits on (R28). -/
inductive WaitCause where
  | room | outgoing | verdict | wheelMap | inFlight
  deriving DecidableEq, Repr

/-- The Composer (R22), with the override flag of R129 and, for each feed, what the item at its head
waits on (R28). -/
structure Composer where
  source    : Source
  mode      : Mode
  pitch     : Pitch
  left      : Nat
  right     : Nat
  later     : PendingLine
  logical   : Nat
  recs      : List CompRec
  cursor    : Nat
  choice    : Justify
  outgoing  : Option Outgoing
  tabs      : List TabStop
  bold      : Bool
  underline : Bool
  flags     : LineFlags
  override  : Bool
  keyWait   : Option WaitCause
  textWait  : Option WaitCause
  deriving DecidableEq, Repr

/-! ### The Print Sequencer (chapter 4) -/

/-- A print order (R65). A position or a level is a number; `ref` is the sequence number of the entry
it refers to. -/
inductive Order where
  | strike (code : Byte) (pos : Nat) (role : Role) (ref : Option Word) (num : Word)
  | lift (petal wheel pos level : Nat) (ref : Option Word)
  | move (pos : Nat)
  | index (count : Int)
  | indexPage
  deriving DecidableEq, Repr

/-- The fault kinds (R148). -/
inductive FaultKind where
  | openLoad | overcurrent | homeNotFound | wheelIndexLost
  deriving DecidableEq, Repr

/-- The eight mechanism states (R67). -/
inductive MechState where
  | unhomed | homing | wheelWait | idle | running | paused | halted | coverOpen
  deriving DecidableEq, Repr

/-- The reason recorded with a mechanism state (R67). -/
inductive Reason where
  | none | key | command | paper | noMap | mismatch
  | fault (k : FaultKind)
  deriving DecidableEq, Repr

/-- The reason of a pause request (R67). -/
inductive PauseReason where
  | key | command
  deriving DecidableEq, Repr

/-- The order in flight, by its phase (R67, R74 to R77, R80, R81), with the duration in microseconds
that the rules give the phase. -/
inductive Flight where
  | position (petal level micros : Nat)
  | heatWait (petal level : Nat)
  | pulse (petal level micros : Nat)
  | recover (petal level micros : Nat)
  | moving (micros : Nat)
  | indexing (halfLines micros : Nat)
  deriving DecidableEq, Repr

/-- The homing step in progress (R70, R71); `ident` holds the reads taken so far. -/
inductive Homing where
  | home
  | ret (target : Nat)
  | index
  | ident (reads : List Nat)
  | test (ch : Channel)
  deriving DecidableEq, Repr

/-- The positions of the lift actuator (R79). -/
inductive LiftPos where
  | rest | ribbon | tape
  deriving DecidableEq, Repr

/-- The Print Sequencer (R67, R68). `carriage`, `petal` and `lift` are none while unknown; `liftTarget`
is the position a lift motion under way moves to; `heatCounted` says that the head order has been
counted in HEAT_WAITS (R76); `coverStop` says that the cover opened during the pulse in flight, which
runs on (R85, R146). -/
structure Sequencer where
  queue       : List Order
  flight      : Option Flight
  state       : MechState
  reason      : Reason
  homing      : Option Homing
  pauseReq    : Option PauseReason
  carriage    : Option Nat
  petal       : Option Nat
  lift        : Option LiftPos
  liftTarget  : Option LiftPos
  paperPos    : Nat
  heat        : Nat
  wheelCode   : Nat
  nextStrike  : Word
  heatCounted : Bool
  coverStop   : Bool
  deriving DecidableEq, Repr

/-! ### Drive Stages (chapter 8) -/

/-- The last test result of a channel (R143). -/
inductive TestResult where
  | none | pass | fail
  deriving DecidableEq, Repr

/-- The last test results of the five channels (R143). -/
structure TestResults where
  carriage : TestResult
  wheel    : TestResult
  hammer   : TestResult
  lift     : TestResult
  paper    : TestResult
  deriving DecidableEq, Repr

/-- A record of the fault list (R148). -/
structure FaultRec where
  kind    : FaultKind
  ch      : Channel
  occ     : Nat
  isPresent : Bool
  deriving DecidableEq, Repr

/-- A test of the rotation (R145): running, or deferred until a drive completes. -/
inductive RotTest where
  | running | deferred
  deriving DecidableEq, Repr

/-- The Drive Stages (R142 to R148, R153). The drive state of each channel is computed from the
motions in progress (`driveState`, R142). -/
structure Drives where
  results  : TestResults
  rotation : Channel
  rotTest  : Option RotTest
  faults   : List FaultRec
  deriving DecidableEq, Repr

/-! ### The Correction Unit (chapter 5) -/

/-- A strike status (R91). -/
inductive StrikeStatus where
  | waiting
  | inFlight
  | printed (petal wheel level : Nat)
  | skipped
  deriving DecidableEq, Repr

/-- A strike record (R91). -/
structure StrikeRec where
  num    : Word
  role   : Role
  pos    : Nat
  status : StrikeStatus
  deriving DecidableEq, Repr

/-- The kind of a line record entry (R90). -/
inductive EntryKind where
  | char | space | dead
  deriving DecidableEq, Repr

/-- A line record entry (R90). Its state is derived (R92). -/
structure Entry where
  seqNum      : Word
  code        : Byte
  kind        : EntryKind
  pos         : Nat
  adv         : Nat
  strikes     : List StrikeRec
  outstanding : Nat
  liftSkipped : Bool
  word        : Option Word
  deriving DecidableEq, Repr

/-- The phase of a correction run (R102, R103). -/
inductive RunPhase where
  | spaces | word | all
  deriving DecidableEq, Repr

/-- A correction run in progress (R104): its phase, and whether one of its steps has been carried out. -/
structure CorrectionRun where
  phase   : RunPhase
  stepped : Bool
  deriving DecidableEq, Repr

/-- The Correction Unit (R89, R90, R104). -/
structure LineRecord where
  entries : List Entry
  dropped : Nat
  nextSeq : Word
  run     : Option CorrectionRun
  deriving DecidableEq, Repr

/-! ### The Spelling Unit (chapter 6) -/

/-- Why a word was SKIPPED (R111). -/
inductive SkipCause where
  | digit | length | noLexicon | dropped
  deriving DecidableEq, Repr

/-- The verdict held for a word (R111). -/
inductive Verdict where
  | unchecked | pending | known | user | accepted | miss
  | skipped (cause : SkipCause)
  deriving DecidableEq, Repr

/-- A word record (R111). `first` and `last` are sequence numbers in DIRECT, record indices in LINE. -/
structure SpellWord where
  num      : Word
  first    : Nat
  last     : Nat
  letters  : List Nat
  length   : Nat
  digit    : Bool
  verdict  : Verdict
  gen      : Byte
  complete : Bool
  detached : Bool
  deriving DecidableEq, Repr

/-- A place in a bucket of the lexicon (R119): how many of its entries are still to be read, the address of the
next one, and the letters of the entry before it, against which it is rebuilt (R118). -/
structure BucketPlace where
  unread   : Nat
  next     : Nat
  previous : List Nat
  deriving DecidableEq, Repr

/-- The lookup engine while LOOKING (R119), with the duration of the lookup in microseconds. Its place in the
bucket stands at the bucket's start until the lookup completes, as no row stands for the reading of one entry
(log entry 57). -/
structure Lookup where
  word    : Word
  gen     : Byte
  letters : List Nat
  place   : BucketPlace
  micros  : Nat
  deriving DecidableEq, Repr

/-- The Spelling Unit (R109, R111, R117, R119, R125, R126). `sweep` is the word number of the next
record the recheck sweep examines, none when it is not running; `requested` is the last word of the
composition while it is complete by a release request alone (R113, log entry 22). -/
structure Spelling where
  words    : List SpellWord
  nextWord : Word
  marks    : List Word
  checkq   : List (Word × Byte)
  engine   : Option Lookup
  sweep    : Option Word
  users    : List (List Nat)
  requested : Option Word
  deriving DecidableEq, Repr

/-! ### The Display Unit (chapter 7) -/

/-- One cell of the image (R130). -/
structure Cell where
  code      : Byte
  underline : Bool
  bold      : Bool
  miss      : Bool
  cursor    : Bool
  deriving DecidableEq, Repr

/-- The spelling field of the status (R134). -/
inductive SpellField where
  | off | on | noLexicon
  deriving DecidableEq, Repr

/-- The mode field of the status (R134). -/
inductive ModeField where
  | d | l | r
  deriving DecidableEq, Repr

/-- A display image: 40 cells and the status (R130). -/
structure Image where
  cells         : List Cell
  mode          : ModeField
  pitch         : Pitch
  justify       : Justify
  spelling      : SpellField
  column        : Nat
  hotZone       : Bool
  marginRelease : Bool
  paused        : Bool
  fault         : Bool
  wheelWait     : Bool
  deriving DecidableEq, Repr

/-- The beeper patterns (R138). -/
inductive Pattern where
  | refused | bell | miss
  deriving DecidableEq, Repr

/-- The beeper while SOUNDING (R138): the pattern, and which of its intervals is under way. `cutOff` says that its
start has cut off a REFUSED and no expiry has come since, so that the expiry of the REFUSED may still come (R139,
log entry 58). -/
structure Sounding where
  pattern  : Pattern
  interval : Nat
  cutOff   : Bool
  deriving DecidableEq, Repr

/-- The Display Unit (chapter 7). -/
structure Display where
  window   : Nat
  current  : Option Image
  lastSent : Option Image
  slot     : Option Image
  beeper   : Option Sounding
  deriving DecidableEq, Repr

/-! ### The Link Interface (chapter 10) -/

/-- Receiver sync (section 10.2). -/
inductive RxState where
  | hunt | confirm | locked
  deriving DecidableEq, Repr

/-- The outcome carried in an ANSWER, in the order of section 12.2. -/
inductive CmdOutcome where
  | done | doneClamped | donePending | busy | aborted | badLength | unknownCommand | unknownSetting
  | inconsistent | noRoom | notOpen | badIndex | incomplete | badCheck | badContent | guarded | listFull
  | notFound | notHalted
  deriving DecidableEq, Repr

/-- Why a correction was refused (R96, R99, R78). -/
inductive CorrectReason where
  | nothing | wrongWheel | notInMemory
  deriving DecidableEq, Repr

/-- The events of section 12.5. -/
inductive Event where
  | linkLocked
  | linkLost
  | keyOverflow
  | textOverrun (count : Nat)
  | textPastMargin
  | unprintable (code : Byte)
  | hotZone (pos : Nat)
  | mechState (state : MechState) (reason : Reason)
  | wheelIdentified (code : Nat)
  | wheelMismatch (expected identified : Nat)
  | wheelNoMap (code : Nat)
  | faultRaised (kind : FaultKind) (ch : Channel) (occ : Nat)
  | faultCleared (kind : FaultKind) (ch : Channel)
  | correctRefused (reason : CorrectReason)
  | spellMiss (word : Word) (letters : List Nat)
  | releaseHeld (word : Word) (count : Nat)
  | justifyAbandoned (n : Nat) (extra : Int)
  | tableActive (kind : TableKind) (key slot : Nat)
  deriving DecidableEq, Repr

/-- A record of the report queue (R177); `lost` is the lost-before flag of an EVENT. -/
inductive Report where
  | answer (code : Byte) (outcome : CmdOutcome) (data : List Byte)
  | event (e : Event) (lost : Bool)
  deriving DecidableEq, Repr

/-- What the return line is sending (R178). -/
inductive Sending where
  | report (r : Report)
  | credit (grant : Nat) (restating : Bool)
  | displayFirst (im : Image)
  | displaySecond (im : Image)
  deriving DecidableEq, Repr

/-- The receiver (section 10.2): its sync state, the feed bytes received and not yet judged, and the
bad-block window (true for bad), oldest first. -/
structure Receiver where
  sync   : RxState
  buf    : List FeedByte
  window : List Bool
  deriving DecidableEq, Repr

/-- Remote text and credit (R174, R175). -/
structure TextLink where
  queue   : List Byte
  balance : Nat
  unsent  : Nat
  restate : Bool
  deriving DecidableEq, Repr

/-- The key queue (R173): KEY payload bytes in arrival order, and the overflow run flag. -/
structure KeyQueue where
  queue       : List Byte
  overflowRun : Bool
  deriving DecidableEq, Repr

/-- The report queue and the return line (R177, R178). -/
structure ReturnLine where
  reports  : List Report
  reserved : Nat
  lost     : Bool
  arbCount : Nat
  sending  : Option Sending
  deriving DecidableEq, Repr

/-! ### The whole part -/

/-- The state of the part. `pending` is the queue of commands that wait; `resetHeld` is the reset input;
`coverOpen` is the cover switch; `free` is the MODEL's own counter of free values drawn (log entry 5). -/
structure State where
  pending   : List Instr
  resetHeld : Bool
  coverOpen : Bool
  free      : Nat
  rx        : Receiver
  keyq      : KeyQueue
  txt       : TextLink
  ret       : ReturnLine
  set       : Settings
  ctr       : Counters
  tab       : TableStore
  intake    : Intake
  comp      : Composer
  seq       : Sequencer
  drv       : Drives
  line      : LineRecord
  spell     : Spelling
  disp      : Display
  deriving DecidableEq, Repr

/-- Why the machine stops. -/
inductive Fault where
  /-- Raised by TABLE_WRITE, SEAL_COMPLETE, CONTROL_BLOCK and CONFIRM_BLOCK in a state whose directory
  names a run that passes segment 4095: R154 says that no such segment exists. No such state is reached
  from reset. Safe: the model stops where the hardware has no behaviour. -/
  | runOutsideTableMemory
  deriving DecidableEq, Repr

/-- Why an instruction has no meaning. -/
inductive Refusal where
  /-- Answered only by an arm of `exec` for an instruction without a meaning; no arm answers it. Safe. -/
  | notModelled (mnemonic : String)
  deriving DecidableEq, Repr

/-! ### The state right after power-on reset (R22, R68, R153, R155, R180, R182, R185, R187) -/

/-- The power-on values of the settings (R182). -/
def Settings.powerOn : Settings where
  lineSpacing := 2
  pageLength := 66
  justify := .ragged
  spell := false
  holdOnMiss := false
  language := 0
  keyboard := 0
  expectedWheel := 0
  impression := .normal
  ribbon := .film
  correctionOffset := 2
  autoReturn := true
  decimalComma := false
  display := true
  beeper := true
  maskOpenLoad := .halt
  maskHomeNotFound := .halt
  maskIndexLost := .halt

/-- All twenty counters at 0 (R185). -/
def Counters.zero : Counters := ⟨0, 0, 0, 0, 0, 0, 0, 0, 0, 0, 0, 0, 0, 0, 0, 0, 0, 0, 0, 0⟩

/-- An EMPTY slot (R155); the fields other than the state are not reported and hold 0. -/
def Slot.emptySlot : Slot := ⟨.empty, .wheelMap, 0, 0, 0, [], false, 0⟩

/-- The Table Store with every slot EMPTY and the seal engine IDLE (R155, R160). -/
def TableStore.powerOn : TableStore := ⟨[], List.replicate 12 Slot.emptySlot, none⟩

/-- Key Intake after reset (R15). -/
def Intake.powerOn : Intake := ⟨[], false, none, none, none⟩

/-- No pending line setting (R22). -/
def PendingLine.none : PendingLine := ⟨.none, .none, .none, .none, .none⟩

/-- All line flags clear (R22). -/
def LineFlags.clear : LineFlags := ⟨false, false, false, false⟩

/-- The Composer after reset (R22). -/
def Composer.powerOn : Composer where
  source := .localKeys
  mode := .direct
  pitch := .p10
  left := 120
  right := 1080
  later := .none
  logical := 120
  recs := []
  cursor := 0
  choice := .ragged
  outgoing := none
  tabs := []
  bold := false
  underline := false
  flags := .clear
  override := false
  keyWait := none
  textWait := none

/-- The Print Sequencer while the reset input is held (R68): UNHOMED, and every position unknown. -/
def Sequencer.held : Sequencer where
  queue := []
  flight := none
  state := .unhomed
  reason := .none
  homing := none
  pauseReq := none
  carriage := none
  petal := none
  lift := none
  liftTarget := none
  paperPos := 0
  heat := 0
  wheelCode := 0
  nextStrike := 0
  heatCounted := false
  coverStop := false

/-- The Drive Stages after reset (R153). -/
def Drives.powerOn : Drives := ⟨⟨.none, .none, .none, .none, .none⟩, .carriage, none, []⟩

/-- The line record after reset (R90, R107). -/
def LineRecord.powerOn : LineRecord := ⟨[], 0, 0, none⟩

/-- The Spelling Unit after reset (R111, R119, R126). -/
def Spelling.powerOn : Spelling := ⟨[], 0, [], [], none, none, [], none⟩

/-- A blank cell (R131), with or without the cursor. -/
def Cell.blank (cursor : Bool) : Cell := ⟨0x20, false, false, false, cursor⟩

/-- The first image (R137): empty cells with the cursor in cell 0, column 011, mode D, pitch P10, justify
RAGGED, spelling OFF and clear flags. -/
def Image.first : Image where
  cells := Cell.blank true :: List.replicate 39 (Cell.blank false)
  mode := .d
  pitch := .p10
  justify := .ragged
  spelling := .off
  column := 11
  hotZone := false
  marginRelease := false
  paused := false
  fault := false
  wheelWait := false

/-- The Display Unit at the end of reset (R130, R137): the first image waits in the slot. -/
def Display.powerOn : Display := ⟨0, some Image.first, none, some Image.first, none⟩

/-- The receiver after reset (R180). -/
def Receiver.powerOn : Receiver := ⟨.hunt, [], []⟩

/-- Remote text and credit after reset (R180). -/
def TextLink.powerOn : TextLink := ⟨[], 0, 96, true⟩

/-- The key queue after reset (R180). -/
def KeyQueue.powerOn : KeyQueue := ⟨[], false⟩

/-- The report queue and return line after reset (R180). -/
def ReturnLine.powerOn : ReturnLine := ⟨[], 0, false, 0, none⟩

/-- The part while the reset input is held (R187): every item at its power-on value, the mechanism
UNHOMED and the return line silent. The cover switch shows what it showed, and the commands that wait and
the count of free values are not the part's. -/
def State.held (pending : List Instr) (coverOpen : Bool) (free : Nat) : State where
  pending := pending
  resetHeld := true
  coverOpen := coverOpen
  free := free
  rx := .powerOn
  keyq := .powerOn
  txt := .powerOn
  ret := .powerOn
  set := .powerOn
  ctr := .zero
  tab := .powerOn
  intake := .powerOn
  comp := .powerOn
  seq := .held
  drv := .powerOn
  line := .powerOn
  spell := .powerOn
  disp := { Display.powerOn with current := none, slot := none }

/-- The Print Sequencer when homing has just started after power-on reset with the cover closed (R69,
R70): step 1 begins and the lift actuator moves to REST. -/
def Sequencer.firstHoming : Sequencer :=
  { Sequencer.held with state := .homing, homing := some .home, liftTarget := some .rest }

/-- The machine right after reset (R187): the reset input has been released with the cover closed (log
entry 9), homing has started and queued EVENT MECH_STATE HOMING, the restate flag is set and the first
image waits in the slot. No command waits. -/
def State.reset : State :=
  { State.held [] false 0 with
    resetHeld := false
    ret := { ReturnLine.powerOn with reports := [.event (.mechState .homing .none) false] }
    seq := .firstHoming
    disp := .powerOn }

end Sys2Proof.Machine
end

