-- ==== Sys2Proof/Machine/Ops.lean ====
section
/-! DEFINITION. The shared operations of the block: table memory, saturating counters, the report
queue, the beeper, free values, and small list helpers. The block has no exception entry: raising a
fault record, an event or a signal is an effect on State. -/

namespace Sys2Proof.Machine

/-! ### Table memory (R154) -/

/-- What a byte of table memory reads as when nothing has been written to it (R154: its bytes are
unknown after power-on). DESIGN CHOICE, log entry 8; no sealed table holds such a byte, as a seal needs
every segment written (R160). -/
def unwrittenByte : Byte := 0

/-- The number of bytes of table memory (R154): 4096 segments of 16 bytes. -/
def tableBytes : Nat := 65536

/-- The canonical form of table memory: addresses strictly rising and inside the memory, and no listed
byte that an unlisted address would read as. -/
def Memory.wf : Memory → Bool
  | [] => true
  | [(a, b)] => a < tableBytes && b != unwrittenByte
  | (a, b) :: (a', b') :: m => a < a' && b != unwrittenByte && Memory.wf ((a', b') :: m)

/-- The byte at an address. -/
def Memory.read : Memory → Nat → Byte
  | [], _ => unwrittenByte
  | (a, b) :: m, x => if a = x then b else Memory.read m x

/-- The byte at an address replaced, keeping the canonical form. -/
def Memory.write : Memory → Nat → Byte → Memory
  | [], x, v => if v = unwrittenByte then [] else [(x, v)]
  | (a, b) :: m, x, v =>
    if a < x then (a, b) :: Memory.write m x v
    else if a = x then (if v = unwrittenByte then m else (x, v) :: m)
    else (if v = unwrittenByte then (a, b) :: m else (x, v) :: (a, b) :: m)

/-- Consecutive bytes replaced, from an address on. -/
def Memory.writeBytes : Memory → Nat → List Byte → Memory
  | m, _, [] => m
  | m, x, v :: vs => Memory.writeBytes (Memory.write m x v) (x + 1) vs

/-- `n` consecutive bytes from an address on. -/
def Memory.readBytes (m : Memory) (x : Nat) : Nat → List Byte
  | 0 => []
  | n + 1 => Memory.read m x :: Memory.readBytes m (x + 1) n

/-! ### Bytes and words (R188) -/

/-- The two bytes of a 16-bit field, high byte first. -/
def twoBytes (n : Nat) : List Byte := [BitVec.ofNat 8 (n / 256), BitVec.ofNat 8 n]

/-- The four bytes of the counters STRIKES and LINES. High byte first is the model's choice: R188 gives the order of two
bytes only (log entry 62). -/
def fourBytes (n : Nat) : List Byte :=
  [BitVec.ofNat 8 (n / 16777216), BitVec.ofNat 8 (n / 65536), BitVec.ofNat 8 (n / 256), BitVec.ofNat 8 n]

/-- A two-byte field read high byte first. -/
def ofTwoBytes (hi lo : Byte) : Nat := hi.toNat * 256 + lo.toNat

/-- A signed field of two bytes, two's complement. -/
def signedTwoBytes (i : Int) : List Byte := twoBytes (i % 65536).toNat

/-- A byte from a number. -/
def byteOf (n : Nat) : Byte := BitVec.ofNat 8 n

/-- A flag of one byte, or the flag bit of a head byte. That an answer has 1 for yes and 0 for no is the model's choice
(log entry 63). -/
def flagByte (b : Bool) : Byte := if b then 1 else 0

/-! ### Counters (R185) -/

/-- The names of the counters, in the order of R185. -/
inductive Counter where
  | strikes | lifts | lines | checks | misses | unprintable | pastTravel | heatWaits | checksDropped
  | noKeymap | keyOverflows | textOverruns | badBlocks | huntDiscards | syncLosses | unknownKinds
  | eventsLost | answersLost | unmappedControls | faultsUnlisted
  deriving DecidableEq, Repr

/-- The maximum of a counter: STRIKES and LINES are 32-bit, the others 16-bit (R185). -/
def Counter.max : Counter → Nat
  | .strikes => 4294967295
  | .lines => 4294967295
  | _ => 65535

/-- A count raised, staying at its maximum. -/
def saturate (top a n : Nat) : Nat := min top (a + n)

/-- The value of a counter. -/
def Counters.get (c : Counters) : Counter → Nat
  | .strikes => c.strikes
  | .lifts => c.lifts
  | .lines => c.lines
  | .checks => c.checks
  | .misses => c.misses
  | .unprintable => c.unprintable
  | .pastTravel => c.pastTravel
  | .heatWaits => c.heatWaits
  | .checksDropped => c.checksDropped
  | .noKeymap => c.noKeymap
  | .keyOverflows => c.keyOverflows
  | .textOverruns => c.textOverruns
  | .badBlocks => c.badBlocks
  | .huntDiscards => c.huntDiscards
  | .syncLosses => c.syncLosses
  | .unknownKinds => c.unknownKinds
  | .eventsLost => c.eventsLost
  | .answersLost => c.answersLost
  | .unmappedControls => c.unmappedControls
  | .faultsUnlisted => c.faultsUnlisted

/-- A counter set to a value. -/
def Counters.put (c : Counters) (k : Counter) (v : Nat) : Counters :=
  match k with
  | .strikes => { c with strikes := v }
  | .lifts => { c with lifts := v }
  | .lines => { c with lines := v }
  | .checks => { c with checks := v }
  | .misses => { c with misses := v }
  | .unprintable => { c with unprintable := v }
  | .pastTravel => { c with pastTravel := v }
  | .heatWaits => { c with heatWaits := v }
  | .checksDropped => { c with checksDropped := v }
  | .noKeymap => { c with noKeymap := v }
  | .keyOverflows => { c with keyOverflows := v }
  | .textOverruns => { c with textOverruns := v }
  | .badBlocks => { c with badBlocks := v }
  | .huntDiscards => { c with huntDiscards := v }
  | .syncLosses => { c with syncLosses := v }
  | .unknownKinds => { c with unknownKinds := v }
  | .eventsLost => { c with eventsLost := v }
  | .answersLost => { c with answersLost := v }
  | .unmappedControls => { c with unmappedControls := v }
  | .faultsUnlisted => { c with faultsUnlisted := v }

/-- A counter raised by `n`, saturating (R185). -/
def Counters.raise (c : Counters) (k : Counter) (n : Nat) : Counters :=
  c.put k (saturate k.max (c.get k) n)

/-- A counter of the part raised. -/
def State.raise (s : State) (k : Counter) (n : Nat := 1) : State :=
  { s with ctr := s.ctr.raise k n }

/-! ### The report queue (R177) -/

/-- The places of the report queue (R177). -/
def reportPlaces : Nat := 24

/-- The most EVENTs the report queue holds (R177). -/
def eventPlaces : Nat := 22

/-- Whether a record is an EVENT. -/
def Report.isEvent : Report → Bool
  | .event _ _ => true
  | .answer _ _ _ => false

/-- The number of EVENTs held. -/
def ReturnLine.eventCount (r : ReturnLine) : Nat := (r.reports.filter Report.isEvent).length

/-- Records and reservations together (R177). -/
def ReturnLine.fill (r : ReturnLine) : Nat := r.reports.length + r.reserved

/-- A free place of the report queue (R177). -/
def ReturnLine.hasFree (r : ReturnLine) : Bool := r.fill < reportPlaces

/-- Whether an EVENT queued now is appended (R177). -/
def ReturnLine.takesEvent (r : ReturnLine) : Bool := r.eventCount < eventPlaces && r.hasFree

/-- Queue an EVENT (R177): appended with the lost-before flag, or dropped and counted. -/
def State.event (s : State) (e : Event) : State :=
  if s.ret.takesEvent then
    { s with ret := { s.ret with reports := s.ret.reports ++ [.event e s.ret.lost], lost := false } }
  else
    { s with ret := { s.ret with lost := true }, ctr := s.ctr.raise .eventsLost 1 }

/-- Reserve the place of an answer (R176). -/
def State.reserve (s : State) : State :=
  { s with ret := { s.ret with reserved := s.ret.reserved + 1 } }

/-- Queue an ANSWER into its reserved place (R176, R177). -/
def State.answer (s : State) (code : Byte) (o : CmdOutcome) (data : List Byte) : State :=
  { s with ret := { s.ret with
      reports := s.ret.reports ++ [.answer code o data], reserved := s.ret.reserved - 1 } }

/-! ### The beeper (R138 to R140) -/

/-- The number of intervals of a pattern (R138). -/
def Pattern.intervals : Pattern → Nat
  | .refused => 1
  | .bell => 1
  | .miss => 3

/-- Ask the beeper for a pattern (R139, R140). -/
def State.signal (s : State) (p : Pattern) : State :=
  if s.set.beeper then
    match s.disp.beeper with
    | none => { s with disp := { s.disp with beeper := some ⟨p, 0, false⟩ } }
    | some b =>
      if b.pattern = .refused ∧ p = .miss then
        { s with disp := { s.disp with beeper := some ⟨.miss, 0, true⟩ } }
      else s
  else s

/-- The beeper output: tone but in the silence of MISS and in IDLE (R138). -/
def Display.tone (d : Display) : Bool :=
  match d.beeper with
  | none => false
  | some b => b.interval % 2 = 0

/-! ### Free values (log entry 5) -/

/-- A motion of `n` units stopped on the way: how many of them were made, from 0 to `n`, and the state
after the free value was drawn. -/
def State.drawReached (s : State) (n : Nat) : Nat × State :=
  (Config.motionReached s.free % (n + 1), { s with free := s.free + 1 })

/-- The place reached on the way from `a` to `b` after `k` units. -/
def along (a b k : Nat) : Nat := if a ≤ b then a + k else a - k

/-- The length of a motion. -/
def dist (a b : Nat) : Nat := if a ≤ b then b - a else a - b

/-! ### Lists -/

/-- The first index at which a test holds. -/
def indexWhere {α : Type} (p : α → Bool) : List α → Option Nat
  | [] => none
  | a :: l => if p a then some 0 else (indexWhere p l).map (· + 1)

/-- The last index at which a test holds. -/
def lastIndexWhere {α : Type} (p : α → Bool) : List α → Option Nat
  | [] => none
  | a :: l =>
    match lastIndexWhere p l with
    | some i => some (i + 1)
    | none => if p a then some 0 else none

/-- The last element at which a test holds. -/
def lastWhere {α : Type} (p : α → Bool) : List α → Option α
  | [] => none
  | a :: l =>
    match lastWhere p l with
    | some b => some b
    | none => if p a then some a else none

/-- A list with one element replaced. -/
def setAt {α : Type} : List α → Nat → α → List α
  | [], _, _ => []
  | _ :: l, 0, v => v :: l
  | a :: l, n + 1, v => a :: setAt l n v

/-- A list with one element put in before a place. -/
def insertAt {α : Type} : List α → Nat → α → List α
  | l, 0, v => v :: l
  | [], _ + 1, v => [v]
  | a :: l, n + 1, v => a :: insertAt l n v

/-- ⌈a / b⌉. -/
def ceilDiv (a b : Nat) : Nat := (a + b - 1) / b

/-- A step of the part runs unless the reset input is held, when every event but those of the reset
input and the cover switch is passed over (R187). -/
def live (s : State) (f : State → State) : Host.Outcome State Fault Refusal :=
  .next (if s.resetHeld then s else f s)

end Sys2Proof.Machine
end

