-- ==== Sys2Proof/Machine/Formats.lean ====
section
/-! DEFINITION. The byte layouts of the formats chapter (R188): numbers of enumerations, event data,
return blocks and the display image. -/

namespace Sys2Proof.Machine

/-! ### Numbers of enumerations (section 12.3) -/

def Mode.num : Mode → Nat
  | .direct => 0 | .line => 1

def Source.num : Source → Nat
  | .localKeys => 0 | .remoteText => 1

def Pitch.num : Pitch → Nat
  | .p10 => 0 | .p12 => 1 | .p15 => 2 | .ps => 3

def Justify.num : Justify → Nat
  | .ragged => 0 | .justify => 1 | .center => 2 | .flushRight => 3

def MaskValue.num : MaskValue → Nat
  | .halt => 0 | .report => 1

def MechState.num : MechState → Nat
  | .unhomed => 0 | .homing => 1 | .wheelWait => 2 | .idle => 3 | .running => 4 | .paused => 5
  | .halted => 6 | .coverOpen => 7

def FaultKind.num : FaultKind → Nat
  | .openLoad => 0 | .overcurrent => 1 | .homeNotFound => 2 | .wheelIndexLost => 3

def Reason.num : Reason → Nat
  | .none => 0 | .key => 1 | .command => 2 | .paper => 3 | .noMap => 4 | .mismatch => 5
  | .fault k => 6 + k.num

def channelNum : Channel → Nat
  | .carriage => 0 | .wheel => 1 | .hammer => 2 | .lift => 3 | .paper => 4

def TestResult.num : TestResult → Nat
  | .none => 0 | .pass => 1 | .fail => 2

def TableKind.num : TableKind → Nat
  | .wheelMap => 0 | .keyMap => 1 | .lexicon => 2

def SlotState.num : SlotState → Nat
  | .empty => 0 | .opened => 1 | .sealed => 2

def EntryKind.num : EntryKind → Nat
  | .char => 0 | .space => 1 | .dead => 2

def Verdict.num : Verdict → Nat
  | .unchecked => 0 | .pending => 1 | .known => 2 | .user => 3 | .accepted => 4 | .miss => 5
  | .skipped _ => 6

/-- The skip cause of a verdict, 0 when it is not SKIPPED. -/
def Verdict.causeNum : Verdict → Nat
  | .skipped .digit => 1
  | .skipped .length => 2
  | .skipped .noLexicon => 3
  | .skipped .dropped => 4
  | _ => 0

def CorrectReason.num : CorrectReason → Nat
  | .nothing => 0 | .wrongWheel => 1 | .notInMemory => 2

def CmdOutcome.num : CmdOutcome → Nat
  | .done => 0 | .doneClamped => 1 | .donePending => 2 | .busy => 3 | .aborted => 4 | .badLength => 5
  | .unknownCommand => 6 | .unknownSetting => 7 | .inconsistent => 8 | .noRoom => 9 | .notOpen => 10
  | .badIndex => 11 | .incomplete => 12 | .badCheck => 13 | .badContent => 14 | .guarded => 15
  | .listFull => 16 | .notFound => 17 | .notHalted => 18

/-- The key function of a number (section 12.3), none for a number off the list. -/
def Func.ofNum : Nat → Option Func
  | 1 => some .shift | 2 => some .code | 3 => some .shiftLock | 4 => some .space
  | 5 => some .returnKey | 6 => some .backspace | 7 => some .tab | 8 => some .marginLeft
  | 9 => some .marginRight | 10 => some .marginRelease | 11 => some .tabSet | 12 => some .tabClear
  | 13 => some .decimalTabSet | 14 => some .correct | 15 => some .wordCorrect
  | 16 => some .lineCorrect | 17 => some .relocate | 18 => some .paperUp | 19 => some .paperDown
  | 20 => some .halfUp | 21 => some .halfDown | 22 => some .pitchCycle | 23 => some .modeToggle
  | 24 => some .justifyCycle | 25 => some .spellToggle | 26 => some .acceptWord
  | 27 => some .addWord | 28 => some .cursorLeft | 29 => some .cursorRight
  | 30 => some .boldToggle | 31 => some .underlineToggle | 32 => some .pause
  | 33 => some .sourceToggle
  | _ => none

/-! ### Link blocks (section 12.1) -/

/-- START (section 12.1). -/
def startByte : Byte := 0xD4

/-- IDLE (section 12.1). -/
def idleByte : Byte := 0xFF

/-- The exclusive or of bytes. -/
def xorBytes : List Byte → Byte
  | [] => 0
  | b :: l => b ^^^ xorBytes l

/-- CHECK: the exclusive or of HEAD, LEN and every payload byte (R168). -/
def checkByte (head : Byte) (payload : List Byte) : Byte :=
  head ^^^ byteOf payload.length ^^^ xorBytes payload

/-- A whole block: START, HEAD, LEN, payload and CHECK (R168). -/
def blockBytes (head : Byte) (payload : List Byte) : List Byte :=
  [startByte, head, byteOf payload.length] ++ payload ++ [checkByte head payload]

/-- The event code and data of an EVENT payload (section 12.5). -/
def Event.payload : Event → List Byte
  | .linkLocked => [1]
  | .linkLost => [2]
  | .keyOverflow => [3]
  | .textOverrun n => [4, byteOf n]
  | .textPastMargin => [5]
  | .unprintable c => [6, c]
  | .hotZone p => 7 :: twoBytes p
  | .mechState st r => [8, byteOf st.num, byteOf r.num]
  | .wheelIdentified c => [9, byteOf c]
  | .wheelMismatch e i => [10, byteOf e, byteOf i]
  | .wheelNoMap c => [11, byteOf c]
  | .faultRaised k ch n => [12, byteOf k.num, byteOf (channelNum ch), byteOf n]
  | .faultCleared k ch => [13, byteOf k.num, byteOf (channelNum ch)]
  | .correctRefused r => [14, byteOf r.num]
  | .spellMiss w l => 15 :: twoBytes w.toNat ++ [byteOf l.length] ++ l.map byteOf
  | .releaseHeld w n => 16 :: twoBytes w.toNat ++ [byteOf n]
  | .justifyAbandoned n e => 17 :: byteOf n :: signedTwoBytes e
  | .tableActive k key slot => [18, byteOf k.num, byteOf key, byteOf slot]

/-- The bytes of a cell: its code, then its four marks (section 12.6). -/
def Cell.bytes (c : Cell) : List Byte :=
  [c.code, byteOf (c.underline.toNat + 2 * c.bold.toNat + 4 * c.miss.toNat + 8 * c.cursor.toNat)]

def ModeField.byte : ModeField → Byte
  | .d => 0x44 | .l => 0x4C | .r => 0x52

def SpellField.num : SpellField → Nat
  | .off => 0 | .on => 1 | .noLexicon => 2

/-- The flags byte of the status (section 12.6). -/
def Image.flagsByte (im : Image) : Byte :=
  byteOf (im.hotZone.toNat + 2 * im.marginRelease.toNat + 4 * im.paused.toNat + 8 * im.fault.toNat
    + 16 * im.wheelWait.toNat)

/-- The three digit codes of the column (R134, section 12.6): its last three digits, where a cursor position past 1560
gives it more (log entry 74). -/
def columnDigits (n : Nat) : List Byte :=
  [byteOf (0x30 + n / 100 % 10), byteOf (0x30 + n / 10 % 10), byteOf (0x30 + n % 10)]

/-- The 88 bytes of an image (section 12.6). -/
def Image.bytes (im : Image) : List Byte :=
  im.cells.flatMap Cell.bytes ++ [im.mode.byte, byteOf im.pitch.num, byteOf im.justify.num, byteOf im.spelling.num]
    ++ columnDigits im.column ++ [im.flagsByte]

/-- The payload of a report. -/
def Report.payload : Report → List Byte
  | .answer code o data => code :: byteOf o.num :: data
  | .event e _ => e.payload

/-- The HEAD of a report (section 12.1): ANSWER, or EVENT with the lost-before flag in bit 0. -/
def Report.head : Report → Byte
  | .answer _ _ _ => 0x80
  | .event _ lost => 0x90 ||| flagByte lost

/-- The bytes that the return line carries for what it is sending (R168, R178, section 12.1). -/
def Sending.bytes : Sending → List Byte
  | .report r => blockBytes r.head r.payload
  | .credit grant restating => blockBytes (0xB0 ||| flagByte restating) [byteOf grant]
  | .displayFirst im => blockBytes 0xA0 (im.bytes.take 44)
  | .displaySecond im => blockBytes 0xA1 (im.bytes.drop 44)

end Sys2Proof.Machine
end

