-- ==== Sys2Proof/Machine/Tables.lean ====
section
/-! DEFINITION. What the Table Store holds and how its readers read it: the directory and its free runs
(R154 to R157), the active tables (R166), the entries of the three kinds of table (R1, R12, R118), their
seal-time validation (R5, R13, R122) and the table check (R161). -/

namespace Sys2Proof.Machine

/-! ### The directory -/

/-- The segments of table memory (R154). -/
def segmentCount : Nat := 4096

/-- The slot of a number; off the directory, an EMPTY one. -/
def slotAt (slots : List Slot) (i : Nat) : Slot := slots.getD i Slot.emptySlot

/-- The slots that hold a run (R154). -/
def occupied (slots : List Slot) : List Slot := slots.filter (fun d => d.state ≠ .empty)

/-- Whether a slot's run and the run of `n` segments from `a` share a segment. -/
def Slot.meets (d : Slot) (a n : Nat) : Bool := a < d.first + d.count && d.first < a + n

/-- Where a free run can start: segment 0, or the end of a run in use. -/
def runStarts (used : List Slot) : List Nat := 0 :: used.map (fun d => d.first + d.count)

/-- Whether `n` segments from `a` are free and inside table memory. -/
def fitsAt (used : List Slot) (n a : Nat) : Bool :=
  a + n ≤ segmentCount && used.all (fun d => !d.meets a n)

/-- The smallest of some numbers. -/
def least : List Nat → Option Nat
  | [] => none
  | a :: l =>
    match least l with
    | none => some a
    | some b => some (min a b)

/-- The first segment of the lowest free run that has room for `n` segments (R157). -/
def lowestFit (used : List Slot) (n : Nat) : Option Nat := least ((runStarts used).filter (fitsAt used n))

/-- The length of the free run that starts at `a`. -/
def freeFrom (used : List Slot) (a : Nat) : Nat :=
  if used.any (fun d => d.meets a 1) then 0
  else used.foldl (fun m d => if a ≤ d.first then min m d.first else m) segmentCount - a

/-- The length of the longest free run (R155, R157). -/
def longestFree (used : List Slot) : Nat := ((runStarts used).map (freeFrom used)).foldl max 0

/-- The total of free segments (R155). -/
def totalFree (used : List Slot) : Nat := segmentCount - (used.map Slot.count).sum

/-- Every run lies within segments 0 to 4095 (R154). -/
def runsInside (slots : List Slot) : Bool := (occupied slots).all (fun d => d.first + d.count ≤ segmentCount)

/-- A step that works on table memory: it stops with a fault where the directory names a run outside
the memory that exists (R154). -/
def liveTables (s : State) (f : State → State) : Host.Outcome State Fault Refusal :=
  if runsInside s.tab.slots then live s f else .fault .runOutsideTableMemory

/-- Segments not yet written (R159, R160). -/
def Slot.unwritten (d : Slot) : Nat := (d.written.filter (fun w => !w)).length

/-- The lowest unwritten segment (R160). -/
def Slot.lowestUnwritten (d : Slot) : Nat := (indexWhere (fun w => !w) d.written).getD 0

/-! ### Active tables (R166) -/

/-- The SEALED slot of a kind and key. -/
def findSealed (slots : List Slot) (k : TableKind) (key : Nat) : Option Nat :=
  indexWhere (fun d => d.state = .sealed && d.kind = k && d.key = key) slots

/-- The active selection of a kind (R163). -/
def State.selection (s : State) : TableKind → Nat
  | .wheelMap => s.seq.wheelCode
  | .keyMap => s.set.keyboard
  | .lexicon => s.set.language

/-- The slot of the active table of a kind (R166). -/
def State.active (s : State) (k : TableKind) : Option Nat := findSealed s.tab.slots k (s.selection k)

/-- The address of the first byte of the active table of a kind. -/
def State.activeBase (s : State) (k : TableKind) : Option Nat :=
  (s.active k).map (fun i => 16 * (slotAt s.tab.slots i).first)

/-! ### The wheel map (R1, R2, R3) -/

/-- A wheel map entry (R2). -/
inductive WheelEntry where
  | absent
  | petal (petal cls width : Nat) (nonAdvancing : Bool)
  | composite (a b : Byte) (width : Nat)
  deriving DecidableEq, Repr

/-- The space (R3). -/
def spaceCode : Byte := 0x20

/-- The offset of the entry for a code (section 12.7). -/
def wheelEntryOffset (code : Byte) : Nat := 32 + 4 * (code.toNat - 0x20)

/-- The entry for a code in the wheel map that starts at `base` (section 12.7). -/
def wheelEntryAt (m : Memory) (base : Nat) (code : Byte) : WheelEntry :=
  let x := base + wheelEntryOffset code
  let b := m.read x
  let b1 := m.read (x + 1)
  let b2 := m.read (x + 2)
  let b3 := m.read (x + 3)
  if b = 0x01 then .petal b1.toNat b2.toNat b3.toNat false
  else if b = 0x81 then .petal b1.toNat b2.toNat b3.toNat true
  else if b = 0x02 then .composite b1 b2 b3.toNat
  else .absent

/-- The entry for a code in the active wheel map; none when no wheel map is active. -/
def State.wheelEntry (s : State) (code : Byte) : Option WheelEntry :=
  (s.activeBase .wheelMap).map (fun b => wheelEntryAt s.tab.mem b code)

/-- The underscore code of the active wheel map (R1), 0 when it has none. -/
def State.underscoreCode (s : State) : Option Byte :=
  (s.activeBase .wheelMap).map (fun b => s.tab.mem.read (b + 1))

/-- The header space width of the active wheel map (R1). -/
def State.spaceWidth (s : State) : Option Nat :=
  (s.activeBase .wheelMap).map (fun b => (s.tab.mem.read (b + 2)).toNat)

/-- The three wheel conditions (R9). -/
inductive WheelCondition where
  | mismatch | noMap | ready
  deriving DecidableEq, Repr

/-- The wheel condition (R9), judged from the identified wheel code, EXPECTED_WHEEL and the directory. -/
def State.wheelCondition (s : State) : WheelCondition :=
  if s.set.expectedWheel ≠ 0 ∧ s.set.expectedWheel ≠ s.seq.wheelCode then .mismatch
  else if (s.active .wheelMap).isNone then .noMap
  else .ready

/-! ### The key map (R12, R15) -/

/-- The shift layers. -/
inductive Layer where
  | normal | shift | code
  deriving DecidableEq, Repr

def Layer.num : Layer → Nat
  | .normal => 0 | .shift => 1 | .code => 2

/-- The key map entry of two bytes (section 12.7). A sealed map holds no others (R13). -/
def keyEntryOf (b c : Byte) : KeyEntry :=
  if b = 0x01 then .char c false
  else if b = 0x41 then .char c true
  else if b = 0x02 then .dead c
  else if b = 0x03 then (match Func.ofNum c.toNat with | some f => .func f false | none => .none)
  else if b = 0x43 then (match Func.ofNum c.toNat with | some f => .func f true | none => .none)
  else .none

/-- The entry of a key in a layer of the key map that starts at `base` (section 12.7). -/
def keyEntryAt (m : Memory) (base : Nat) (l : Layer) (key : Nat) : KeyEntry :=
  let x := base + 2 * (96 * l.num + key)
  keyEntryOf (m.read x) (m.read (x + 1))

/-! ### The alphabet and the lexicon (R108, R118) -/

/-- The class of a code (R108). -/
inductive CharClass where
  | letter (index : Nat)
  | apostrophe
  | digit
  | other
  deriving DecidableEq, Repr

/-- The built-in alphabet (R108). -/
def builtInClass (code : Byte) : CharClass :=
  let n := code.toNat
  if 0x41 ≤ n ∧ n ≤ 0x5A then .letter (n - 0x40)
  else if 0x61 ≤ n ∧ n ≤ 0x7A then .letter (n - 0x60)
  else if n = 0x27 then .apostrophe
  else if 0x30 ≤ n ∧ n ≤ 0x39 then .digit
  else .other

/-- The class that a class byte of a lexicon gives (section 12.7). -/
def classOfByte (b : Byte) : CharClass :=
  if b = 0xFE then .apostrophe
  else if b = 0xFF then .digit
  else if 1 ≤ b.toNat ∧ b.toNat ≤ 40 then .letter b.toNat
  else .other

/-- The class of a code under the alphabet in force (R108). -/
def State.charClass (s : State) (code : Byte) : CharClass :=
  match s.activeBase .lexicon with
  | none => builtInClass code
  | some b => classOfByte (s.tab.mem.read (b + 16 + (code.toNat - 0x20)))

/-- Whether one word stands before another in a lexicon (R118): compared position by position, the
beginning of a longer word first. -/
def wordLt : List Nat → List Nat → Bool
  | [], [] => false
  | [], _ :: _ => true
  | _ :: _, [] => false
  | a :: l, b :: r => if a = b then wordLt l r else a < b

/-- The letters of a lexicon entry rebuilt from the entry before it (R118). -/
def rebuild (prev : List Nat) (share : Nat) (stored : List Nat) : List Nat := prev.take share ++ stored

/-- The lookup in a bucket (R119): entries read in turn until an equal or a greater one, or the bucket's
end. It gives whether the word was found and the microseconds its bytes took. -/
def scanBucket (m : Memory) (target : List Nat) : Nat → Nat → List Nat → Nat → Bool × Nat
  | 0, _, _, us => (false, us)
  | n + 1, x, prev, us =>
    let share := (m.read x).toNat
    let len := (m.read (x + 1)).toNat
    let word := rebuild prev share ((m.readBytes (x + 2) (len - share)).map BitVec.toNat)
    let us' := us + 2 + (len - share)
    if word = target then (true, us')
    else if wordLt target word then (false, us')
    else scanBucket m target n (x + 2 + (len - share)) word us'

/-- A place with nothing left to read. -/
def BucketPlace.atEnd : BucketPlace := ⟨0, 0, []⟩

/-- Where the lookup of a word starts in the lexicon at `base` (R118, R119): the first entry of its bucket, from the
index entry of the word's first letter. -/
def bucketStart (m : Memory) (base : Nat) (target : List Nat) : BucketPlace :=
  match target with
  | [] => .atEnd
  | i :: _ =>
    if i = 0 then .atEnd
    else
      let x := base + 240 + 4 * (i - 1)
      ⟨ofTwoBytes (m.read (x + 2)) (m.read (x + 3)), base + ofTwoBytes (m.read x) (m.read (x + 1)), []⟩

/-- The lookup of a word from a place in its bucket on (R119): 4 µs for the index entry, then the entries read. -/
def BucketPlace.scan (p : BucketPlace) (m : Memory) (target : List Nat) : Bool × Nat :=
  scanBucket m target p.unread p.next p.previous 4

/-- The lookup of a word in the lexicon that starts at `base` (R119). -/
def scanLexicon (m : Memory) (base : Nat) (target : List Nat) : Bool × Nat :=
  (bucketStart m base target).scan m target

/-! ### The table check and validation (R161, R5, R13, R122) -/

/-- One byte taken into the table check (R161): rotate left by one, then exclusive or. -/
def checkStep (c : Word) (b : Byte) : Word := (c.rotateLeft 1) ^^^ b.zeroExtend 16

/-- The table check of a run of bytes (R161). -/
def tableCheck (bytes : List Byte) : Word := bytes.foldl checkStep 0

/-- A byte of a table, none past its end. -/
def tableByte (m : Memory) (base n off : Nat) : Option Byte :=
  if off < n then some (m.read (base + off)) else none

/-- Whether a value lies in a range. -/
def inRange (lo hi : Nat) (b : Byte) : Bool := lo ≤ b.toNat && b.toNat ≤ hi

/-- One field of a table: its offset and whether it passes. -/
abbrev FieldCheck := Nat × Bool

/-- The offset of the first failing field within a table of `n` bytes, or `n` where the table is shorter
than `need` bytes (R5, R13: fields past the end are not judged). -/
def firstFailure (n need : Nat) : List FieldCheck → Option Nat
  | [] => if n < need then some n else none
  | (off, ok) :: l =>
    if off < n then (if ok then firstFailure n need l else some off) else firstFailure n need l

/-- Whether a code names an entry of kind PETAL (R5); an entry past the end is not judged. -/
def namesPetal (m : Memory) (base n : Nat) (code : Byte) : Bool :=
  inRange 0x21 0xFF code &&
    (match tableByte m base n (wheelEntryOffset code) with
      | none => true
      | some b => b = 0x01 || b = 0x81)

/-- The checks of one wheel map entry (R5). -/
def wheelEntryChecks (m : Memory) (base n : Nat) (code : Byte) : List FieldCheck :=
  let x := wheelEntryOffset code
  let b := m.read (base + x)
  let b1 := m.read (base + x + 1)
  let b2 := m.read (base + x + 2)
  let b3 := m.read (base + x + 3)
  let isPetal := b = 0x01 ∨ b = 0x81
  if isPetal then
    [(x, true), (x + 1, b1.toNat < 96), (x + 2, inRange 1 7 b2),
      (x + 3, inRange 4 30 b3 && (code ≠ spaceCode || b3 = m.read (base + 2)))]
  else if b = 0x02 then
    [(x, code ≠ spaceCode), (x + 1, namesPetal m base n b1), (x + 2, namesPetal m base n b2),
      (x + 3, inRange 4 30 b3)]
  else [(x, b = 0x00 && code ≠ spaceCode)]

/-- The validation of a wheel map of `n` bytes (R5): the offset of the first failing field, none when it
passes. -/
def validateWheelMap (m : Memory) (base n key : Nat) : Option Nat :=
  let u := m.read (base + 1)
  let header : List FieldCheck :=
    [(0, (m.read base).toNat = key), (1, u = 0 || namesPetal m base n u), (2, inRange 4 30 (m.read (base + 2)))]
  firstFailure n 928
    (header ++ (List.range 224).flatMap (fun i => wheelEntryChecks m base n (byteOf (0x20 + i))))

/-- The checks of one key map entry (R13). -/
def keyEntryChecks (m : Memory) (base i : Nat) : List FieldCheck :=
  let x := 2 * i
  let b := m.read (base + x)
  let c := m.read (base + x + 1)
  if b = 0x00 then [(x, true)]
  else if b = 0x01 ∨ b = 0x41 then [(x, true), (x + 1, inRange 0x20 0xFF c)]
  else if b = 0x02 then [(x, true), (x + 1, inRange 0x21 0xFF c)]
  else if b = 0x03 ∨ b = 0x43 then [(x, true), (x + 1, (Func.ofNum c.toNat).isSome)]
  else [(x, false)]

/-- Whether some key has a function in the NORMAL layer (R13). -/
def hasNormalFunc (m : Memory) (base : Nat) (f : Func) : Bool :=
  (List.range 96).any (fun k =>
    match keyEntryAt m base .normal k with
    | .func g _ => g = f
    | _ => false)

/-- The validation of a key map of `n` bytes (R13). -/
def validateKeyMap (m : Memory) (base n : Nat) : Option Nat :=
  match firstFailure n 576 ((List.range 288).flatMap (keyEntryChecks m base)) with
  | some off => some off
  | none => if hasNormalFunc m base .shift && hasNormalFunc m base .returnKey then none else some 576

/-- Whether a class byte is legal in a lexicon header (R122). -/
def legalClass (b : Byte) : Bool := b.toNat ≤ 40 || b = 0xFE || b = 0xFF

/-- The header checks of a lexicon (R122). -/
def lexiconHeaderChecks (m : Memory) (base key : Nat) : List FieldCheck :=
  (0, (m.read base).toNat = key) :: (16, m.read (base + 16) = 0) ::
    (List.range 223).map (fun i => (17 + i, legalClass (m.read (base + 17 + i))))

/-- The offset of a bucket (section 12.7), letters counted from 1. -/
def bucketOffset (m : Memory) (base letter : Nat) : Nat :=
  ofTwoBytes (m.read (base + 240 + 4 * (letter - 1))) (m.read (base + 241 + 4 * (letter - 1)))

/-- The count of a bucket (section 12.7). -/
def bucketCount (m : Memory) (base letter : Nat) : Nat :=
  ofTwoBytes (m.read (base + 242 + 4 * (letter - 1))) (m.read (base + 243 + 4 * (letter - 1)))

/-- The bucket index checks of a lexicon of `n` bytes (R122): offsets do not decrease, and each bucket lies within the
table. That an empty bucket may have the end of the table for its offset is the model's choice (log entry 69). -/
def lexiconIndexChecks (m : Memory) (base n : Nat) : List FieldCheck :=
  (List.range 40).map (fun i =>
    let off := bucketOffset m base (i + 1)
    (240 + 4 * i,
      (i = 0 || bucketOffset m base i ≤ off) && off ≤ n && (bucketCount m base (i + 1) = 0 || off < n)))

/-- Where a bucket's entries must have ended (R122): the offset of the next bucket that holds entries,
or the end of the table. -/
def bucketLimit (m : Memory) (base n letter : Nat) : Nat :=
  match ((List.range 40).map (· + 1)).find? (fun j => letter < j && bucketCount m base j ≠ 0) with
  | some j => bucketOffset m base j
  | none => n

/-- The offset of the first letter above 40 among stored letters (R122). -/
def badLetter (m : Memory) (base : Nat) : Nat → Nat → Option Nat
  | 0, _ => none
  | k + 1, x => if (m.read (base + x)).toNat ≤ 40 then badLetter m base k (x + 1) else some x

/-- The validation of a bucket's entries (R122), from offset `x` on after the entry `prev`. Within an entry the checks are
taken in the order of R122's list, so that a letter above 40 is answered before a wrong first letter that stands before
it: the model's choice (log entry 42). -/
def validateEntries (m : Memory) (base limit letter : Nat) : Nat → Nat → Option (List Nat) → Option Nat
  | 0, _, _ => none
  | n + 1, x, prev =>
    let share := (m.read (base + x)).toNat
    let len := (m.read (base + x + 1)).toNat
    let before := prev.getD []
    if limit ≤ x then some x
    else if before.length < share then some x
    else if limit ≤ x + 1 then some (x + 1)
    else if len = 0 ∨ 24 < len ∨ len < share then some (x + 1)
    else if limit < x + 2 + (len - share) then some (x + 2)
    else
      match badLetter m base (len - share) (x + 2) with
      | some off => some off
      | none =>
        let word := rebuild before share ((m.readBytes (base + x + 2) (len - share)).map BitVec.toNat)
        if word.head? ≠ some letter then some (x + 2)
        else if prev.isSome && !wordLt before word then some x
        else validateEntries m base limit letter n (x + 2 + (len - share)) (some word)

/-- The validation of the buckets from a list of letters (R122). -/
def validateBuckets (m : Memory) (base n : Nat) : List Nat → Option Nat
  | [] => none
  | l :: ls =>
    match validateEntries m base (bucketLimit m base n l) l (bucketCount m base l) (bucketOffset m base l) none with
    | some off => some off
    | none => validateBuckets m base n ls

/-- The validation of a lexicon of `n` bytes (R122): length, header, bucket index, entries. -/
def validateLexicon (m : Memory) (base n key : Nat) : Option Nat :=
  if n < 400 then some n
  else
    match firstFailure n 400 (lexiconHeaderChecks m base key ++ lexiconIndexChecks m base n) with
    | some off => some off
    | none => validateBuckets m base n ((List.range 40).map (· + 1))

/-- The validation of a table for its kind (R161). -/
def validateTable (m : Memory) (d : Slot) : Option Nat :=
  match d.kind with
  | .wheelMap => validateWheelMap m (16 * d.first) (16 * d.count) d.key
  | .keyMap => validateKeyMap m (16 * d.first) (16 * d.count)
  | .lexicon => validateLexicon m (16 * d.first) (16 * d.count) d.key

/-- The bytes of a slot's run. -/
def slotBytes (m : Memory) (d : Slot) : List Byte := m.readBytes (16 * d.first) (16 * d.count)

/-- The table check of a slot, computed on from the progress of a seal (R160, R161). -/
def Seal.tableCheck (e : Seal) (m : Memory) (d : Slot) : Word :=
  ((slotBytes m d).drop e.progress).foldl checkStep e.figure

end Sys2Proof.Machine
end

