-- ==== Sys2Proof/Machine/Layout.lean ====
section
/-! DEFINITION. The Layout Unit (chapter 3): advances, strike sets, the natural layout of a composition,
justification, the released line, and the hammer level and pulse. It keeps no state of its own. -/

namespace Sys2Proof.Machine

/-! ### Advances and reference widths (R48, R49) -/

/-- The advance of a fixed pitch (R29); none in PS. -/
def Pitch.advance : Pitch → Option Nat
  | .p10 => some 12
  | .p12 => some 10
  | .p15 => some 8
  | .ps => none

/-- The held advance of a character (R48), from the pitch in force, its entry in the active wheel map
(none without one) and the header space width. A DEAD character has advance 0 also where there is no active wheel
map, although R30 and another row of R48 give every character the pitch advance then (log entry 50). -/
def heldAdvance (pitch : Pitch) (entry : Option WheelEntry) (spaceWidth : Nat) (isDead : Bool) (code : Byte) :
    Nat :=
  if isDead then 0
  else if code = spaceCode then pitch.advance.getD spaceWidth
  else
    match entry with
    | some (.petal _ _ _ true) => 0
    | some (.petal _ _ w false) => pitch.advance.getD w
    | some (.composite _ _ w) => pitch.advance.getD w
    | some .absent => pitch.advance.getD spaceWidth
    | none => pitch.advance.getD 0

/-- The underscore code while underlining is available (R49). -/
def State.underlining (s : State) : Option Byte :=
  match s.underscoreCode with
  | some c => if c = 0 then none else some c
  | none => none

/-- The PS width of a wheel map entry, taken as it stands (R49). -/
def WheelEntry.psWidth : WheelEntry → Nat
  | .petal _ _ w _ => w
  | .composite _ _ w => w
  | .absent => 0

/-- The underscore width u (R49). -/
def State.underscoreWidth (s : State) : Nat :=
  match s.comp.pitch.advance with
  | some a => a
  | none =>
    match s.underlining with
    | some c => ((s.wheelEntry c).map WheelEntry.psWidth).getD 0
    | none => 0

/-! ### Strike sets (R50 to R54) -/

/-- The printing strikes of a character at `p` (R50). -/
def printingStrikes (entry : Option WheelEntry) (code : Byte) (isSpace : Bool) (p : Nat) : List Strike :=
  if isSpace then []
  else
    match entry with
    | some (.composite a b _) => [⟨.part, a, p⟩, ⟨.part, b, p⟩]
    | _ => [⟨.base, code, p⟩]

/-- The shadow strikes of printing strikes (R51). -/
def shadowStrikes (bold : Bool) (printing : List Strike) : List Strike :=
  if bold then printing.map (fun k => ⟨.shadow, k.code, k.pos + 1⟩) else []

/-- The positions of the underscore strikes along an advance `a` from `p` (R52). -/
def underscorePositions (p a u : Nat) : List Nat :=
  if a = 0 then []
  else if a ≤ u then [p]
  else (List.range (ceilDiv a u - 1)).map (fun i => p + i * u) ++ [p + a - u]

/-- The underscore strikes of a character or space that gains them (R52). -/
def State.underscoreStrikes (s : State) (gains : Bool) (p a : Nat) : List Strike :=
  match gains, s.underlining with
  | true, some c => (underscorePositions p a s.underscoreWidth).map (fun x => ⟨.underscore, c, x⟩)
  | _, _ => []

/-- The strike set of a character at `p` with final advance `a` (R50 to R53), before the strikes beyond
the carriage travel are dropped. `gains` says whether it gains underscores. -/
def State.strikeSet (s : State) (code : Byte) (isSpace bold gains : Bool) (p a : Nat) : List Strike :=
  let printing := printingStrikes (s.wheelEntry code) code isSpace p
  printing ++ shadowStrikes bold printing ++ s.underscoreStrikes gains p a

/-- The last position of the carriage travel. -/
def lastPosition : Nat := 1559

/-- The strikes of a set within the carriage travel (R54). -/
def inTravel (l : List Strike) : List Strike := l.filter (fun k => k.pos ≤ lastPosition)

/-- The number of strikes of a set beyond the carriage travel (R54). -/
def pastTravel (l : List Strike) : Nat := (l.filter (fun k => !(k.pos ≤ lastPosition))).length

/-! ### The natural layout (R56 to R58) -/

/-- The smallest stop above a position and not above the right margin (R46). -/
def nextStop (tabs : List TabStop) (x r : Nat) : Option TabStop :=
  tabs.foldl (fun best t =>
    if x < t.pos ∧ t.pos ≤ r then
      (match best with
        | none => some t
        | some b => if t.pos < b.pos then some t else some b)
    else best) none

/-- The code of DECIMAL_CHAR. -/
def decimalCode (comma : Bool) : Byte := if comma then 0x2C else 0x2E

/-- The records of the decimal segment that follows a TAB (R57). -/
def decimalSegment (rest : List CompRec) : List CompRec :=
  rest.takeWhile (fun c => c.kind ≠ .tab && c.kind ≠ .space)

/-- The sum of held advances. -/
def advSum (l : List CompRec) : Nat := (l.map CompRec.adv).sum

/-- The width w of a decimal segment before its decimal character (R57). -/
def decimalWidth (dec : Byte) (seg : List CompRec) : Nat :=
  advSum (seg.takeWhile (fun c => !(c.kind = .char && c.code = dec)))

/-- Where a decimal segment starts (R57). -/
def decimalStart (t w x : Nat) : Nat := if x + w ≤ t then t - w else x

/-- The natural layout from a running position (R56): the position and the end of each record, none when
a TAB finds no stop. -/
def naturalFrom (tabs : List TabStop) (dec : Byte) (r : Nat) : Nat → List CompRec → Option (List (Nat × Nat))
  | _, [] => some []
  | x, c :: rest =>
    if c.kind = .tab then
      match nextStop tabs x r with
      | none => none
      | some t =>
        let y := if t.decimal then decimalStart t.pos (decimalWidth dec (decimalSegment rest)) x else t.pos
        (naturalFrom tabs dec r y rest).map ((x, y) :: ·)
    else (naturalFrom tabs dec r (x + c.adv) rest).map ((x, x + c.adv) :: ·)

/-- The natural layout of records in the margins and tab stops in force (R56). -/
def State.natural (s : State) (recs : List CompRec) : Option (List (Nat × Nat)) :=
  naturalFrom s.comp.tabs (decimalCode s.set.decimalComma) s.comp.right s.comp.left recs

/-- The natural width W of records laid out (R58). -/
def naturalWidth (left : Nat) (recs : List CompRec) (places : List (Nat × Nat)) : Nat :=
  match lastWhere (fun (c, _) => c.kind ≠ RecKind.space) (recs.zip places) with
  | some (_, (_, e)) => e - left
  | none => 0

/-- The line length L (R58). -/
def State.lineLength (s : State) : Nat := s.comp.right - s.comp.left

/-- The cursor position (R22): where the record at the cursor is placed, or the running position after the
last record. SPACE records at the end may take it past 1560, and it has no bound: the model's choice (log entry 74). -/
def State.cursorPosition (s : State) : Nat :=
  match s.natural s.comp.recs with
  | none => s.comp.left
  | some places =>
    match places[s.comp.cursor]? with
    | some (p, _) => p
    | none => (places.getLast?.map Prod.snd).getD s.comp.left

/-- Whether records keep the tab guard and the width limit (R44, R58). -/
def State.fits (s : State) (recs : List CompRec) : Bool :=
  match s.natural recs with
  | none => false
  | some places => naturalWidth s.comp.left recs places ≤ s.lineLength

/-! ### Laying out a released line (R59 to R62) -/

/-- The indices of the stretchable spaces (R60). -/
def stretchable (recs : List CompRec) : List Nat :=
  let start :=
    match lastIndexWhere (fun c => c.kind = RecKind.tab) recs with
    | some i => i + 1
    | none => (recs.takeWhile (fun c => c.kind = RecKind.space)).length
  let stop := (lastIndexWhere (fun c => c.kind ≠ RecKind.space) recs).getD 0
  (List.range recs.length).filter (fun i =>
    start ≤ i && i < stop && (match recs[i]? with | some c => c.kind = RecKind.space | none => false))

/-- The projected paper position (R61). -/
def projectPaper (page : Nat) : Nat → List Order → Nat
  | v, [] => v
  | v, .index c :: l => projectPaper page (((v : Int) + c) % (page : Int)).toNat l
  | _, .indexPage :: l => projectPaper page 0 l
  | v, _ :: l => projectPaper page v l

/-- The length of a page in half-lines (R81). -/
def State.pageHalfLines (s : State) : Nat := 2 * s.set.pageLength

/-- Whether a line released now prints as an even line (R61). -/
def State.evenLine (s : State) : Bool :=
  projectPaper s.pageHalfLines s.seq.paperPos s.seq.queue / 2 % 2 = 0

/-- The stretch of the `j`th of `n` stretchable spaces (R61). -/
def stretchOf (even : Bool) (n extra j : Nat) : Nat :=
  extra / n + (if even then (if j < extra % n then 1 else 0) else (if n - extra % n ≤ j then 1 else 0))

/-- The stretch that each record receives under justification (R61), 0 for a record that is not
stretchable. -/
def stretches (even : Bool) (recs : List CompRec) (extra : Nat) : List Nat :=
  let sp := stretchable recs
  (List.range recs.length).map (fun i =>
    match indexWhere (fun j => j = i) sp with
    | some j => stretchOf even sp.length extra j
    | none => 0)

/-- Positions and final advances when records are shifted by the stretch before them (R61). -/
def applyStretch : Nat → List (CompRec × (Nat × Nat)) → List Nat → List (CompRec × Nat × Nat)
  | _, [], _ => []
  | acc, (c, (p, _)) :: l, st =>
    let here := st.headD 0
    (c, p + acc, c.adv + here) :: applyStretch (acc + here) l st.tail

/-- The result of applying the justify choice (R59, step 2): positions and final advances, and n and E
where justification was abandoned (R60). -/
structure LaidOut where
  placed    : List (CompRec × Nat × Nat)
  abandoned : Option (Nat × Int)

/-- The justify choice applied to records laid out naturally (R59 to R62). -/
def State.applyChoice (s : State) (choice : Justify) (recs : List CompRec) (places : List (Nat × Nat)) : LaidOut :=
  let natural := (recs.zip places).map (fun (c, (p, _)) => (c, p, c.adv))
  let extra := s.lineLength - naturalWidth s.comp.left recs places
  let hasTab := recs.any (fun c => c.kind = .tab)
  match choice with
  | .ragged => ⟨natural, none⟩
  | .justify =>
    let sp := stretchable recs
    let width := ((sp.filterMap (recs[·]?)).map CompRec.adv).sum
    if sp.length = 0 ∨ 2 * width < extra then ⟨natural, some (sp.length, (extra : Int))⟩
    else ⟨applyStretch 0 (recs.zip places) (stretches s.evenLine recs extra), none⟩
  | .center =>
    if hasTab then ⟨natural, none⟩ else ⟨natural.map (fun (c, p, a) => (c, p + extra / 2, a)), none⟩
  | .flushRight =>
    if hasTab then ⟨natural, none⟩ else ⟨natural.map (fun (c, p, a) => (c, p + extra, a)), none⟩

/-- Whether a record counts as underlined for the spaces beside it (R53). -/
def CompRec.underlinedText (c : CompRec) : Bool := (c.kind = .char || c.kind = .dead) && c.underline

/-- Whether the record at an index gains underscores in LINE (R52, R53). -/
def gainsInLine (recs : List CompRec) (i : Nat) : Bool :=
  match recs[i]? with
  | none => false
  | some c =>
    match c.kind with
    | .tab => false
    | .char => c.underline
    | .dead => c.underline
    | .space =>
      c.underline
        && (match lastWhere (fun d => d.kind ≠ RecKind.space) (recs.take i) with
            | some d => d.underlinedText | none => false)
        && (match (recs.drop (i + 1)).find? (fun d => d.kind ≠ RecKind.space) with
            | some d => d.underlinedText | none => false)

/-- The strike set of a record at its final place (R59, step 3). -/
def State.recStrikes (s : State) (recs : List CompRec) (i : Nat) (c : CompRec) (p a : Nat) : List Strike :=
  if c.kind = .tab then []
  else s.strikeSet c.code (c.kind = .space) (c.bold && c.kind ≠ .space) (gainsInLine recs i) p a

/-- The placements of laid-out records (R59), counted from index `i`. -/
def State.placementsFrom (s : State) (recs : List CompRec) : Nat → List (CompRec × Nat × Nat) → List Placement
  | _, [] => []
  | i, (c, p, a) :: l => ⟨c.kind, c.code, p, a, s.recStrikes recs i c p a⟩ :: s.placementsFrom recs (i + 1) l

/-! ### Hammer level and pulse (R63, R64) -/

/-- The base level of an impact class (R63). -/
def baseLevel : Nat → Nat
  | 1 => 2 | 2 => 4 | 3 => 5 | 4 => 6 | 5 => 8 | 6 => 9 | 7 => 11
  | _ => 0

/-- The impression adjustment (R63). -/
def Impression.adjust : Impression → Int
  | .light => -1 | .normal => 0 | .heavy => 2

/-- The ribbon adjustment (R63). -/
def Ribbon.adjust : Ribbon → Int
  | .film => 0 | .fabric => 1

/-- A level clamped to 1 to 15 (R63). -/
def clampLevel (i : Int) : Nat := (max 1 (min 15 i)).toNat

/-- The hammer level of a strike of an impact class (R63). -/
def hammerLevel (cls : Nat) (i : Impression) (r : Ribbon) : Nat :=
  clampLevel ((baseLevel cls : Int) + i.adjust + r.adjust)

/-- The level of a LIFT (R64). -/
def liftLevel (recorded offset : Nat) : Nat := min 15 (recorded + offset)

/-- The duration of a hammer pulse in microseconds (R64). -/
def pulseMicros (level : Nat) : Nat := 200 + 25 * level

end Sys2Proof.Machine
end

