-- ==== Sys2Proof/Machine/Display.lean ====
section
/-! DEFINITION. The Display Unit (chapter 7): the display items, the window, the image and when it is
offered; and the derived state of a line record entry (R92), which the display reads. -/

namespace Sys2Proof.Machine

/-! ### Entry states (R92) -/

/-- The states of an entry (R92). -/
inductive EntryState where
  | queued | inFlight | inked | lifting
  deriving DecidableEq, Repr

def EntryState.num : EntryState → Nat
  | .queued => 0 | .inFlight => 1 | .inked => 2 | .lifting => 3

/-- Whether a strike record is PRINTED (R91). -/
def StrikeRec.printed (k : StrikeRec) : Bool :=
  match k.status with
  | .printed _ _ _ => true
  | _ => false

/-- The ink strikes of an entry (R92): its BASE and PART strikes, or, with neither, its UNDERSCOREs. -/
def Entry.inkStrikes (e : Entry) : List StrikeRec :=
  let main := e.strikes.filter (fun k => k.role = .base || k.role = .part)
  if main.isEmpty then e.strikes.filter (fun k => k.role = .underscore) else main

/-- The derived state of an entry (R92). -/
def Entry.state (e : Entry) : EntryState :=
  if e.outstanding ≠ 0 then .lifting
  else if e.strikes.any (fun k => k.status = .inFlight) then .inFlight
  else if e.strikes.isEmpty || e.inkStrikes.any StrikeRec.printed then .inked
  else .queued

/-- The entries that are not LIFTING (R131), in typing order. -/
def LineRecord.shown (l : LineRecord) : List Entry := l.entries.filter (fun e => e.state ≠ .lifting)

/-! ### Mode in effect (R24) -/

/-- The mode in effect (R24). -/
def Composer.modeInEffect (c : Composer) : Mode :=
  match c.source with
  | .remoteText => .direct
  | .localKeys => c.mode

/-! ### Cells (R131, R132) -/

/-- A display item: what its cell shows, and the number that names it in a word's span. -/
structure DisplayItem where
  code      : Byte
  underline : Bool
  bold      : Bool
  id        : Nat

/-- The code a cell shows for a composition record (R131). -/
def CompRec.cellCode (c : CompRec) : Byte :=
  match c.kind with
  | .char => c.code
  | .dead => c.code
  | .space => 0x20
  | .tab => 0x09

/-- Whether the cell of a record shows UNDERLINE in LINE (R132). -/
def cellUnderlineInLine (recs : List CompRec) (i : Nat) : Bool := gainsInLine recs i

/-- The display items of the composition buffer (R131). -/
def compItems (recs : List CompRec) : List DisplayItem :=
  recs.zipIdx.map (fun (c, i) =>
    ⟨c.cellCode, cellUnderlineInLine recs i, c.bold && (c.kind = .char || c.kind = .dead), i⟩)

/-- The display item of a line record entry (R131, R132). -/
def Entry.item (e : Entry) : DisplayItem :=
  ⟨if e.kind = .space then 0x20 else e.code, e.strikes.any (fun k => k.role = .underscore),
    e.strikes.any (fun k => k.role = .shadow), e.seqNum.toNat⟩

/-- The display items of the mode in effect (R131). -/
def State.displayItems (s : State) : List DisplayItem :=
  match s.comp.modeInEffect with
  | .line => compItems s.comp.recs
  | .direct => s.line.shown.map Entry.item

/-- The number of display items (R131). -/
def State.itemCount (s : State) : Nat :=
  match s.comp.modeInEffect with
  | .line => s.comp.recs.length
  | .direct => s.line.shown.length

/-- The cursor index c (R131). -/
def State.cursorIndex (s : State) : Nat :=
  match s.comp.modeInEffect with
  | .line => s.comp.cursor
  | .direct => s.line.shown.length

/-- Whether the item at an index lies in the span of a MISS word (R132). -/
def missAt (words : List SpellWord) (items : List DisplayItem) (i : Nat) : Bool :=
  words.any (fun w =>
    w.verdict = .miss && !w.detached &&
      (match indexWhere (fun d : DisplayItem => d.id = w.first) items, indexWhere (fun d : DisplayItem => d.id = w.last) items with
        | some a, some b => a ≤ i && i ≤ b
        | _, _ => false))

/-- The cell that shows item `i` (R131, R132). -/
def State.cellAt (s : State) (items : List DisplayItem) (i : Nat) : Cell :=
  match items[i]? with
  | some d => ⟨d.code, d.underline, d.bold, missAt s.spell.words items i, i = s.cursorIndex⟩
  | none => Cell.blank (i = s.cursorIndex)

/-! ### Status (R134, R135) -/

/-- The mode field (R134). -/
def State.modeField (s : State) : ModeField :=
  match s.comp.source, s.comp.mode with
  | .remoteText, _ => .r
  | .localKeys, .direct => .d
  | .localKeys, .line => .l

/-- The justify field (R134). -/
def State.justifyField (s : State) : Justify :=
  match s.comp.modeInEffect with
  | .line => s.comp.choice
  | .direct => s.set.justify

/-- The spelling field (R134). -/
def State.spellField (s : State) : SpellField :=
  if s.set.spell then (if (s.active .lexicon).isSome then .on else .noLexicon) else .off

/-- The column (R134). -/
def State.column (s : State) : Nat := s.comp.logical / (s.comp.pitch.advance.getD 12) + 1

/-- The fault flag (R135). -/
def State.faultFlag (s : State) : Bool := s.seq.state = .halted || s.drv.faults.any FaultRec.isPresent

/-- The image of the state (R130 to R135). -/
def State.image (s : State) : Image :=
  let items := s.displayItems
  { cells := (List.range 40).map (fun i => s.cellAt items (s.disp.window + i))
    mode := s.modeField
    pitch := s.comp.pitch
    justify := s.justifyField
    spelling := s.spellField
    column := s.column
    hotZone := s.comp.flags.hotZone
    marginRelease := s.comp.modeInEffect = .direct && s.comp.flags.marginReleased
    paused := s.seq.state = .paused
    fault := s.faultFlag
    wheelWait := s.seq.state = .wheelWait }

/-- Form a new current image and offer it (R136): it waits in the slot while it differs from the image
last sent. While DISPLAY is OFF no image is formed and the slot stays empty (R137). -/
def State.formImage (s : State) : State :=
  if s.set.display then
    let im := s.image
    { s with disp := { s.disp with
        current := some im, slot := if s.disp.lastSent = some im then none else some im } }
  else s

/-- The image started afresh, as at RESTART LINK and DISPLAY OFF to ON (R137). -/
def State.freshImage (s : State) : State :=
  State.formImage { s with disp := { s.disp with lastSent := none, slot := none } }

/-! ### The window (R133) -/

/-- The window start after a change of the cursor index (R133). -/
def windowFor (w c : Nat) : Nat :=
  if w + 35 < c then w + 8 * ceilDiv (c - w - 35) 8
  else if c < w + 4 ∧ 0 < w then w - 8 * ceilDiv (w + 4 - c) 8
  else w

/-- Apply the window tests (R133). -/
def State.moveWindow (s : State) : State :=
  { s with disp := { s.disp with window := windowFor s.disp.window s.cursorIndex } }

end Sys2Proof.Machine
end

