-- ==== Sys2Proof/Machine/Spelling.lean ====
section
/-! DEFINITION. The Spelling Unit (chapter 6): the word text and its segmentation, the word table, the
checks and the check queue, the lookup engine, the recheck sweep, changes of the active lexicon, the user
word list and the ends of lines. -/

namespace Sys2Proof.Machine

/-! ### The word text (R109) -/

/-- The role of an item of the word text (R109). -/
inductive ItemRole where
  | letter (index : Nat)
  | apostrophe
  | digit
  | boundary
  | transparent
  deriving DecidableEq, Repr

/-- An item of the word text: its number (sequence number in DIRECT, record index in LINE), its role and
its word reference. -/
structure WordItem where
  id   : Nat
  role : ItemRole
  ref  : Option Word

/-- The role of a CHAR of a class (R109). -/
def CharClass.role : CharClass → ItemRole
  | .letter i => .letter i
  | .apostrophe => .apostrophe
  | .digit => .digit
  | .other => .boundary

/-- The item of a line record entry (R109). -/
def State.entryItem (s : State) (e : Entry) : WordItem :=
  ⟨e.seqNum.toNat,
    (match e.kind with
      | .char => (s.charClass e.code).role
      | .space => .boundary
      | .dead => .transparent),
    e.word⟩

/-- The item of a composition record (R109). -/
def State.recItem (s : State) (c : CompRec) (i : Nat) : WordItem :=
  ⟨i,
    (match c.kind with
      | .char => (s.charClass c.code).role
      | .space => .boundary
      | .tab => .boundary
      | .dead => .transparent),
    c.word⟩

/-- The word text of the mode in effect (R109): a break mark is a boundary after its entry. -/
def State.wordText (s : State) : List WordItem :=
  match s.comp.modeInEffect with
  | .line => s.comp.recs.zipIdx.map (fun (c, i) => s.recItem c i)
  | .direct =>
    s.line.shown.flatMap (fun e =>
      if s.spell.marks.contains e.seqNum then [s.entryItem e, ⟨e.seqNum.toNat, .boundary, none⟩]
      else [s.entryItem e])

/-! ### Segmentation (R110) -/

/-- A word formed from the word text (R110): its items, and whether it is complete. -/
structure Segment where
  items    : List WordItem
  complete : Bool

/-- The letter that an item folds to (R108). -/
def WordItem.folded (i : WordItem) : Option Nat :=
  match i.role with
  | .letter n => some n
  | .apostrophe => some 0
  | _ => none

/-- Whether an item is an APOSTROPHE. -/
def WordItem.isApostrophe (i : WordItem) : Bool := i.role = .apostrophe

/-- A run with its leading and trailing APOSTROPHE items stripped (R110). -/
def stripRun (run : List WordItem) : List WordItem :=
  ((run.dropWhile WordItem.isApostrophe).reverse.dropWhile WordItem.isApostrophe).reverse

/-- The word of a run, if it forms one (R110). A run with only apostrophes strips to nothing. -/
def segmentOf (run : List WordItem) (complete : Bool) : List Segment :=
  match stripRun run with
  | [] => []
  | items => [⟨items, complete⟩]

/-- Segmentation (R110), with the run so far (newest first) and whether a boundary stands before it.
`cut` says that the line record has dropped entries: then a first run with no boundary before it forms
no word. -/
def segmentFrom (cut : Bool) : List WordItem → List WordItem → Bool → List Segment
  | [], run, b => if cut && !b then [] else segmentOf run.reverse false
  | i :: is, run, b =>
    match i.role with
    | .transparent => segmentFrom cut is run b
    | .boundary => (if cut && !b then [] else segmentOf run.reverse true) ++ segmentFrom cut is [] true
    | _ => segmentFrom cut is (i :: run) b

/-- Whether the first run may be the remains of a dropped word (R110). -/
def State.cutLine (s : State) : Bool := s.comp.modeInEffect = .direct && 0 < s.line.dropped

/-- The words of the word text (R110). -/
def State.segments (s : State) : List Segment := segmentFrom s.cutLine s.wordText [] false

/-- The folded letters of a word (R108). -/
def Segment.letters (g : Segment) : List Nat := g.items.filterMap WordItem.folded

/-- Whether a word holds a DIGIT (R110). -/
def Segment.digit (g : Segment) : Bool := g.items.any (fun i => i.role = .digit)

/-- The first item of a span. -/
def Segment.first (g : Segment) : Nat := (g.items.head?.map WordItem.id).getD 0

/-- The last item of a span. -/
def Segment.last (g : Segment) : Nat := (g.items.getLast?.map WordItem.id).getD 0

/-! ### The word table (R111, R115) -/

/-- The most records of the word table (R111). -/
def wordPlaces : Nat := 64

/-- The most letters a record keeps (R111). -/
def wordLetters : Nat := 24

/-- A record by its number. -/
def findWord (words : List SpellWord) (n : Word) : Option SpellWord := words.find? (fun w => w.num = n)

/-- A record changed. -/
def changeWord (words : List SpellWord) (n : Word) (f : SpellWord → SpellWord) : List SpellWord :=
  words.map (fun w => if w.num = n then f w else w)

/-- Whether a verdict is final (R111). -/
def Verdict.final : Verdict → Bool
  | .unchecked => false
  | .pending => false
  | _ => true

/-- The first record at or after a number, in age order, that passes a test: where the sweep position goes
when records are removed (R125). -/
def nextKept (keep : SpellWord → Bool) (n : Word) : List SpellWord → Option Word
  | [] => none
  | w :: l => if w.num = n then ((w :: l).find? keep).map SpellWord.num else nextKept keep n l

/-- Keep the records that pass a test: a removed record's queue entry goes with it (R112) and the sweep
position moves to the next newer record (R125). -/
def Spelling.keepWords (p : Spelling) (keep : SpellWord → Bool) : Spelling :=
  let words := p.words.filter keep
  { p with
    words := words
    checkq := p.checkq.filter (fun (n, _) => words.any (fun w => w.num = n))
    sweep := p.sweep.bind (fun n => nextKept keep n p.words)
    requested := p.requested.filter (fun n => words.any (fun w => w.num = n)) }

/-- The record that gives way when a new one is needed and the table is full (R115). -/
def evictee (words : List SpellWord) : Option Word :=
  match words.find? (fun w => w.verdict.final) with
  | some w => some w.num
  | none =>
    match words.find? (fun w => w.verdict = .pending) with
    | some w => some w.num
    | none => words.head?.map SpellWord.num

/-- The record that a new one takes the place of, none while there is room (R115). -/
def Spelling.givesWay (p : Spelling) : Option Word :=
  if p.words.length < wordPlaces then none else evictee p.words

/-- Make room for a new record (R115). -/
def Spelling.makeRoom (p : Spelling) : Spelling :=
  match p.givesWay with
  | some n => p.keepWords (fun w => w.num ≠ n)
  | none => p

/-- Give up a word's queue place (R112). -/
def Spelling.giveUp (p : Spelling) (n : Word) : Spelling :=
  { p with checkq := p.checkq.filter (fun (m, _) => m ≠ n) }

/-! ### Matching (R112) -/

/-- A matching pass: the Spelling Unit, the records taken so far, those that have given way in it (R115), the
words to check afterwards, and the items of each word matched. -/
structure MatchPass where
  spell   : Spelling
  taken   : List Word
  evicted : List Word
  toCheck : List Word
  refs    : List (Word × List Nat)

/-- The record that a word takes over (R112): the one referenced by its first item whose reference names
a record not yet taken. -/
def recordFor (m : MatchPass) (items : List WordItem) : Option Word :=
  items.findSome? (fun i =>
    match i.ref with
    | none => none
    | some n =>
      if m.spell.words.any (fun w => w.num = n && !w.detached) && !m.taken.contains n then some n else none)

/-- Whether a word holds items of a record that has given way in this pass (R115): they form a word again at the
next pass only (log entry 55). -/
def formsNextPass (m : MatchPass) (items : List WordItem) : Bool :=
  items.any (fun i =>
    match i.ref with
    | none => false
    | some n => m.evicted.contains n)

/-- A new record for a word (R112). A run of DIGIT items alone has no folded letters and so length 0, where R111
gives 1 to 200 (log entry 53). -/
def newWord (n : Word) (g : Segment) : SpellWord where
  num := n
  first := g.first
  last := g.last
  letters := g.letters.take wordLetters
  length := g.letters.length
  digit := g.digit
  verdict := .unchecked
  gen := 0
  complete := g.complete
  detached := false

/-- Whether a word's letters or digit differ from its record's (R112). -/
def lettersDiffer (w : SpellWord) (g : Segment) : Bool :=
  w.letters ≠ g.letters.take wordLetters || w.length ≠ g.letters.length || w.digit ≠ g.digit

/-- A record compared with the word that takes it over (R112). -/
def compareWord (w : SpellWord) (g : Segment) : SpellWord :=
  let w' := { w with first := g.first, last := g.last, complete := g.complete }
  if lettersDiffer w g then
    { w' with letters := g.letters.take wordLetters, length := g.letters.length, digit := g.digit
              gen := w.gen + 1, verdict := .unchecked }
  else if w.complete && !g.complete then { w' with gen := w.gen + 1, verdict := .unchecked }
  else w'

/-- Whether the comparison takes back the verdict, and with it the queue place (R112). -/
def reopens (w : SpellWord) (g : Segment) : Bool := lettersDiffer w g || (w.complete && !g.complete)

/-- A word as its record has it: the last word stays complete by a release request while its letters stand
(R110, R113, log entry 22). -/
def Segment.keptComplete (p : Spelling) (w : SpellWord) (g : Segment) : Segment :=
  if p.requested = some w.num ∧ !lettersDiffer w g then { g with complete := true } else g

/-- A release request completes the last word no longer once a boundary does, or once its letters change
(log entry 22). -/
def Spelling.endRequest (p : Spelling) (w : SpellWord) (g : Segment) : Spelling :=
  if p.requested = some w.num ∧ (g.complete ∨ lettersDiffer w g) then { p with requested := none } else p

/-- One word of the new segmentation matched (R112). -/
def matchSegment (m : MatchPass) (g : Segment) : MatchPass :=
  let ids := g.items.map WordItem.id
  match recordFor m g.items with
  | some n =>
    match findWord m.spell.words n with
    | some w =>
      let spell := m.spell.endRequest w g
      let g := g.keptComplete m.spell w
      let w' := compareWord w g
      let spell := { spell with words := changeWord m.spell.words n (fun _ => w') }
      let spell := if reopens w g then spell.giveUp n else spell
      let fresh := w'.complete && w'.verdict = .unchecked && (reopens w g || !w.complete)
      { m with
        spell := spell, taken := m.taken ++ [n]
        toCheck := if fresh then m.toCheck ++ [n] else m.toCheck, refs := m.refs ++ [(n, ids)] }
    | none => m
  | none =>
    if formsNextPass m g.items then m
    else
      let spell := m.spell.makeRoom
      let n := spell.nextWord
      let spell := { spell with words := spell.words ++ [newWord n g], nextWord := n + 1 }
      { spell := spell, taken := m.taken ++ [n], evicted := m.evicted ++ m.spell.givesWay.toList
        toCheck := if g.complete then m.toCheck ++ [n] else m.toCheck, refs := m.refs ++ [(n, ids)] }

/-- The word that an item belongs to after a pass (R111). -/
def refOf (words : List SpellWord) (refs : List (Word × List Nat)) (id : Nat) : Option Word :=
  (refs.find? (fun (n, ids) => ids.contains id && words.any (fun w => w.num = n))).map Prod.fst

/-- Word references set afresh in the mode in effect (R111, R112). -/
def State.setRefs (s : State) (refs : List (Word × List Nat)) : State :=
  match s.comp.modeInEffect with
  | .line =>
    { s with comp := { s.comp with recs := s.comp.recs.zipIdx.map (fun (c, i) => { c with word := refOf s.spell.words refs i }) } }
  | .direct =>
    { s with line := { s.line with entries := s.line.entries.map (fun e =>
        { e with word := if e.state = .lifting then none else refOf s.spell.words refs e.seqNum.toNat }) } }

/-! ### Checks, the check queue and the engine (R116, R117, R119) -/

/-- The places of the check queue (R117). -/
def checkPlaces : Nat := 4

/-- Remove detached words that hold no PENDING verdict any more (R113). -/
def Spelling.purge (p : Spelling) : Spelling := p.keepWords (fun w => !(w.detached && w.verdict ≠ .pending))

/-- Set a word's verdict. -/
def State.setVerdict (s : State) (n : Word) (v : Verdict) : State :=
  { s with spell := Spelling.purge { s.spell with words := changeWord s.spell.words n (fun w => { w with verdict := v }) } }

/-- What the check of a word gives (R116). -/
inductive CheckStep where
  | stay
  | verdict (v : Verdict)
  | enqueue
  deriving DecidableEq, Repr

/-- The steps of the check of a word (R116). -/
def State.checkStep (s : State) (w : SpellWord) : CheckStep :=
  if !s.set.spell then .stay
  else if w.digit then .verdict (.skipped .digit)
  else if wordLetters < w.length then .verdict (.skipped .length)
  else if w.length = 1 then .verdict .known
  else if (s.active .lexicon).isNone then .verdict (.skipped .noLexicon)
  else if s.spell.users.contains w.letters then .verdict .user
  else .enqueue

/-- Make room in a full check queue: the oldest word becomes SKIPPED with cause DROPPED (R117). -/
def State.dropOldest (s : State) : State :=
  match s.spell.checkq with
  | (n, _) :: rest =>
    if checkPlaces ≤ s.spell.checkq.length then
      (State.setVerdict { s with spell := { s.spell with checkq := rest } } n (.skipped .dropped)).raise .checksDropped
    else s
  | [] => s

/-- The engine takes the head of the check queue when it is IDLE (R119): the first entry that names a
word of the table. `start` gives the lookup's place in its bucket and its duration. -/
def takeLookup (words : List SpellWord) (start : List Nat → BucketPlace × Nat) :
    List (Word × Byte) → Option Lookup × List (Word × Byte)
  | [] => (none, [])
  | (n, g) :: rest =>
    match findWord words n with
    | some w => (some ⟨n, g, w.letters, (start w.letters).1, (start w.letters).2⟩, rest)
    | none => takeLookup words start rest

/-- The place in the bucket at which a lookup starts, and its duration (R119). -/
def State.lookupStart (s : State) (letters : List Nat) : BucketPlace × Nat :=
  match s.activeBase .lexicon with
  | some b => (bucketStart s.tab.mem b letters, (scanLexicon s.tab.mem b letters).2)
  | none => (.atEnd, 0)

/-- Start the engine if it is IDLE and a word waits (R119). -/
def State.pumpEngine (s : State) : State :=
  match s.spell.engine with
  | some _ => s
  | none =>
    let (e, q) := takeLookup s.spell.words s.lookupStart s.spell.checkq
    { s with spell := { s.spell with engine := e, checkq := q } }

/-- Whether a word has its entry in the check queue (R117). -/
def Spelling.queued (p : Spelling) (n : Word) : Bool := p.checkq.any (fun e => e.1 = n)

/-- Enter a word in the check queue as PENDING (R116, step 7; R117), making room first. -/
def State.appendCheck (s : State) (n : Word) : State :=
  let s := s.dropOldest
  match findWord s.spell.words n with
  | none => s
  | some w =>
    State.pumpEngine { s with spell := { s.spell with
      words := changeWord s.spell.words n (fun w => { w with verdict := .pending })
      checkq := s.spell.checkq ++ [(n, w.gen)] } }

/-- A word comes to step 7 of its check and becomes PENDING (R116). It has at most one entry, so one that has its entry
keeps it in its place (R117). -/
def State.enterQueue (s : State) (n : Word) : State :=
  if s.spell.queued n then
    { s with spell := { s.spell with words := changeWord s.spell.words n (fun w => { w with verdict := .pending }) } }
  else s.appendCheck n

/-- Check a word (R116). -/
def State.checkWord (s : State) (n : Word) : State :=
  match findWord s.spell.words n with
  | none => s
  | some w =>
    match s.checkStep w with
    | .stay => s
    | .verdict v => s.setVerdict n v
    | .enqueue => s.enterQueue n

/-- The record after a number in age order. -/
def recordAfter (n : Word) : List SpellWord → Option Word
  | [] => none
  | w :: l => if w.num = n then l.head?.map SpellWord.num else recordAfter n l

/-- The recheck sweep runs on (R125), record by record, until it is past the newest or waits for a place
in the check queue. -/
def State.runSweep : Nat → State → State
  | 0, s => s
  | k + 1, s =>
    match s.spell.sweep with
    | none => s
    | some n =>
      match findWord s.spell.words n with
      | none => { s with spell := { s.spell with sweep := none } }
      | some w =>
        let due := w.complete && !w.detached && w.verdict = .unchecked
        if due && s.checkStep w = .enqueue && checkPlaces ≤ s.spell.checkq.length then s
        else
          let s := if due then s.checkWord n else s
          State.runSweep k { s with spell := { s.spell with sweep := recordAfter n s.spell.words } }

/-- The engine and the sweep go on after a change (R119, R125). -/
def State.spellOn (s : State) : State :=
  let s := s.pumpEngine
  s.runSweep (s.spell.words.length + 1)

/-- Start the recheck sweep from the oldest record (R125). -/
def State.startSweep (s : State) : State :=
  State.spellOn { s with spell := { s.spell with sweep := s.spell.words.head?.map SpellWord.num } }

/-- Segment the word text anew, match it and check the words that came complete (R112). -/
def State.respell (s : State) : State :=
  let m := s.segments.foldl matchSegment ⟨s.spell, [], [], [], []⟩
  let spell := m.spell.keepWords (fun w => w.detached || m.taken.contains w.num)
  let s := State.setRefs { s with spell := spell } m.refs
  (m.toCheck.foldl State.checkWord s).spellOn

/-! ### Line ends and releases (R113) -/

/-- Complete and check the words not yet complete among those that pass a test (R113); in LINE that is the
last word, at most. The word is checked whatever its verdict, so that a word carried by word wrap with a verdict, an
ACCEPTED one too, is checked again: the model's choice (log entry 64). -/
def State.completeWords (s : State) (within : SpellWord → Bool) : State :=
  let due := (s.spell.words.filter (fun (w : SpellWord) => !w.complete && !w.detached && within w)).map SpellWord.num
  let words := s.spell.words.map (fun (w : SpellWord) =>
    if !w.complete && !w.detached && within w then { w with complete := true } else w)
  let s := { s with spell := { s.spell with words := words, requested := due.getLast?.or s.spell.requested } }
  due.foldl State.checkWord s

/-- A word that a word wrap carries: it is not complete by a release request any more, and its verdict and its
generation stand (R114). -/
def SpellWord.carried (p : Spelling) (w : SpellWord) : SpellWord :=
  if p.requested = some w.num then { w with complete := false } else w

/-- Take the words that pass a test off the table: PENDING ones become detached, the others go (R113). A word that
stays is one that a word wrap carries, and is never complete by a release request (R114). -/
def State.retireWords (s : State) (within : SpellWord → Bool) : State :=
  let spell := { s.spell with
    words := s.spell.words.map (fun (w : SpellWord) =>
      if w.detached then w
      else if !within w then w.carried s.spell
      else if w.verdict = Verdict.pending then { w with detached := true } else w)
    requested := none }
  State.spellOn { s with spell := spell.keepWords (fun w => w.detached || !within w) }

/-- A line ends in DIRECT (R113), before the line record is emptied. -/
def State.spellLineEnd (s : State) : State :=
  let s := s.completeWords (fun _ => true)
  let s := { s with spell := { s.spell with marks := [] } }
  s.retireWords (fun _ => true)

/-- Place a break mark after the newest item of the DIRECT word text (R109). That the mark stands there also where the
newest entry of the record is LIFTING, and so no part of the word text, is the model's choice (log entry 68). -/
def State.markBoundary (s : State) : State :=
  match s.line.shown.getLast? with
  | none => s
  | some e =>
    if s.spell.marks.contains e.seqNum then s
    else State.respell { s with spell := { s.spell with marks := s.spell.marks ++ [e.seqNum] } }

/-- Drop the break marks whose entries have left the word text (R109). -/
def State.trimMarks (s : State) : State :=
  { s with spell := { s.spell with
      marks := s.spell.marks.filter (fun m => s.line.shown.any (fun e => e.seqNum = m)) } }

/-! ### Changes of the active lexicon and SPELL (R121, R123, R124) -/

/-- Abort the lookup in flight and empty the check queue (R121). -/
def Spelling.abort (p : Spelling) : Spelling := { p with engine := none, checkq := [] }

/-- The verdict of a word after a change of the active lexicon (R123, step 3). -/
def Verdict.reverted : Verdict → Verdict
  | .pending => .unchecked
  | .known => .unchecked
  | .miss => .unchecked
  | .skipped .noLexicon => .unchecked
  | .skipped .dropped => .unchecked
  | v => v

/-- The active lexicon has changed (R123): the state already holds the new directory and LANGUAGE, and so
the new alphabet. With an active lexicon the sweep starts at the last step (R125), so one already running
does not go on before it. -/
def State.lexiconChanged (s : State) : State :=
  let known := (s.active .lexicon).isSome
  let spell := { s.spell.abort with
    sweep := if known then none else s.spell.sweep
    words := s.spell.words.map (fun (w : SpellWord) => { w with verdict := w.verdict.reverted }) }
  let s := State.respell { s with spell := spell.purge }
  if known then s.startSweep else s

/-- A dropped word's verdict at SPELL ON (R117, log entry 56): it is to be checked again. -/
def Verdict.undropped : Verdict → Verdict
  | .skipped .dropped => .unchecked
  | v => v

/-- SPELL set to a value (R124); at SPELL ON the sweep checks the dropped words again (R117). -/
def State.setSpell (s : State) (v : Bool) : State :=
  if s.set.spell = v then s
  else
    let s := { s with set := { s.set with spell := v } }
    if v then
      State.startSweep { s with spell := Spelling.purge { s.spell with
        words := s.spell.words.map (fun (w : SpellWord) => { w with verdict := w.verdict.undropped }) } }
    else
      { s with spell := Spelling.purge { s.spell.abort with
          sweep := none
          words := s.spell.words.map (fun (w : SpellWord) => if w.verdict = Verdict.pending then { w with verdict := .unchecked } else w) } }

/-! ### The user word list (R126) -/

/-- The most words of the user word list (R126). -/
def userPlaces : Nat := 64

/-- A word appended to the user word list (R126): equal words that are MISS or PENDING become USER, and a PENDING one
loses its queue entry (R117). A KNOWN word stays KNOWN, also where its lookup has completed together with the addition,
of which R126 says that both orders end with USER: the model's choice (log entry 65). -/
def State.addUserWord (s : State) (letters : List Nat) : State :=
  let hit (w : SpellWord) : Bool :=
    w.letters = letters && w.length = letters.length && (w.verdict = Verdict.miss || w.verdict = Verdict.pending)
  let waiting := (s.spell.words.filter (fun w => hit w && w.verdict = Verdict.pending)).map SpellWord.num
  let spell := { s.spell with
    users := s.spell.users ++ [letters]
    checkq := s.spell.checkq.filter (fun (n, _) => !waiting.contains n)
    words := s.spell.words.map (fun (w : SpellWord) => if hit w then { w with verdict := .user } else w) }
  State.spellOn { s with spell := spell.purge }

/-- A word removed from the user word list (R126): equal USER words become UNCHECKED and the sweep starts. -/
def State.removeUserWord (s : State) (letters : List Nat) : State :=
  let spell := { s.spell with
    users := s.spell.users.filter (fun u => u ≠ letters)
    words := s.spell.words.map (fun (w : SpellWord) =>
      if w.letters = letters && w.length = letters.length && w.verdict = Verdict.user then { w with verdict := .unchecked } else w) }
  State.startSweep { s with spell := spell.purge }

/-! ### A lookup completes (R119, R120) -/

/-- The result of a lookup applied, when the word exists, its generation is the lookup's and it is
PENDING; otherwise discarded (R120). -/
def State.applyLookup (s : State) (l : Lookup) (found : Bool) : State :=
  match findWord s.spell.words l.word with
  | none => s
  | some w =>
    if w.gen = l.gen ∧ w.verdict = Verdict.pending then
      if found then s.setVerdict l.word .known
      else (((s.setVerdict l.word .miss).raise .misses).signal .miss).event (.spellMiss w.num w.letters)
    else s

/-- The lookup in flight completes (R119, R120). -/
def State.completeLookup (s : State) : State :=
  match s.spell.engine with
  | none => s
  | some l =>
    let found := (l.place.scan s.tab.mem l.letters).1
    let s := State.raise { s with spell := { s.spell with engine := none } } .checks
    (s.applyLookup l found).spellOn

end Sys2Proof.Machine
end

