-- ==== Sys2Proof/Machine/Record.lean ====
section
/-! DEFINITION. Line boundaries and the pending line settings (R25, R26), and the line record as the
Correction Unit keeps it: its entries, their order references and the reports of the Print Sequencer
(R89 to R95, R101). -/

namespace Sys2Proof.Machine

/-! ### Line boundaries (R25, R26) -/

/-- The condition of a line boundary under the mode in effect (R25). -/
def State.atBoundary (s : State) : Bool :=
  match s.comp.modeInEffect with
  | .direct => s.line.entries.isEmpty
  | .line => s.comp.recs.isEmpty && s.comp.outgoing.isNone

/-- The Composer when the pending line settings go into force (R26). -/
def Composer.applyPending (c : Composer) (j : Justify) : Composer :=
  let c' := { c with
    source := c.later.source.getD c.source
    mode := c.later.mode.getD c.mode
    pitch := c.later.pitch.getD c.pitch
    left := c.later.left.getD c.left
    right := c.later.right.getD c.right
    later := .none }
  let c' := if c.modeInEffect = .direct ∧ c'.modeInEffect = .line then
      { c' with recs := [], cursor := 0, choice := j } else c'
  let c' := if c'.modeInEffect = .line then { c' with logical := c'.left } else c'
  match c'.source with
  | .localKeys => { c' with textWait := none }
  | .remoteText => c'

/-- A line boundary is reached (R26): every pending value goes into force, the window start becomes 0
(R133), and a change of source or mode sends the Spelling Unit to the new record. -/
def State.reachBoundary (s : State) : State :=
  let c := s.comp.applyPending s.set.justify
  let t := { s with comp := c, disp := { s.disp with window := 0 } }
  if c.source ≠ s.comp.source ∨ c.modeInEffect ≠ s.comp.modeInEffect then t.respell else t

/-- The boundary reached when its condition has changed from false to true (R25). -/
def State.boundaryAfter (was : Bool) (s : State) : State :=
  if !was && s.atBoundary then s.reachBoundary else s

/-- A value for one of the five line settings (R26). -/
inductive LineValue where
  | mode (v : Mode)
  | source (v : Source)
  | pitch (v : Pitch)
  | left (v : Nat)
  | right (v : Nat)
  deriving DecidableEq, Repr

/-- Whether a value equals the value in force (R26). -/
def LineValue.inForce (c : Composer) : LineValue → Bool
  | .mode v => v = c.mode
  | .source v => v = c.source
  | .pitch v => v = c.pitch
  | .left v => v = c.left
  | .right v => v = c.right

/-- A value entered in the pending line settings (R26). -/
def PendingLine.enter (p : PendingLine) : LineValue → PendingLine
  | .mode v => { p with mode := some v }
  | .source v => { p with source := some v }
  | .pitch v => { p with pitch := some v }
  | .left v => { p with left := some v }
  | .right v => { p with right := some v }

/-- The pending entry of a setting removed (R26). -/
def PendingLine.remove (p : PendingLine) : LineValue → PendingLine
  | .mode _ => { p with mode := .none }
  | .source _ => { p with source := .none }
  | .pitch _ => { p with pitch := .none }
  | .left _ => { p with left := .none }
  | .right _ => { p with right := .none }

/-- The count of pending line settings (R26). -/
def PendingLine.count (p : PendingLine) : Nat :=
  p.mode.isSome.toNat + p.source.isSome.toNat + p.pitch.isSome.toNat + p.left.isSome.toNat + p.right.isSome.toNat

/-- A change of a line setting (R26), and whether it was left pending: at a boundary it goes into force at
once. -/
def State.setLine (s : State) (v : LineValue) : State × Bool :=
  if s.atBoundary then
    (State.reachBoundary { s with comp := { s.comp with later := s.comp.later.enter v } }, false)
  else if v.inForce s.comp then
    ({ s with comp := { s.comp with later := s.comp.later.remove v } }, false)
  else ({ s with comp := { s.comp with later := s.comp.later.enter v } }, true)

/-! ### Margins (R27) -/

/-- The left margin as it will stand at the boundary. -/
def Composer.comingLeft (c : Composer) : Nat := c.later.left.getD c.left

/-- The right margin as it will stand at the boundary. -/
def Composer.comingRight (c : Composer) : Nat := c.later.right.getD c.right

/-- Whether a pair of margins is consistent (R27). -/
def marginsConsistent (l r : Nat) : Bool := l + 120 ≤ r

/-! ### Order references (R65) -/

/-- The entry reference of an order. -/
def Order.ref : Order → Option Word
  | .strike _ _ _ r _ => r
  | .lift _ _ _ _ r => r
  | _ => none

/-- An order without its entry reference. -/
def Order.dropRef : Order → Order
  | .strike c p role _ n => .strike c p role none n
  | .lift pt w p l _ => .lift pt w p l none
  | o => o

/-- The orders of an entry lose their reference (R89, R95). -/
def dropRefsTo (n : Word) (q : List Order) : List Order :=
  q.map (fun o => if o.ref = some n then o.dropRef else o)

/-- Every order loses its reference (R95). -/
def dropRefs (q : List Order) : List Order := q.map Order.dropRef

/-- A queue from which orders have been taken out of turn: HEAT_WAITS counts a new head order anew (R76). -/
def Sequencer.withQueue (q : Sequencer) (l : List Order) : Sequencer :=
  { q with queue := l, heatCounted := q.heatCounted && (l.head? = q.queue.head?) }

/-! ### Entries -/

/-- The most entries of the line record (R89). -/
def entryPlaces : Nat := 200

/-- An entry by its sequence number. Of two that bear the same one, 65536 appends apart, the older; a change or a removal
takes both. That is the model's choice (log entry 66). -/
def LineRecord.find (l : LineRecord) (n : Word) : Option Entry := l.entries.find? (fun e => e.seqNum = n)

/-- An entry changed, by its sequence number (log entry 66). -/
def LineRecord.change (l : LineRecord) (n : Word) (f : Entry → Entry) : LineRecord :=
  { l with entries := l.entries.map (fun e => if e.seqNum = n then f e else e) }

/-- An entry taken out of the record, by its sequence number (log entry 66). -/
def LineRecord.remove (l : LineRecord) (n : Word) : LineRecord :=
  { l with entries := l.entries.filter (fun e => e.seqNum ≠ n) }

/-- An entry leaves the line record; its orders in the queue lose their reference (R65). -/
def State.removeEntry (s : State) (n : Word) : State :=
  { s with line := s.line.remove n, seq := { s.seq with queue := dropRefsTo n s.seq.queue } }

/-- The Spelling Unit and the Display Unit follow a change of the line record or of the composition
(R109, R112, R133). -/
def State.followText (s : State) : State := s.trimMarks.respell.moveWindow

/-- What follows a change of the line record or the composition: spelling, window, and the boundary if it
is now reached (R25, R112). -/
def State.textChanged (was : Bool) (s : State) : State := s.followText.boundaryAfter was

/-- Room for one more entry (R89): the oldest of 200 leaves. -/
def State.dropOldestEntry (s : State) : State :=
  if s.line.entries.length < entryPlaces then s
  else
    match s.line.entries with
    | [] => s
    | e :: _ =>
      let s := s.removeEntry e.seqNum
      { s with line := { s.line with dropped := saturate 65535 s.line.dropped 1 } }

/-- The line record emptied (R95): every order loses its reference. -/
def State.emptyRecord (s : State) : State :=
  { s with
    line := { s.line with entries := [], dropped := 0 }
    seq := { s.seq with queue := dropRefs s.seq.queue } }

/-! ### Appending strikes (R66, R93) -/

/-- The STRIKE orders of a strike set, numbered from the next strike number (R66). -/
def strikeOrders (ref : Option Word) : Word → List Strike → List Order
  | _, [] => []
  | n, k :: l => .strike k.code k.pos k.role ref n :: strikeOrders ref (n + 1) l

/-- The strike records of the same strikes (R93). -/
def strikeRecords : Word → List Strike → List StrikeRec
  | _, [] => []
  | n, k :: l => ⟨n, k.role, k.pos, .waiting⟩ :: strikeRecords (n + 1) l

/-- The places of the print queue (R66). -/
def queuePlaces : Nat := 64

/-- Whether the print queue has room for a unit of `n` orders (R66). -/
def State.hasRoom (s : State) (n : Nat) : Bool := s.seq.queue.length + n ≤ queuePlaces

/-- A strike set enters the print queue (R54, R66): the strikes beyond the travel are dropped and
counted. -/
def State.appendStrikes (s : State) (ref : Option Word) (set : List Strike) : State :=
  let s := if pastTravel set = 0 then s else s.raise .pastTravel (pastTravel set)
  { s with seq := { s.seq with
      queue := s.seq.queue ++ strikeOrders ref s.seq.nextStrike (inTravel set)
      nextStrike := s.seq.nextStrike + BitVec.ofNat 16 (inTravel set).length } }

/-- A line record entry appended with its strikes (R89, R90, R93). -/
def State.appendEntry (s : State) (code : Byte) (kind : EntryKind) (pos adv : Nat) (set : List Strike) : State :=
  let s := s.dropOldestEntry
  let n := s.line.nextSeq
  let e : Entry := ⟨n, code, kind, pos, adv, strikeRecords s.seq.nextStrike (inTravel set), 0, false, none⟩
  State.appendStrikes { s with line := { s.line with entries := s.line.entries ++ [e], nextSeq := n + 1 } } (some n) set

/-! ### The Print Sequencer's reports (R77, R94, R101) -/

/-- The strike record of a strike number changed (R94); a report that finds none is dropped. -/
def Entry.changeStrike (e : Entry) (num : Word) (f : StrikeStatus → StrikeStatus) : Entry :=
  { e with strikes := e.strikes.map (fun k => if k.num = num then { k with status := f k.status } else k) }

/-- A report on a STRIKE order (R94). -/
def State.reportStrike (s : State) (ref : Option Word) (num : Word) (f : StrikeStatus → StrikeStatus) : State :=
  match ref with
  | none => s
  | some n => { s with line := s.line.change n (fun e => e.changeStrike num f) }

/-- The report "in flight" of a STRIKE (R94). -/
def State.reportInFlight (s : State) : Order → State
  | .strike _ _ _ ref num => s.reportStrike ref num (fun k => if k = .waiting then .inFlight else k)
  | _ => s

/-- The report "left flight" of a STRIKE (R94); a LIFT's has no effect (R101). -/
def State.reportLeftFlight (s : State) : Order → State
  | .strike _ _ _ ref num => s.reportStrike ref num (fun k => if k = .inFlight then .waiting else k)
  | _ => s

/-- One LIFT order of an entry has left the queue (R101). -/
def Entry.liftDone (e : Entry) (skipped : Bool) : Entry :=
  { e with outstanding := e.outstanding - 1, liftSkipped := e.liftSkipped || skipped }

/-- The entry's LIFT order has been lifted or skipped (R101): at the last one the entry is removed, or
returns to INKED when one of them was skipped. An entry that is INKED again has `liftSkipped` no, which R90 states of a
LIFTING entry only (log entry 60). -/
def State.reportLift (s : State) (ref : Option Word) (skipped : Bool) : State :=
  match ref.bind s.line.find with
  | none => s
  | some e =>
    if e.outstanding = 0 then s
    else
      let e' := e.liftDone skipped
      if e'.outstanding ≠ 0 then { s with line := s.line.change e.seqNum (fun _ => e') }
      else if e'.liftSkipped then
        State.textChanged s.atBoundary
          { s with line := s.line.change e.seqNum (fun _ => { e' with liftSkipped := false }) }
      else State.textChanged s.atBoundary (s.removeEntry e.seqNum)

/-- The report at an order's completion (R77): inked, or lifted. -/
def State.reportDone (s : State) (petal wheel level : Nat) : Order → State
  | .strike _ _ _ ref num => s.reportStrike ref num (fun _ => .printed petal wheel level)
  | .lift _ _ _ _ ref => s.reportLift ref false
  | _ => s

/-- The report "skipped" (R77). -/
def State.reportSkipped (s : State) : Order → State
  | .strike _ _ _ ref num => s.reportStrike ref num (fun _ => .skipped)
  | .lift _ _ _ _ ref => s.reportLift ref true
  | _ => s

end Sys2Proof.Machine
end

