-- ==== Sys2Proof/Machine/Sequencer.lean ====
section
/-! DEFINITION. The Print Sequencer and the Drive Stages (chapters 4 and 8): mechanism states, executing
orders, homing, pauses, the cover, drive states, tests, the fault list and halts. -/

namespace Sys2Proof.Machine

/-! ### Mechanism states (R67) -/

/-- Enter a mechanism state with its reason (R67): a change queues EVENT MECH_STATE. A rotation test is
abandoned when the mechanism leaves IDLE or HALTED (R145). -/
def State.enter (s : State) (st : MechState) (r : Reason) : State :=
  if s.seq.state = st ∧ s.seq.reason = r then s
  else
    State.event { s with
      seq := { s.seq with state := st, reason := r }
      drv := { s.drv with rotTest := if s.seq.state = st then s.drv.rotTest else none } } (.mechState st r)

/-- The reason that a pause request carries into PAUSED (R67). -/
def PauseReason.reason : PauseReason → Reason
  | .key => .key
  | .command => .command

/-- Enter WHEEL_WAIT under a failing wheel condition, with the events of R9. -/
def State.enterWheelWait (s : State) : WheelCondition → State
  | .mismatch => (s.enter .wheelWait .mismatch).event (.wheelMismatch s.set.expectedWheel s.seq.wheelCode)
  | .noMap => (s.enter .wheelWait .noMap).event (.wheelNoMap s.seq.wheelCode)
  | .ready => s

/-! ### Motions (R74, R80, R81) -/

/-- The steps of a wheel motion (R74): forward d for d up to 48, otherwise backward 96 − d. -/
def wheelDistance (a b : Nat) : Nat := (b + 96 - a) % 96

/-- The number of wheel steps between two petals (R74). -/
def wheelSteps (a b : Nat) : Nat :=
  if wheelDistance a b ≤ 48 then wheelDistance a b else 96 - wheelDistance a b

/-- The petal reached after `k` of those steps (R74). -/
def wheelReached (a b k : Nat) : Nat :=
  if wheelDistance a b ≤ 48 then (a + k) % 96 else (a + 96 - k) % 96

/-- The time of a wheel motion in microseconds (R74). -/
def wheelMicros (n : Nat) : Nat := if n = 0 then 0 else 3000 + 250 * n

/-- The carriage time in microseconds (R74). -/
def carriageMicros (n : Nat) : Nat := if n = 0 then 0 else 4000 + 40 * n

/-- The time of a lift motion (R79). -/
def liftMicros : Nat := 6000

/-- The time of a paper motion of `k` half-lines (R81). -/
def paperMicros (k : Nat) : Nat := 5000 + 4000 * k

/-- The half-lines that an INDEX will move (R81): PAGE is found from v reduced. -/
def State.indexHalfLines (s : State) : Order → Nat
  | .index c => c.natAbs
  | .indexPage => s.pageHalfLines - s.seq.paperPos % s.pageHalfLines
  | _ => 0

/-- The paper position after a motion of a signed number of half-lines (R81). -/
def State.paperAfter (s : State) (c : Int) : Nat :=
  (((s.seq.paperPos : Int) + c) % (s.pageHalfLines : Int)).toNat

/-- Where an order needs the carriage. -/
def Order.pos : Order → Nat
  | .strike _ p _ _ _ => p
  | .lift _ _ p _ _ => p
  | .move p => p
  | _ => 0

/-- Where a STRIKE or LIFT needs the lift actuator (R74). -/
def Order.liftPos : Order → LiftPos
  | .lift _ _ _ _ _ => .tape
  | _ => .ribbon

/-- The time that the lift takes at the start of a POSITION phase (R74), what remains of a motion already
under way not counted (log entry 10). -/
def State.liftTime (s : State) (dest : LiftPos) : Nat :=
  if s.seq.liftTarget = none ∧ s.seq.lift = some dest then 0 else liftMicros

/-- The time of a POSITION phase (R74): the longest of its three motions. -/
def State.positionMicros (s : State) (o : Order) (petal : Nat) : Nat :=
  max (wheelMicros (wheelSteps (s.seq.petal.getD 0) petal))
    (max (carriageMicros (dist (s.seq.carriage.getD 0) o.pos)) (s.liftTime o.liftPos))

/-- The lift motion under way once the lift is asked to go to a position (R74, R79): a motion already
under way completes first. -/
def Sequencer.askLift (q : Sequencer) (dest : LiftPos) : Option LiftPos :=
  match q.liftTarget with
  | some t => some t
  | none => if q.lift = some dest then none else some dest

/-! ### The fault list (R148, R149) -/

/-- Whether a fault of a kind halts the mechanism (R149). -/
def State.halting (s : State) : FaultKind → Bool
  | .overcurrent => true
  | .openLoad => s.set.maskOpenLoad = .halt
  | .homeNotFound => s.set.maskHomeNotFound = .halt
  | .wheelIndexLost => s.set.maskIndexLost = .halt

/-- The record of a kind and channel. -/
def findFault (l : List FaultRec) (k : FaultKind) (ch : Channel) : Option FaultRec :=
  l.find? (fun f => f.kind = k && f.ch = ch)

/-- The record of a kind and channel changed. -/
def changeFault (l : List FaultRec) (k : FaultKind) (ch : Channel) (f : FaultRec → FaultRec) : List FaultRec :=
  l.map (fun r => if r.kind = k ∧ r.ch = ch then f r else r)

/-- The places of the fault list (R148). -/
def faultPlaces : Nat := 8

/-- A fault raised (R148): listed, or counted when the list is full. -/
def State.raiseFault (s : State) (k : FaultKind) (ch : Channel) : State :=
  match findFault s.drv.faults k ch with
  | some r =>
    let occ := saturate 255 r.occ 1
    let t := { s with drv := { s.drv with
      faults := changeFault s.drv.faults k ch (fun r => { r with occ := occ, isPresent := true }) } }
    if r.isPresent then t else t.event (.faultRaised k ch occ)
  | none =>
    if s.drv.faults.length < faultPlaces then
      State.event { s with drv := { s.drv with faults := s.drv.faults ++ [⟨k, ch, 1, true⟩] } } (.faultRaised k ch 1)
    else s.raise .faultsUnlisted

/-- A present flag cleared (R148), without an event. -/
def State.clearFault (s : State) (k : FaultKind) (ch : Channel) : State :=
  { s with drv := { s.drv with faults := changeFault s.drv.faults k ch (fun r => { r with isPresent := false }) } }

/-- A drive of a channel was successful (R142, R146). -/
def State.driven (s : State) (ch : Channel) : State := s.clearFault .overcurrent ch

/-- A drive of a channel was successful, if there was a drive. -/
def State.drivenIf (s : State) (b : Bool) (ch : Channel) : State := if b then s.driven ch else s

/-! ### Executing orders (R72, R73, R75 to R78) -/

/-- The head order leaves the queue. -/
def State.popOrder (s : State) : State :=
  { s with seq := { s.seq with queue := s.seq.queue.tail, flight := none, heatCounted := false } }

/-- A POSITION phase starts (R74): the order is in flight, and the lift is asked to move. -/
def State.startPosition (s : State) (o : Order) (petal level : Nat) : State :=
  State.reportInFlight { s with seq := { s.seq with
    flight := some (.position petal level (s.positionMicros o petal))
    liftTarget := s.seq.askLift o.liftPos } } o

/-- The level of a STRIKE of an impact class (R63). -/
def State.strikeLevel (s : State) (cls : Nat) : Nat := hammerLevel cls s.set.impression s.set.ribbon

/-- What starting the head order comes to (R72, R73, R78, R80, R81). -/
inductive StartStep where
  | position (petal level : Nat)
  | skip
  | wait (c : WheelCondition)
  | moveDone
  | moving (micros : Nat)
  | indexing (halfLines : Nat)
  deriving DecidableEq, Repr

/-- How the head order starts (R72, R73, R78, R80, R81). -/
def State.startStep (s : State) : Order → StartStep
  | .strike code _ _ _ _ =>
    match s.wheelCondition with
    | .ready =>
      match s.wheelEntry code with
      | some (.petal p cls _ _) => .position p (s.strikeLevel cls)
      | _ => .skip
    | c => .wait c
  | .lift petal wheel _ level _ => if wheel = s.seq.wheelCode then .position petal level else .skip
  | .move p =>
    if s.seq.carriage = some p then .moveDone else .moving (carriageMicros (dist (s.seq.carriage.getD 0) p))
  | o => .indexing (s.indexHalfLines o)

/-- A skipped order (R73, R78): counted or told by its event, removed and reported. -/
def State.skipOrder (s : State) (o : Order) : State :=
  let s := match o with
    | .lift _ _ _ _ _ => s.popOrder.event (.correctRefused .wrongWheel)
    | _ => s.popOrder.raise .unprintable
  s.reportSkipped o

/-- The sequencer goes on in RUNNING with nothing in flight (R72, R83): a pause request stops it, an empty
queue ends in IDLE, and otherwise the head order starts, skipped orders giving way to the next. -/
def State.runOrders : Nat → State → State
  | 0, s => s
  | n + 1, s =>
    match s.seq.pauseReq with
    | some r => State.enter { s with seq := { s.seq with pauseReq := none } } .paused r.reason
    | none =>
      match s.seq.queue with
      | [] => s.enter .idle .none
      | o :: _ =>
        match s.startStep o with
        | .position petal level => s.startPosition o petal level
        | .skip => State.runOrders n (s.skipOrder o)
        | .wait c => s.enterWheelWait c
        | .moveDone => State.runOrders n s.popOrder
        | .moving us => { s with seq := { s.seq with flight := some (.moving us) } }
        | .indexing k => { s with seq := { s.seq with flight := some (.indexing k (paperMicros k)) } }

/-- Run on from the head of the queue. -/
def State.runQueue (s : State) : State := s.runOrders (s.seq.queue.length + 1)

/-- Leave a state for PAUSED, RUNNING or IDLE (R10, R71, R84). -/
def State.enterReady (s : State) : State :=
  match s.seq.pauseReq with
  | some r => State.enter { s with seq := { s.seq with pauseReq := none } } .paused r.reason
  | none => if s.seq.queue.isEmpty then s.enter .idle .none else (s.enter .running .none).runQueue

/-- A unit has arrived at the queue (R72). -/
def State.kick (s : State) : State :=
  if s.seq.state = .idle ∧ s.seq.queue ≠ [] then (s.enter .running .none).runQueue else s

/-- An order that is not a strike appended (R66). -/
def State.appendOrders (s : State) (l : List Order) : State :=
  State.kick { s with seq := { s.seq with queue := s.seq.queue ++ l } }

/-- The wheel condition judged again in WHEEL_WAIT (R10). -/
def State.rejudge (s : State) : State :=
  if s.seq.state = .wheelWait then
    match s.wheelCondition with
    | .ready => s.enterReady
    | .mismatch => if s.seq.reason = .mismatch then s else s.enterWheelWait .mismatch
    | .noMap => if s.seq.reason = .noMap then s else s.enterWheelWait .noMap
  else s

/-- The heat check (R76): the pulse begins, or the order waits in HEAT_WAIT and is counted once. -/
def State.heatCheck (s : State) (petal level : Nat) : State :=
  if s.seq.heat + level ≤ 255 then
    { s with seq := { s.seq with
        flight := some (.pulse petal level (pulseMicros level)), heat := s.seq.heat + level } }
  else
    let s := if s.seq.heatCounted then s else s.raise .heatWaits
    { s with seq := { s.seq with flight := some (.heatWait petal level), heatCounted := true } }

/-- The POSITION phase completes (R74, R75): the three parts stand where the order needs them. A lift
motion under way to another place has to complete first (R74). -/
def State.positionComplete (s : State) : State :=
  match s.seq.flight, s.seq.queue with
  | some (.position petal level _), o :: _ =>
    if s.seq.liftTarget = none ∨ s.seq.liftTarget = some o.liftPos then
      let t := ((s.drivenIf (s.seq.petal ≠ some petal) .wheel).drivenIf (s.seq.carriage ≠ some o.pos) .carriage).drivenIf
        (s.seq.liftTarget ≠ none) .lift
      State.heatCheck { t with seq := { t.seq with
        petal := some petal, carriage := some o.pos, lift := some o.liftPos, liftTarget := none } } petal level
    else s
  | _, _ => s

/-- A pulse has completed (R75): STRIKES or LIFTS is raised. -/
def State.countPulse (s : State) : State :=
  match s.seq.queue with
  | .lift _ _ _ _ _ :: _ => s.raise .lifts
  | _ => s.raise .strikes

/-- The order in flight completes (R77): removed and reported. -/
def State.finishOrder (s : State) (petal level : Nat) : State :=
  match s.seq.queue with
  | o :: _ => s.popOrder.reportDone petal s.seq.wheelCode level o
  | [] => s

/-- The paper sensor read as an INDEX completes (R82): no paper pauses the mechanism. -/
def State.afterIndex (s : State) (paper : Bool) : State :=
  if paper then s.runQueue
  else State.enter { s with seq := { s.seq with pauseReq := none } } .paused .paper

/-- An INDEX completes (R81, R82). -/
def State.indexComplete (s : State) (paper : Bool) : State :=
  match s.seq.flight, s.seq.queue with
  | some (.indexing _ _), o :: _ =>
    let v := match o with
      | .index c => s.paperAfter c
      | _ => 0
    State.afterIndex (State.popOrder { s.driven .paper with seq := { s.seq with paperPos := v } }) paper
  | _, _ => s

/-- A MOVE completes (R80). -/
def State.moveComplete (s : State) : State :=
  match s.seq.flight, s.seq.queue with
  | some (.moving _), .move p :: _ =>
    State.runQueue (State.popOrder { s.driven .carriage with seq := { s.seq with carriage := some p } })
  | _, _ => s

/-! ### Motions stopped on the way (R74, R81) -/

/-- The carriage stopped on its way to a place. -/
def State.stopCarriage (s : State) (dest : Nat) : State :=
  match s.seq.carriage with
  | none => s
  | some a =>
    let (k, t) := s.drawReached (dist a dest)
    { t with seq := { t.seq with carriage := some (along a dest k) } }

/-- The wheel stopped on its way to a petal. -/
def State.stopWheel (s : State) (dest : Nat) : State :=
  match s.seq.petal with
  | none => s
  | some a =>
    let (k, t) := s.drawReached (wheelSteps a dest)
    { t with seq := { t.seq with petal := some (wheelReached a dest k) } }

/-- The wheel stopped while it turned forward without a target (homing steps 3 and 4). -/
def State.stopTurning (s : State) : State :=
  match s.seq.petal with
  | none => s
  | some a =>
    let (k, t) := s.drawReached 95
    { t with seq := { t.seq with petal := some ((a + k) % 96) } }

/-- The lift stopped: a motion under way leaves its position unknown (R74). -/
def State.stopLift (s : State) : State :=
  match s.seq.liftTarget with
  | none => s
  | some _ => { s with seq := { s.seq with lift := none, liftTarget := none } }

/-- A paper motion of `k` half-lines stopped (R81): the half-line in progress completes, so at least one
has moved; v follows, and the order keeps the count not yet moved or is removed as complete. A PAGE stopped after
its whole count moves v by that count modulo the page as PAGE_LENGTH then stands (log entry 51). A stopped motion is
no successful drive, also where its whole count has moved, so the flag of an OVERCURRENT on PAPER stands: the model's
choice (log entry 70). -/
def State.stopPaper (s : State) (k : Nat) : State :=
  let (j, t) := s.drawReached (k - 1)
  let moved := min k (j + 1)
  match t.seq.queue with
  | .index c :: rest =>
    let step : Int := if 0 ≤ c then moved else -(moved : Int)
    let u := { t with seq := { t.seq with paperPos := t.paperAfter step, flight := none } }
    if moved = k then u.popOrder else { u with seq := { u.seq with queue := .index (c - step) :: rest } }
  | .indexPage :: _ =>
    let u := { t with seq := { t.seq with paperPos := t.paperAfter moved, flight := none } }
    if moved = k then u.popOrder else u
  | _ => t

/-- The order in flight abandoned and left at the head (R81, R85, R87, R88), reported as having left
flight. -/
def State.abandonFlight (s : State) : State :=
  match s.seq.flight, s.seq.queue with
  | some f, o :: _ =>
    let t := match f with
      | .position petal _ _ => (s.stopCarriage o.pos).stopWheel petal
      | .moving _ => s.stopCarriage o.pos
      | .indexing k _ => s.stopPaper k
      | _ => s
    State.reportLeftFlight { t with seq := { t.seq with flight := none, coverStop := false } } o
  | _, _ => { s with seq := { s.seq with flight := none, coverStop := false } }

/-- The homing in progress abandoned (R69, R85, R87): its motions stop where they stand and the reads
taken are discarded (R8). -/
def State.abandonHoming (s : State) : State :=
  match s.seq.homing with
  | none => s
  | some h =>
    let t := match h with
      | .home => s.stopCarriage 0
      | .ret target => s.stopCarriage target
      | .index => s.stopTurning
      | .ident _ => s.stopTurning
      | .test _ => s
    State.stopLift { t with seq := { t.seq with homing := none } }

/-- A pause in force becomes a pause request, but for reason PAPER (R69, R85, R87). -/
def Sequencer.pauseToRequest (q : Sequencer) : Sequencer :=
  match q.state, q.reason with
  | .paused, .key => { q with pauseReq := some (q.pauseReq.getD .key) }
  | .paused, .command => { q with pauseReq := some (q.pauseReq.getD .command) }
  | _, _ => q

/-- A halting fault acts on the mechanism (R87, R149). -/
def State.halt (s : State) (k : FaultKind) : State :=
  if s.seq.state = .halted then s
  else
    let t := s.abandonFlight.abandonHoming.stopLift
    State.enter { t with seq := t.seq.pauseToRequest } .halted (.fault k)

/-- A fault raised, and what it does by its mask (R148, R149). -/
def State.fault (s : State) (k : FaultKind) (ch : Channel) : State :=
  let h := s.halting k
  let s := s.raiseFault k ch
  if h then s.halt k else s

/-- A fault that ends homing (R87, R147): it halts, or leaves the mechanism UNHOMED. -/
def State.homingFault (s : State) (k : FaultKind) (ch : Channel) : State :=
  if s.halting k then s.fault k ch
  else State.enter { s.fault k ch with seq := { (s.fault k ch).seq with homing := none } } .unhomed .none

/-! ### Homing (R69 to R71) -/

/-- Homing starts (R69, R70): step 1 with the lift sent to REST, or COVER_OPEN with the cover open. -/
def State.startHoming (s : State) : State :=
  let s := s.abandonHoming
  let s := { s with seq := s.seq.pauseToRequest }
  if s.coverOpen then s.enter .coverOpen .none
  else
    State.enter { s with seq := { s.seq with homing := some .home, liftTarget := s.seq.askLift .rest } } .homing .none

/-- The return position of step 2 (R70). -/
def State.returnPosition (s : State) : Nat :=
  min lastPosition (match s.comp.modeInEffect with | .direct => s.comp.logical | .line => s.comp.left)

/-- Step 1 completes (R70, R147); with the return position at 0 step 2 takes no time. That step 1 is a drive of CARRIAGE
also where the carriage stands at the home sensor already is the model's choice (R142, log entry 71). -/
def State.homeSeen (s : State) : State :=
  if s.seq.homing = some .home then
    let t := (s.driven .carriage).clearFault .homeNotFound .carriage
    { t with seq := { t.seq with
        carriage := some 0
        homing := some (if s.returnPosition = 0 then .index else .ret s.returnPosition) } }
  else s

/-- Step 2 completes (R70). -/
def State.returnComplete (s : State) : State :=
  match s.seq.homing with
  | some (.ret target) =>
    { s.driven .carriage with seq := { s.seq with carriage := some target, homing := some .index } }
  | _ => s

/-- Step 3 completes (R71, R147): the petal at the index mark is known (log entry 7). -/
def State.indexSeen (s : State) : State :=
  if s.seq.homing = some .index then
    let t := (s.driven .wheel).clearFault .wheelIndexLost .wheel
    { t with seq := { t.seq with petal := some (Config.indexMarkPetal % 96), homing := some (.ident []) } }
  else s

/-- The result of the reads of identification, none while more are needed (R6): two consecutive equal
reads give their value, and four without give 0. -/
def identResult (reads : List Nat) : Option Nat :=
  match reads.reverse with
  | a :: b :: _ => if a = b then some a else if reads.length = 4 then some 0 else none
  | _ => none

/-- Identification completes with a result (R7). -/
def State.identified (s : State) (code : Nat) : State :=
  let was := s.active .wheelMap
  let s := State.event { s with seq := { s.seq with wheelCode := code } } (.wheelIdentified code)
  match s.active .wheelMap with
  | none => s
  | some i => if was = some i then s else s.event (.tableActive .wheelMap code i)

/-- One revolution of identification ends with a read (R6, R7, R71). -/
def State.identRead (s : State) (code : Nat) : State :=
  match s.seq.homing with
  | some (.ident reads) =>
    match identResult (reads ++ [code]) with
    | none => { s with seq := { s.seq with homing := some (.ident (reads ++ [code])) } }
    | some r =>
      State.identified { s.driven .wheel with seq := { s.seq with homing := some (.test .carriage) } } r
  | _ => s

/-- Homing ends (R71, step 6). -/
def State.homingEnd (s : State) : State :=
  let s := { s with seq := { s.seq with homing := none } }
  match s.wheelCondition with
  | .ready => s.enterReady
  | c => s.enterWheelWait c

/-! ### Drive states and tests (R142 to R145) -/

/-- The drive states of a channel (R142). -/
inductive DriveState where
  | off | driving | testing
  deriving DecidableEq, Repr

/-- The position the head order needs the carriage at. -/
def Sequencer.headPos (q : Sequencer) : Option Nat := q.queue.head?.map Order.pos

/-- Whether a channel is being driven (R142). -/
def Sequencer.driving (q : Sequencer) : Channel → Bool
  | .carriage =>
    (match q.flight with
      | some (.position _ _ _) => q.carriage ≠ q.headPos
      | some (.moving _) => true
      | _ => false)
    || (match q.homing with | some .home => true | some (.ret _) => true | _ => false)
  | .wheel =>
    (match q.flight with
      | some (.position petal _ _) => q.petal ≠ some petal
      | _ => false)
    || (match q.homing with | some .index => true | some (.ident _) => true | _ => false)
  | .hammer => (match q.flight with | some (.pulse _ _ _) => true | _ => false)
  | .lift => q.liftTarget.isSome
  | .paper => (match q.flight with | some (.indexing _ _) => true | _ => false)

/-- The channel under test (R143). -/
def State.testing (s : State) : Option Channel :=
  match s.seq.homing with
  | some (.test ch) => some ch
  | _ => if s.drv.rotTest = some .running then some s.drv.rotation else none

/-- The drive state of a channel (R142). -/
def State.driveState (s : State) (ch : Channel) : DriveState :=
  if s.seq.driving ch then .driving else if s.testing = some ch then .testing else .off

/-- The five channels in order (R142). -/
def channels : List Channel := [.carriage, .wheel, .hammer, .lift, .paper]

/-- The channel after a channel, in the rotation (R145). -/
def nextChannel : Channel → Channel
  | .carriage => .wheel | .wheel => .hammer | .hammer => .lift | .lift => .paper | .paper => .carriage

/-- The last test result of a channel set (R143). -/
def TestResults.put (t : TestResults) (ch : Channel) (r : TestResult) : TestResults :=
  match ch with
  | .carriage => { t with carriage := r }
  | .wheel => { t with wheel := r }
  | .hammer => { t with hammer := r }
  | .lift => { t with lift := r }
  | .paper => { t with paper := r }

/-- The result of a test takes effect (R143, R149). -/
def State.testResult (s : State) (ch : Channel) (pass : Bool) : State :=
  let t := { s with drv := { s.drv with results := s.drv.results.put ch (if pass then .pass else .fail) } }
  if pass then t.clearFault .openLoad ch else t.fault .openLoad ch

/-- After a test of homing step 5 (R144): the next channel, or step 6 after PAPER. A halt has ended the
homing. -/
def State.nextTest (s : State) (ch : Channel) : State :=
  if s.seq.state = .halted then s
  else if ch = .paper then s.homingEnd
  else { s with seq := { s.seq with homing := some (.test (nextChannel ch)) } }

/-- An off-state test completes (R143 to R145). -/
def State.testComplete (s : State) (pass : Bool) : State :=
  match s.seq.homing with
  | some (.test ch) => (s.testResult ch pass).nextTest ch
  | _ =>
    if s.drv.rotTest = some .running then
      State.testResult { s with drv := { s.drv with rotation := nextChannel s.drv.rotation, rotTest := none } }
        s.drv.rotation pass
    else s

/-- The rotation timer expires (R145): the channel is tested at once, or when the drive under way
completes. -/
def State.rotationExpiry (s : State) : State :=
  if (s.seq.state = .idle ∨ s.seq.state = .halted) ∧ s.drv.rotTest = none then
    { s with drv := { s.drv with rotTest := some (if channels.any s.seq.driving then .deferred else .running) } }
  else s

/-! ### The lift actuator (R79) -/

/-- A lift motion completes (R74, R79, R145): the lift goes on to where the order in flight needs it, and a
deferred rotation test starts. -/
def State.liftComplete (s : State) : State :=
  match s.seq.liftTarget with
  | none => s
  | some t =>
    let need : Option LiftPos :=
      match s.seq.flight, s.seq.queue with
      | some (.position _ _ _), o :: _ => if o.liftPos = t then none else some o.liftPos
      | _, _ => none
    { s.driven .lift with
      seq := { s.seq with lift := some t, liftTarget := need }
      drv := { (s.driven .lift).drv with
        rotTest := if s.drv.rotTest = some .deferred then some .running else s.drv.rotTest } }

/-- Whether a STRIKE or LIFT is in flight (R79). -/
def Sequencer.striking (q : Sequencer) : Bool :=
  match q.flight with
  | some (.position _ _ _) => true
  | some (.heatWait _ _) => true
  | some (.pulse _ _ _) => true
  | some (.recover _ _ _) => true
  | _ => false

/-- The rest timer expires (R79, R142, R145): the lift is sent to REST, which abandons a rotation test. -/
def State.restExpiry (s : State) : State :=
  if !s.seq.striking ∧ s.seq.lift ≠ some .rest ∧ s.seq.liftTarget = none ∧ s.seq.state ≠ .halted then
    { s with seq := { s.seq with liftTarget := some .rest }, drv := { s.drv with rotTest := none } }
  else s

/-! ### Overcurrent (R146) -/

/-- A coil current exceeds its limit while its channel is driven (R146). -/
def State.overcurrent (s : State) (ch : Channel) : State :=
  if s.seq.driving ch then s.fault .overcurrent ch else s

/-! ### Pause and resume (R83, R84) -/

/-- A pause request set; one already present keeps its reason (R83). -/
def State.requestPause (s : State) (r : PauseReason) : State :=
  { s with seq := { s.seq with pauseReq := some (s.seq.pauseReq.getD r) } }

/-- A pause at once. -/
def State.pauseNow (s : State) (r : PauseReason) : State :=
  State.enter { s with seq := { s.seq with pauseReq := none } } .paused (s.seq.pauseReq.getD r).reason

/-- A pause asked for (R83). -/
def State.askPause (s : State) (r : PauseReason) : State :=
  match s.seq.state with
  | .paused => s
  | .idle => s.pauseNow r
  | .running => if s.seq.flight.isNone then s.pauseNow r else s.requestPause r
  | _ => s.requestPause r

/-- A resume asked for while PAUSED (R84), with what the paper sensor shows; none when the pause stays. -/
def State.askResume (s : State) (paper : Bool) : Option State :=
  if s.seq.reason = .paper ∧ !paper then none else some s.enterReady

/-! ### The cover (R85, R86) -/

/-- The cover opens: a lift motion stops (R146, log entry 28) and the mechanism enters COVER_OPEN, a pause in force
becoming a request (R85). -/
def State.enterCover (s : State) : State :=
  let s := s.stopLift
  State.enter { s with seq := s.seq.pauseToRequest } .coverOpen .none

/-- An order whose pulse ran on through the opening of the cover has completed (R85); homing starts if the
cover has closed again (log entry 15). -/
def State.endCoverStop (s : State) : State :=
  let s := State.enterCover { s with seq := { s.seq with coverStop := false } }
  if s.coverOpen then s else s.startHoming

/-- The hammer pulse completes (R75): the strike has printed and RECOVER begins; with the cover opened
meanwhile the order completes as if RECOVER had run (R85). -/
def State.pulseComplete (s : State) : State :=
  match s.seq.flight with
  | some (.pulse petal level _) =>
    let s := s.countPulse.driven .hammer
    if s.seq.coverStop then (s.finishOrder petal level).endCoverStop
    else { s with seq := { s.seq with flight := some (.recover petal level 3000) } }
  | _ => s

/-- RECOVER completes (R77): the order completes and the next one starts. -/
def State.recoverComplete (s : State) : State :=
  match s.seq.flight with
  | some (.recover petal level _) => (s.finishOrder petal level).runQueue
  | _ => s

/-- The decay timer expires (R76): H falls, and an order in HEAT_WAIT makes its check again. -/
def State.heatTick (s : State) : State :=
  let s := { s with seq := { s.seq with heat := s.seq.heat - 1 } }
  match s.seq.flight with
  | some (.heatWait petal level) => s.heatCheck petal level
  | _ => s

/-- The cover switch shows the cover opening (R85). -/
def State.openCover (s : State) : State :=
  if s.coverOpen then s
  else
    let s := { s with coverOpen := true }
    match s.seq.state with
    | .halted => s
    | .coverOpen => s
    | .homing => s.abandonHoming.enterCover
    | .running =>
      match s.seq.flight with
      | some (.pulse _ _ _) => { s with seq := { s.seq with coverStop := true } }
      | some (.recover petal level _) => (s.finishOrder petal level).enterCover
      | none => s.enterCover
      | some _ => s.abandonFlight.enterCover
    | _ => s.enterCover

/-- The cover switch shows the cover closing (R86). -/
def State.closeCover (s : State) : State :=
  let t := { s with coverOpen := false }
  if s.seq.state = .coverOpen then t.startHoming else t

end Sys2Proof.Machine
end

