-- ==== Sys2Proof/Machine/Correction.lean ====
section
/-! DEFINITION. Evaluating an item of a feed (R28), and the Correction Unit's keys in DIRECT (R96 to
R105). -/

namespace Sys2Proof.Machine

/-! ### Evaluations (R28) -/

/-- The outcome of an evaluation (R28): the state after it, and what the item waits on, none when it was
taken (carried out or refused). -/
structure Eval where
  state : State
  wait  : Option WaitCause

/-- The item is carried out. -/
def Eval.taken (s : State) : Eval := ⟨s, none⟩

/-- The item waits. -/
def Eval.waits (s : State) (c : WaitCause) : Eval := ⟨s, some c⟩

/-- The item is refused, with a REFUSED signal (R28). -/
def Eval.refused (s : State) : Eval := ⟨s.signal .refused, none⟩

/-- An item that needs room for `n` orders (R28). -/
def State.withRoom (s : State) (n : Nat) (f : State → State) : Eval :=
  if s.hasRoom n then .taken (f s) else .waits s .room

/-! ### One correction step (R96 to R100) -/

/-- The target of a correction (R96): the newest entry that is not LIFTING. -/
def State.correctTarget (s : State) : Option Entry := lastWhere (fun e => e.state ≠ .lifting) s.line.entries

/-- Why a correction without a target is refused (R96). -/
def State.noTargetReason (s : State) : CorrectReason := if 0 < s.line.dropped then .notInMemory else .nothing

/-- A correction refused with its event (R96, R99). -/
def State.refuseCorrect (s : State) (r : CorrectReason) : Eval := .refused (s.event (.correctRefused r))

/-- The queue without the orders of an entry. -/
def withoutOrders (n : Word) (q : List Order) : List Order := q.filter (fun o => o.ref ≠ some n)

/-- An entry taken back with no tape (R98): its orders and the entry go, and the logical position becomes
its position. -/
def State.cancelEntry (s : State) (e : Entry) : State :=
  State.textChanged s.atBoundary { s with
    line := s.line.remove e.seqNum
    seq := s.seq.withQueue (withoutOrders e.seqNum s.seq.queue)
    comp := { s.comp with logical := e.pos } }

/-- The LIFT orders of an entry, newest strike first (R100). -/
def State.liftOrders (s : State) (e : Entry) : List Order :=
  e.strikes.reverse.filterMap (fun k =>
    match k.status with
    | .printed petal wheel level =>
      some (.lift petal wheel k.pos (liftLevel level s.set.correctionOffset) (some e.seqNum))
    | _ => none)

/-- Whether a strike of an entry was printed with another wheel than the identified one (R99). -/
def State.otherWheel (s : State) (e : Entry) : Bool :=
  e.strikes.any (fun k =>
    match k.status with
    | .printed _ wheel _ => wheel ≠ s.seq.wheelCode
    | _ => false)

/-- The entry once its LIFT orders are placed (R100). -/
def Entry.lifting (e : Entry) (n : Nat) : Entry :=
  { e with strikes := e.strikes.filter (fun k => k.status ≠ .waiting), outstanding := n, liftSkipped := false }

/-- An entry lifted (R100): its waiting orders are cancelled, its LIFT orders appended, and the logical
position becomes its position. -/
def State.liftEntry (s : State) (e : Entry) : State :=
  let lifts := s.liftOrders e
  let t := { s with
    line := s.line.change e.seqNum (fun e => e.lifting lifts.length)
    seq := s.seq.withQueue (withoutOrders e.seqNum s.seq.queue)
    comp := { s.comp with logical := e.pos } }
  (t.appendOrders lifts).textChanged s.atBoundary

/-- What a correction step does with its target (R97 to R100). -/
inductive CorrectStep where
  | wait (c : WaitCause)
  | wrongWheel
  | cancel
  | lift
  deriving DecidableEq, Repr

/-- The step for a target, by its state (R97 to R100). -/
def State.correctStep (s : State) (e : Entry) : CorrectStep :=
  match e.state with
  | .inFlight => .wait .inFlight
  | .queued => .cancel
  | .lifting => .cancel
  | .inked =>
    if e.strikes.isEmpty then .cancel
    else if s.otherWheel e then .wrongWheel
    else if (withoutOrders e.seqNum s.seq.queue).length + (s.liftOrders e).length ≤ queuePlaces then .lift
    else .wait .room

/-! ### The correction keys in DIRECT -/

/-- CORRECT in DIRECT (R96 to R100). -/
def State.directCorrect (s : State) : Eval :=
  match s.correctTarget with
  | none => s.refuseCorrect s.noTargetReason
  | some e =>
    match s.correctStep e with
    | .wait c => .waits s c
    | .wrongWheel => s.refuseCorrect .wrongWheel
    | .cancel => .taken (s.cancelEntry e)
    | .lift => .taken (s.liftEntry e)

/-- The phase in which a run takes its target, none when the run ends there (R102, R103). -/
def RunPhase.next : RunPhase → EntryKind → Option RunPhase
  | .spaces, .space => some .spaces
  | .spaces, _ => some .word
  | .word, .space => none
  | .word, _ => some .word
  | .all, _ => some .all

/-- A correction run goes on from its phase (R102 to R104): step after step until it ends, is refused or
waits. -/
def State.correctRun : Nat → State → CorrectionRun → Eval
  | 0, s, _ => .taken s
  | n + 1, s, r =>
    match s.correctTarget with
    | none => if r.stepped then .taken s else s.refuseCorrect s.noTargetReason
    | some e =>
      match r.phase.next e.kind with
      | none => .taken s
      | some p =>
        match s.correctStep e with
        | .wait c => .waits { s with line := { s.line with run := some ⟨p, r.stepped⟩ } } c
        | .wrongWheel => s.refuseCorrect .wrongWheel
        | .cancel => State.correctRun n (s.cancelEntry e) ⟨p, true⟩
        | .lift => State.correctRun n (s.liftEntry e) ⟨p, true⟩

/-- WORD_CORRECT or LINE_CORRECT in DIRECT (R102, R103): a run starts in its phase, or the run in progress
goes on (R104). -/
def State.directRun (s : State) (start : RunPhase) : Eval :=
  s.correctRun (s.line.entries.length + 1) (s.line.run.getD ⟨start, false⟩)

/-- The relocation position (R105). -/
def State.relocation (s : State) : Nat :=
  match s.correctTarget with
  | some e => e.pos + e.adv
  | none => s.comp.left

/-- RELOCATE in DIRECT (R105). -/
def State.directRelocate (s : State) : Eval :=
  s.withRoom 1 (fun s =>
    State.appendOrders { s with comp := { s.comp with logical := s.relocation } } [.move (min lastPosition s.relocation)])

end Sys2Proof.Machine
end

