-- ==== Sys2Proof/Machine/Composer.lean ====
section
/-! DEFINITION. The Composer (chapter 2): placing characters in DIRECT, the composition buffer, releases and
word wrap, line ends, tab stops, the key functions and the remote controls, each as the evaluation of an
item (R28). -/

namespace Sys2Proof.Machine

/-! ### Shared effects -/

/-- The hot-zone check of a character taken or inserted at `p` (R33). -/
def State.hotZoneCheck (s : State) (p : Nat) : State :=
  if s.comp.right ≤ p + 60 ∧ !s.comp.flags.hotZone then
    (State.signal { s with comp := { s.comp with flags := { s.comp.flags with hotZone := true } } } .bell).event (.hotZone p)
  else s

/-- The logical position recomputed in LINE as the cursor position (R22). -/
def State.syncCursor (s : State) : State :=
  match s.comp.modeInEffect with
  | .line => { s with comp := { s.comp with logical := s.cursorPosition } }
  | .direct => s

/-! ### Line ends in DIRECT (R34) -/

/-- The line ends (R34): RETURN or the automatic return, CR, LF, FF, and the paper keys with their signed
half-lines. -/
inductive LineEnd where
  | full | cr | lf | ff
  | paper (halfLines : Int)
  deriving DecidableEq, Repr

/-- The orders of a line end (R34), with the margin and line spacing in force. -/
def LineEnd.orders (left spacing : Nat) : LineEnd → List Order
  | .full => [.move left, .index spacing]
  | .cr => [.move left]
  | .lf => [.index spacing]
  | .ff => [.indexPage]
  | .paper n => [.index n]

/-- The places a line end needs (R34). -/
def LineEnd.places : LineEnd → Nat
  | .full => 2
  | _ => 1

/-- Whether a line end returns the carriage and counts a line (R34). -/
def LineEnd.returns : LineEnd → Bool
  | .full => true
  | .cr => true
  | _ => false

/-- A line end taken (R34, R95, R113). -/
def State.lineEnd (s : State) (k : LineEnd) : State :=
  let s := s.spellLineEnd.emptyRecord
  let s := State.reachBoundary { s with comp := { s.comp with flags := .clear } }
  let s := s.appendOrders (k.orders s.comp.left s.set.lineSpacing)
  let s := if k.returns then
      State.raise { s with comp := { s.comp with logical := s.comp.left } } .lines else s
  s.moveWindow

/-- A line end evaluated (R34). -/
def State.evalLineEnd (s : State) (k : LineEnd) : Eval := s.withRoom k.places (fun s => s.lineEnd k)

/-! ### Placing a character in DIRECT (R29 to R33) -/

/-- The kind of an entry (R29). -/
def entryKind (code : Byte) (isDead : Bool) : EntryKind :=
  if isDead then .dead else if code = spaceCode then .space else .char

/-- The held advance of a character now (R48). -/
def State.advance (s : State) (code : Byte) (isDead : Bool) : Nat :=
  heldAdvance s.comp.pitch (s.wheelEntry code) (s.spaceWidth.getD 0) isDead code

/-- Whether a DIRECT character gains underscores (R52, R53). -/
def State.gainsInDirect (s : State) (kind : EntryKind) (underline : Bool) : Bool :=
  match kind with
  | .space =>
    underline &&
      (match lastWhere (fun e => e.kind = EntryKind.char) s.line.entries with
        | some e => e.strikes.any (fun k => k.role = .underscore)
        | none => false)
  | _ => underline

/-- The strike set of a character placed at the logical position (R55). -/
def State.directStrikes (s : State) (code : Byte) (isDead bold underline : Bool) : List Strike :=
  let kind := entryKind code isDead
  s.strikeSet code (kind = .space) bold (s.gainsInDirect kind underline) s.comp.logical (s.advance code isDead)

/-- A character taken in DIRECT (R29, step 6): orders, entry, logical position, hot zone, spelling. The removal of the
oldest entry at the 201st append and the append itself are one change of n for the window tests of R133 (log entry 67). -/
def State.takeDirect (s : State) (code : Byte) (isDead bold underline : Bool) : State :=
  let kind := entryKind code isDead
  let p := s.comp.logical
  let adv := s.advance code isDead
  let was := s.atBoundary
  let t := (s.appendEntry code kind p adv (s.directStrikes code isDead bold underline)).kick
  let t := { t with comp := { t.comp with logical := p + adv } }
  let t := if kind = .space then t else t.hotZoneCheck p
  t.textChanged was

/-- A character laid out and taken when there is room (R29, steps 4 to 6). -/
def State.placeDirect (s : State) (code : Byte) (isDead bold underline : Bool) : Eval :=
  s.withRoom (inTravel (s.directStrikes code isDead bold underline)).length
    (fun s => s.takeDirect code isDead bold underline)

/-- Whether a code is ABSENT from the active wheel map (R30); the space never is (R3). -/
def State.isAbsent (s : State) (code : Byte) (isDead : Bool) : Bool :=
  entryKind code isDead ≠ .space && s.wheelEntry code = some .absent

/-- Whether a character cannot be placed for want of a wheel map (R30). -/
def State.noWidth (s : State) : Bool := s.comp.pitch = .ps && (s.active .wheelMap).isNone

/-- The limit of a character from a key (R31). -/
def State.keyLimit (s : State) : Nat := if s.comp.flags.marginReleased then 1560 else s.comp.right

/-- A printable character from a key in DIRECT (R29 to R31). -/
def State.directKeyChar (s : State) (code : Byte) (isDead : Bool) : Eval :=
  if s.isAbsent code isDead then .refused (s.raise .unprintable)
  else if s.noWidth then .refused s
  else if s.keyLimit < s.comp.logical + s.advance code isDead then .refused s
  else s.placeDirect code isDead s.comp.bold s.comp.underline

/-- A remote ABSENT code (R30): the position advances, and one event a line tells of it. It is taken, so no REFUSED
signal is asked for, although R141 counts EVENT UNPRINTABLE among the events that refusals carry (log entry 49). -/
def State.advanceAbsent (s : State) (code : Byte) : State :=
  let p := s.comp.logical
  let s := State.raise { s with comp := { s.comp with logical := p + s.advance code false } } .unprintable
  let s := if s.comp.flags.unprintableReported then s
    else State.event { s with comp := { s.comp with flags := { s.comp.flags with unprintableReported := true } } } (.unprintable code)
  s.hotZoneCheck p

/-- A remote character past the margin check (R29, R30). -/
def State.placeRemote (s : State) (code : Byte) : Eval :=
  if s.noWidth then .waits s .wheelMap
  else if s.isAbsent code false then .taken (s.advanceAbsent code)
  else s.placeDirect code false false false

/-- A remote character discarded at the margin (R32), before its signal (R28). -/
def State.discardPastMargin (s : State) : State :=
  let s := s.raise .textOverruns
  if s.comp.flags.pastMargin then s
  else State.event { s with comp := { s.comp with flags := { s.comp.flags with pastMargin := true } } } .textPastMargin

/-- After the automatic return (R32): a space is discarded without a signal (log entry 49), any other character is
placed, unless the boundary has taken the source away from remote text (log entry 21). -/
def State.afterAutoReturn (s : State) (code : Byte) : Eval :=
  if code = spaceCode then .taken s
  else
    match s.comp.source with
    | .remoteText => s.placeRemote code
    | .localKeys => .waits s .room

/-- A printable remote character (R29, R30, R32). -/
def State.remoteChar (s : State) (code : Byte) : Eval :=
  if s.noWidth then .waits s .wheelMap
  else if s.comp.right < s.comp.logical + s.advance code false then
    if s.set.autoReturn then
      if s.hasRoom 2 then (s.lineEnd .full).afterAutoReturn code else .waits s .room
    else .refused s.discardPastMargin
  else s.placeRemote code

/-! ### Backspace and tab in DIRECT (R35, R46) -/

/-- The step back (R35). -/
def State.backStep (s : State) : Nat :=
  match s.comp.pitch.advance with
  | some a => a
  | none =>
    match lastWhere (fun e => e.adv ≠ 0 && e.pos + e.adv = s.comp.logical) s.line.entries with
    | some e => e.adv
    | none => s.spaceWidth.getD 12

/-- BACKSPACE in DIRECT and remote BS (R35): at 0 there is no effect. -/
def State.backspaceDirect (s : State) : State :=
  if s.comp.logical = 0 then s
  else State.markBoundary { s with comp := { s.comp with logical := s.comp.logical - s.backStep } }

/-- The stop that a TAB in DIRECT moves to (R46). -/
def State.directStop (s : State) : Option TabStop := nextStop s.comp.tabs s.comp.logical s.comp.right

/-- A TAB in DIRECT that found its stop (R46). -/
def State.tabTo (s : State) (t : TabStop) : State :=
  State.markBoundary { s with comp := { s.comp with logical := t.pos } }

/-! ### The composition buffer (R39, R40) -/

/-- The most records of the composition buffer (R39). -/
def recPlaces : Nat := 200

/-- The composition changed: the cursor position, the words, the window and the boundary follow (R22, R40). -/
def State.editRecs (s : State) (recs : List CompRec) (cursor : Nat) : State :=
  (State.syncCursor { s with comp := { s.comp with recs := recs, cursor := cursor } }).textChanged s.atBoundary

/-- The cursor moved (R40). -/
def State.moveCursor (s : State) (c : Nat) : State :=
  (State.syncCursor { s with comp := { s.comp with cursor := c } }).moveWindow

/-- The records with one inserted at the cursor (R39). -/
def State.withRec (s : State) (c : CompRec) : List CompRec := insertAt s.comp.recs s.comp.cursor c

/-- What an insertion comes to (R39, R46). -/
inductive Insertion where
  | fits | overflow | fails
  deriving DecidableEq, Repr

/-- An insertion judged (R39, R46). -/
def State.judgeInsert (s : State) (c : CompRec) : Insertion :=
  if recPlaces ≤ s.comp.recs.length then .overflow
  else
    match s.natural (s.withRec c) with
    | none => .fails
    | some places => if naturalWidth s.comp.left (s.withRec c) places ≤ s.lineLength then .fits else .overflow

/-- The place of the record at an index in the natural layout. -/
def State.placeOf (s : State) (i : Nat) : Nat :=
  match s.natural s.comp.recs with
  | none => s.comp.left
  | some places => ((places[i]?).map Prod.fst).getD s.comp.left

/-- A record inserted (R39), with the hot-zone check of a CHAR or DEAD record (R33). -/
def State.insertRec (s : State) (c : CompRec) : State :=
  let i := s.comp.cursor
  let t := s.editRecs (s.withRec c) (i + 1)
  if c.kind = .char ∨ c.kind = .dead then t.hotZoneCheck (t.placeOf i) else t

/-- The record kind of a printable character (R39). -/
def recKind (code : Byte) (isDead : Bool) : RecKind :=
  if isDead then .dead else if code = spaceCode then .space else .char

/-- The record of a printable character typed now (R39). -/
def State.newRec (s : State) (code : Byte) (isDead : Bool) : CompRec :=
  ⟨code, recKind code isDead, s.comp.bold, s.comp.underline, s.advance code isDead, none⟩

/-- The TAB record typed now (R39, R46). -/
def State.newTab (s : State) : CompRec := ⟨0x09, .tab, s.comp.bold, s.comp.underline, 0, none⟩

/-! ### Release (R41, R129) -/

/-- The words of the first `n` records that a release judges (R129). -/
def State.releaseWords (s : State) (n : Nat) : List SpellWord :=
  s.spell.words.filter (fun w => !w.detached && w.last < n)

/-- The first of some words in text order. -/
def firstInText : List SpellWord → Option SpellWord
  | [] => none
  | w :: l =>
    match firstInText l with
    | none => some w
    | some v => if w.first ≤ v.first then some w else some v

/-- What hold on miss says of a release of the first `n` records (R129). -/
inductive Held where
  | pass | wait
  | held (first : SpellWord) (count : Nat)
  deriving DecidableEq, Repr

/-- The judgement of hold on miss (R129). -/
def State.judgeHold (s : State) (n : Nat) (override : Bool) : Held :=
  if !s.set.holdOnMiss || override then .pass
  else if (s.releaseWords n).any (fun w => w.verdict = .pending) then .wait
  else
    let misses := (s.releaseWords n).filter (fun w => w.verdict = .miss)
    match firstInText misses with
    | some w => .held w misses.length
    | none => .pass

/-- A release refused by hold on miss (R129), before its signal. -/
def State.holdRelease (s : State) (w : SpellWord) (count : Nat) (fromReturn : Bool) : State :=
  let s := s.event (.releaseHeld w.num count)
  State.moveCursor { s with comp := { s.comp with override := fromReturn || s.comp.override } } (w.last + 1)

/-- A release carried out (R41, steps 3 and 4): the first `n` records go out, and `carried` is the new
composition, taken up after the empty one. -/
def State.releaseRecs (s : State) (n : Nat) (carried : List CompRec) : State :=
  let recs := s.comp.recs.take n
  let laid := s.applyChoice s.comp.choice recs ((s.natural recs).getD [])
  let out : Outgoing := ⟨s.placementsFrom recs 0 laid.placed, s.comp.left, s.set.lineSpacing⟩
  let s := match laid.abandoned with
    | some (k, e) => s.event (.justifyAbandoned k e)
    | none => s
  let s := s.retireWords (fun w => w.last < n)
  let s := State.raise { s with comp := { s.comp with
    outgoing := some out, recs := [], cursor := 0, choice := s.set.justify, flags := .clear, override := false } } .lines
  let s := s.moveWindow
  (State.syncCursor { s with comp := { s.comp with recs := carried, cursor := carried.length } }).followText

/-- What a release request comes to (R41): the state, and whether it was carried out, waits or is
refused. -/
inductive Release where
  | done (s : State)
  | wait (s : State) (c : WaitCause)
  | refused (s : State)

/-- A release of the first `n` records evaluated (R41). -/
def State.evalRelease (s : State) (n : Nat) (carried : List CompRec) (fromReturn : Bool) : Release :=
  if s.comp.outgoing.isSome then .wait s .outgoing
  else
    let s := (s.completeWords (fun w => w.last < n)).spellOn
    match s.judgeHold n (fromReturn && s.comp.override) with
    | .wait => .wait s .verdict
    | .held w count => .refused (s.holdRelease w count fromReturn)
    | .pass => .done (s.releaseRecs n carried)

/-! ### Insertion and word wrap (R39, R43) -/

/-- An insertion that may not wrap (R39, R46). -/
def State.insertOrRefuse (s : State) (c : CompRec) : Eval :=
  match s.judgeInsert c with
  | .fits => .taken (s.insertRec c)
  | _ => .refused s

/-- The index of the break of a composition (R43): its last SPACE record with a non-SPACE record before
it. -/
def wrapBreak (recs : List CompRec) : Option Nat :=
  match lastIndexWhere (fun c => c.kind = RecKind.space) recs with
  | some i => if (recs.take i).any (fun c => c.kind ≠ .space) then some i else none
  | none => none

/-- The number of records before the dropped spaces (R43). -/
def releasedCount (recs : List CompRec) (brk : Nat) : Nat :=
  ((recs.take brk).reverse.dropWhile (fun c => c.kind = RecKind.space)).length

/-- Word wrap (R43) for an overflowing character. -/
def State.wrap (s : State) (code : Byte) (isDead : Bool) : Eval :=
  match wrapBreak s.comp.recs with
  | none => .refused s
  | some i =>
    let carried := s.comp.recs.drop (i + 1)
    if carried.any (fun c => c.kind = .tab) then .refused s
    else
      match s.evalRelease (releasedCount s.comp.recs i) carried false with
      | .wait t c => .waits t c
      | .refused t => .refused t
      | .done t => t.insertOrRefuse (t.newRec code isDead)

/-- A printable character from a key in LINE (R39, R43). -/
def State.lineKeyChar (s : State) (code : Byte) (isDead : Bool) : Eval :=
  if (s.active .wheelMap).isNone then .refused s
  else if s.isAbsent code isDead then .refused (s.raise .unprintable)
  else
    match s.judgeInsert (s.newRec code isDead) with
    | .fits => .taken (s.insertRec (s.newRec code isDead))
    | .fails => .refused s
    | .overflow =>
      if s.comp.cursor = s.comp.recs.length ∧ s.set.autoReturn then s.wrap code isDead else .refused s

/-! ### Deletions and cursor moves in LINE (R40) -/

/-- A deletion evaluated under the width limit (R40). -/
def State.deleteTo (s : State) (recs : List CompRec) (cursor : Nat) : Eval :=
  if s.fits recs then .taken (s.editRecs recs cursor) else .refused s

/-- The records before the cursor cut back to `n`, and the rest. -/
def State.cutTo (s : State) (n : Nat) : Eval :=
  s.deleteTo (s.comp.recs.take n ++ s.comp.recs.drop s.comp.cursor) n

/-- The record before the cursor deleted (R40). -/
def State.deleteBefore (s : State) : Eval :=
  if s.comp.cursor = 0 then .refused s else s.cutTo (s.comp.cursor - 1)

/-- Where WORD_CORRECT cuts the records before the cursor (R40). -/
def wordCut (before : List CompRec) : Nat :=
  match before.reverse with
  | [] => 0
  | c :: l =>
    if c.kind = .tab then l.length
    else
      (((c :: l).dropWhile (fun d => d.kind = RecKind.space)).dropWhile
        (fun d => d.kind ≠ RecKind.space && d.kind ≠ RecKind.tab)).length

/-- WORD_CORRECT in LINE (R40). -/
def State.deleteWord (s : State) : Eval :=
  if s.comp.cursor = 0 then .refused s else s.cutTo (wordCut (s.comp.recs.take s.comp.cursor))

/-- LINE_CORRECT in LINE (R40). -/
def State.deleteAll (s : State) : Eval :=
  if s.comp.recs.isEmpty then .refused s else s.deleteTo [] 0

/-! ### Tab stops (R44, R45) -/

/-- The most tab stops (R44). -/
def tabPlaces : Nat := 24

/-- A stop added, or its decimal flag set, in order of position (R44). -/
def addStop (tabs : List TabStop) (t : TabStop) : List TabStop :=
  match tabs with
  | [] => [t]
  | u :: l => if t.pos < u.pos then t :: u :: l else if t.pos = u.pos then t :: l else u :: addStop l t

/-- The stop at a position removed. -/
def removeStop (tabs : List TabStop) (x : Nat) : List TabStop := tabs.filter (fun t => t.pos ≠ x)

/-- Whether there is a stop at a position. -/
def hasStop (tabs : List TabStop) (x : Nat) : Bool := tabs.any (fun t => t.pos = x)

/-- The tab stops changed, if the composition stays within its limits (R44, R45). -/
def State.changeTabs (s : State) (tabs : List TabStop) : Option State :=
  let t := { s with comp := { s.comp with tabs := tabs } }
  if t.fits t.comp.recs then some t.syncCursor else none

/-- TAB_SET or DECIMAL_TAB_SET (R44). -/
def State.evalTabSet (s : State) (decimal : Bool) : Eval :=
  let x := s.comp.logical
  if lastPosition < x then .refused s
  else if !hasStop s.comp.tabs x && tabPlaces ≤ s.comp.tabs.length then .refused s
  else
    match s.changeTabs (addStop s.comp.tabs ⟨x, decimal⟩) with
    | some t => .taken t
    | none => .refused s

/-- TAB_CLEAR (R44). -/
def State.evalTabClear (s : State) : Eval :=
  let x := s.comp.logical
  if lastPosition < x ∨ !hasStop s.comp.tabs x then .refused s
  else
    match s.changeTabs (removeStop s.comp.tabs x) with
    | some t => .taken t
    | none => .refused s

/-! ### Margins and settings from keys (R26, R27) -/

/-- The highest left and right margins (R27). -/
def leftMax : Nat := 1439
def rightMax : Nat := 1559

/-- MARGIN_LEFT (R27). -/
def State.evalMarginLeft (s : State) : Eval :=
  let x := s.comp.logical
  if x ≤ leftMax ∧ marginsConsistent x s.comp.comingRight then .taken (s.setLine (.left x)).1 else .refused s

/-- MARGIN_RIGHT (R27). -/
def State.evalMarginRight (s : State) : Eval :=
  let x := s.comp.logical
  if x ≤ rightMax ∧ marginsConsistent s.comp.comingLeft x then .taken (s.setLine (.right x)).1 else .refused s

/-- The next pitch (R37). -/
def Pitch.next : Pitch → Pitch
  | .p10 => .p12 | .p12 => .p15 | .p15 => .ps | .ps => .p10

/-- The other mode. -/
def Mode.toggle : Mode → Mode
  | .direct => .line | .line => .direct

/-- The other source. -/
def Source.toggle : Source → Source
  | .localKeys => .remoteText | .remoteText => .localKeys

/-- The next justify choice (R37). -/
def Justify.next : Justify → Justify
  | .ragged => .justify | .justify => .center | .center => .flushRight | .flushRight => .ragged

/-! ### The target word (R127) -/

/-- The word with the greatest first index below the cursor (R127). -/
def wordBefore (c : Nat) (words : List SpellWord) : Option SpellWord :=
  words.foldl (fun best w =>
    if !w.detached && w.first < c then
      (match best with
        | none => some w
        | some b => if b.first ≤ w.first then some w else some b)
    else best) none

/-- The target word of ADD_WORD and ACCEPT_WORD (R127). -/
def State.targetWord (s : State) : Option SpellWord :=
  match s.comp.modeInEffect with
  | .line => wordBefore s.comp.cursor s.spell.words
  | .direct => lastWhere (fun w => w.complete && !w.detached) s.spell.words

/-! ### The key functions (R37) -/

/-- CHAR from a key (R29, R39); code 0x20 is the SPACE function (R29). -/
def State.evalChar (s : State) (code : Byte) : Eval :=
  match s.comp.modeInEffect with
  | .direct => s.directKeyChar code false
  | .line => s.lineKeyChar code false

/-- DEAD from a key (R12, R29, R39). -/
def State.evalDead (s : State) (code : Byte) : Eval :=
  match s.comp.modeInEffect with
  | .direct => s.directKeyChar code true
  | .line => s.lineKeyChar code true

/-- SPACE (R37). -/
def State.evalSpace (s : State) : Eval := s.evalChar spaceCode

/-- RETURN (R34, R41). -/
def State.evalReturn (s : State) : Eval :=
  match s.comp.modeInEffect with
  | .direct => s.evalLineEnd .full
  | .line =>
    match s.evalRelease s.comp.recs.length [] true with
    | .done t => .taken t
    | .wait t c => .waits t c
    | .refused t => .refused t

/-- BACKSPACE (R35, R40). -/
def State.evalBackspace (s : State) : Eval :=
  match s.comp.modeInEffect with
  | .direct => .taken s.backspaceDirect
  | .line => s.deleteBefore

/-- TAB (R46). -/
def State.evalTab (s : State) : Eval :=
  match s.comp.modeInEffect with
  | .direct =>
    match s.directStop with
    | some t => .taken (s.tabTo t)
    | none => .refused s
  | .line => s.insertOrRefuse s.newTab

/-- MARGIN_RELEASE (R31, R37). -/
def State.evalMarginRelease (s : State) : Eval :=
  match s.comp.modeInEffect with
  | .direct => .taken { s with comp := { s.comp with flags := { s.comp.flags with marginReleased := true } } }
  | .line => .refused s

/-- CORRECT (R40, R96). -/
def State.evalCorrect (s : State) : Eval :=
  match s.comp.modeInEffect with
  | .direct => s.directCorrect
  | .line => s.deleteBefore

/-- WORD_CORRECT (R40, R102). It acts by the mode in effect at each evaluation, also when a run that waits finds
itself in LINE after RESTART MECH (log entry 52). -/
def State.evalWordCorrect (s : State) : Eval :=
  match s.comp.modeInEffect with
  | .direct => s.directRun .spaces
  | .line => s.deleteWord

/-- LINE_CORRECT (R40, R103), by the mode in effect at each evaluation (log entry 52). -/
def State.evalLineCorrect (s : State) : Eval :=
  match s.comp.modeInEffect with
  | .direct => s.directRun .all
  | .line => s.deleteAll

/-- RELOCATE (R40, R105). -/
def State.evalRelocate (s : State) : Eval :=
  match s.comp.modeInEffect with
  | .direct => s.directRelocate
  | .line => .taken (s.moveCursor s.comp.recs.length)

/-- A paper key (R34, R37). -/
def State.evalPaper (s : State) (n : Int) : Eval :=
  match s.comp.modeInEffect with
  | .direct => s.evalLineEnd (.paper n)
  | .line =>
    if s.comp.outgoing.isSome then .waits s .outgoing
    else s.withRoom 1 (fun s => s.appendOrders [.index n])

/-- PITCH_CYCLE (R26, R37). -/
def State.evalPitchCycle (s : State) : Eval :=
  .taken (s.setLine (.pitch (s.comp.later.pitch.getD s.comp.pitch).next)).1

/-- MODE_TOGGLE (R26, R37). -/
def State.evalModeToggle (s : State) : Eval :=
  .taken (s.setLine (.mode (s.comp.later.mode.getD s.comp.mode).toggle)).1

/-- SOURCE_TOGGLE (R26, R37). -/
def State.evalSourceToggle (s : State) : Eval :=
  .taken (s.setLine (.source (s.comp.later.source.getD s.comp.source).toggle)).1

/-- JUSTIFY_CYCLE (R37). -/
def State.evalJustifyCycle (s : State) : Eval :=
  match s.comp.modeInEffect with
  | .direct => .refused s
  | .line => .taken { s with comp := { s.comp with choice := s.comp.choice.next } }

/-- SPELL_TOGGLE (R37, R124). -/
def State.evalSpellToggle (s : State) : Eval := .taken (s.setSpell (!s.set.spell))

/-- ACCEPT_WORD (R127, R128). -/
def State.evalAcceptWord (s : State) : Eval :=
  match s.targetWord with
  | some w => if w.verdict = .miss then .taken (s.setVerdict w.num .accepted) else .refused s
  | none => .refused s

/-- ADD_WORD (R127). -/
def State.evalAddWord (s : State) : Eval :=
  match s.targetWord with
  | none => .refused s
  | some w =>
    if w.digit ∨ w.length < 2 ∨ wordLetters < w.length then .refused s
    else if s.spell.users.contains w.letters then .taken s
    else if userPlaces ≤ s.spell.users.length then .refused s
    else .taken (s.addUserWord w.letters)

/-- CURSOR_LEFT (R37, R40). -/
def State.evalCursorLeft (s : State) : Eval :=
  match s.comp.modeInEffect with
  | .direct => .refused s
  | .line => if s.comp.cursor = 0 then .refused s else .taken (s.moveCursor (s.comp.cursor - 1))

/-- CURSOR_RIGHT (R37, R40). -/
def State.evalCursorRight (s : State) : Eval :=
  match s.comp.modeInEffect with
  | .direct => .refused s
  | .line => if s.comp.recs.length ≤ s.comp.cursor then .refused s else .taken (s.moveCursor (s.comp.cursor + 1))

/-- BOLD_TOGGLE (R38). -/
def State.evalBold (s : State) : Eval := .taken { s with comp := { s.comp with bold := !s.comp.bold } }

/-- UNDERLINE_TOGGLE (R38). -/
def State.evalUnderline (s : State) : Eval := .taken { s with comp := { s.comp with underline := !s.comp.underline } }

/-- The PAUSE key (R83, R84): it asks for a pause, or resumes when PAUSED. -/
def State.evalPause (s : State) (paper : Bool) : Eval :=
  if s.seq.state = .paused then
    match s.askResume paper with
    | some t => .taken t
    | none => .refused s
  else .taken (s.askPause .key)

/-- Whether REMOTE source carries out a key action (R23). -/
def KeyAction.remoteAllowed : KeyAction → Bool
  | .func .pause => true
  | .func .paperUp => true
  | .func .paperDown => true
  | .func .halfUp => true
  | .func .halfDown => true
  | .func .sourceToggle => true
  | _ => false

/-- The evaluation of a function key action (R37). SHIFT, CODE and SHIFT_LOCK never reach the Composer. -/
def State.evalFunc (s : State) (paper : Bool) : Func → Eval
  | .shift => .taken s
  | .code => .taken s
  | .shiftLock => .taken s
  | .space => s.evalSpace
  | .returnKey => s.evalReturn
  | .backspace => s.evalBackspace
  | .tab => s.evalTab
  | .marginLeft => s.evalMarginLeft
  | .marginRight => s.evalMarginRight
  | .marginRelease => s.evalMarginRelease
  | .tabSet => s.evalTabSet false
  | .tabClear => s.evalTabClear
  | .decimalTabSet => s.evalTabSet true
  | .correct => s.evalCorrect
  | .wordCorrect => s.evalWordCorrect
  | .lineCorrect => s.evalLineCorrect
  | .relocate => s.evalRelocate
  | .paperUp => s.evalPaper s.set.lineSpacing
  | .paperDown => s.evalPaper (-(s.set.lineSpacing : Int))
  | .halfUp => s.evalPaper 1
  | .halfDown => s.evalPaper (-1)
  | .pitchCycle => s.evalPitchCycle
  | .modeToggle => s.evalModeToggle
  | .justifyCycle => s.evalJustifyCycle
  | .spellToggle => s.evalSpellToggle
  | .acceptWord => s.evalAcceptWord
  | .addWord => s.evalAddWord
  | .cursorLeft => s.evalCursorLeft
  | .cursorRight => s.evalCursorRight
  | .boldToggle => s.evalBold
  | .underlineToggle => s.evalUnderline
  | .pause => s.evalPause paper
  | .sourceToggle => s.evalSourceToggle

/-- The evaluation of a key action (R23, R28, R37). -/
def State.evalKey (s : State) (paper : Bool) (a : KeyAction) : Eval :=
  if s.comp.source = .remoteText ∧ !a.remoteAllowed then .refused s
  else
    match a with
    | .char c => s.evalChar c
    | .dead c => s.evalDead c
    | .func f => s.evalFunc paper f

/-! ### Remote controls (R36) -/

/-- A remote code evaluated (R29, R36). A control code that is discarded and counted asks for no REFUSED signal: R36
calls it discarded and not refused (log entry 49). -/
def State.evalText (s : State) (code : Byte) : Eval :=
  if 0x20 ≤ code.toNat then s.remoteChar code
  else if code = 0x0D then s.evalLineEnd .cr
  else if code = 0x0A then s.evalLineEnd .lf
  else if code = 0x0C then s.evalLineEnd .ff
  else if code = 0x08 then .taken s.backspaceDirect
  else if code = 0x09 then
    match s.directStop with
    | some t => .taken (s.tabTo t)
    | none => .taken (s.raise .unmappedControls)
  else .taken (s.raise .unmappedControls)

/-! ### The outgoing line (R42) -/

/-- The head placement of the outgoing line enters the print queue, if there is room (R42, R54). -/
def State.streamPlacement (s : State) : State :=
  match s.comp.outgoing with
  | some ⟨p :: rest, left, spacing⟩ =>
    if s.hasRoom (inTravel p.strikes).length then
      State.kick (State.appendStrikes { s with comp := { s.comp with outgoing := some ⟨rest, left, spacing⟩ } } none p.strikes)
    else s
  | _ => s

/-- The outgoing line ends (R42): its MOVE and INDEX enter the print queue together, and a boundary may be
reached (R25). -/
def State.endOutgoing (s : State) : State :=
  match s.comp.outgoing with
  | some ⟨[], left, spacing⟩ =>
    if s.hasRoom 2 then
      (State.appendOrders { s with comp := { s.comp with outgoing := none } } [.move left, .index spacing]).boundaryAfter
        s.atBoundary
    else s
  | _ => s

end Sys2Proof.Machine
end

