-- ==== Sys2Proof/Machine/KeyIntake.lean ====
section
/-! DEFINITION. Key Intake (R14 to R21), the taking of items from the two feeds (R16, R23, R28) and the
evaluation again of items that wait (R28). -/

namespace Sys2Proof.Machine

/-! ### Typematic repeat (R19 to R21) -/

/-- A typematic repeat ends, a repeat already made standing (R20, R21). -/
def Intake.endRepeat (k : Intake) : Intake := { k with timer := none }

/-- A typematic repeat ends and a pending repeat is withdrawn (R21). -/
def Intake.withdraw (k : Intake) : Intake := { k with timer := none, pendingRepeat := none }

/-- The countdown or the periodic timer expires (R19): a repeat is made unless one is pending, and the
periodic timer runs on. -/
def State.repeatExpiry (s : State) (periodic : Bool) : State :=
  match s.intake.timer with
  | some t =>
    if t.periodic = periodic then
      { s with intake := { s.intake with
          pendingRepeat := some (s.intake.pendingRepeat.getD t.action)
          timer := some { t with periodic := true } } }
    else s
  | none => s

/-! ### Key events at the head (R15 to R17) -/

/-- Whether some held key carries a function. -/
def Intake.holds (k : Intake) (f : Func) : Bool :=
  k.held.any (fun (_, e) => match e with | .func g _ => g = f | _ => false)

/-- The current layer (R15). -/
def Intake.layer (k : Intake) : Layer :=
  if k.holds .code then .code
  else if k.holds .shift || k.shiftLock then .shift
  else .normal

/-- A key entered in the held-key state (R15); the new entry replaces one held before. -/
def Intake.hold (k : Intake) (key : Nat) (e : KeyEntry) : Intake :=
  { k with held := k.held.filter (fun (n, _) => n ≠ key) ++ [(key, e)] }

/-- A key taken out of the held-key state (R17). -/
def Intake.release (k : Intake) (key : Nat) : Intake :=
  { k with
    held := k.held.filter (fun (n, _) => n ≠ key)
    timer := match k.timer with
      | some t => if t.key = key then none else some t
      | none => none }

/-- The key number of a key event (R172). -/
def keyOf (b : Byte) : Nat := b.toNat % 128

/-- Whether a key event is a release (R172). -/
def isRelease (b : Byte) : Bool := 128 ≤ b.toNat

/-- The first key number without a key (R16). -/
def keyCount : Nat := 96

/-- The head event removed from the key queue. -/
def State.popKey (s : State) : State := { s with keyq := { s.keyq with queue := s.keyq.queue.tail } }

/-- A press offered to the Composer (R16). -/
def State.offer (s : State) (o : Offered) : State := { s with intake := { s.intake with offered := some o } }

/-- A press resolved to its entry (R15, R16): entered as held, and acted on by its kind. -/
def State.resolvePress (s : State) (key : Nat) (e : KeyEntry) : State :=
  let s := { s with intake := s.intake.endRepeat.hold key e }
  match e with
  | .none => s.popKey
  | .func .shift _ => State.popKey { s with intake := { s.intake with shiftLock := false } }
  | .func .code _ => s.popKey
  | .func .shiftLock _ => State.popKey { s with intake := { s.intake with shiftLock := !s.intake.shiftLock } }
  | .char c r => s.offer ⟨key, .char c, r⟩
  | .dead c => s.offer ⟨key, .dead c, false⟩
  | .func f r => s.offer ⟨key, .func f, r⟩

/-- A press with no active key map (R14). -/
def State.pressUnmapped (s : State) : State :=
  State.signal ((State.popKey { s with intake := s.intake.endRepeat }).raise .noKeymap) .refused

/-- A press at the head of the key queue (R14 to R16). -/
def State.pressHead (s : State) (key : Nat) : State :=
  if keyCount ≤ key then s.popKey
  else
    match s.activeBase .keyMap with
    | none => s.pressUnmapped
    | some b => s.resolvePress key (keyEntryAt s.tab.mem b s.intake.layer key)

/-- The press at the head handled (R16); one already offered waits for the Composer. -/
def State.keyPressed (s : State) : State :=
  match s.keyq.queue with
  | b :: _ => if isRelease b ∨ s.intake.offered.isSome then s else s.pressHead (keyOf b)
  | [] => s

/-- The release at the head handled (R16, R17). -/
def State.keyReleased (s : State) : State :=
  match s.keyq.queue with
  | b :: _ => if isRelease b then State.popKey { s with intake := s.intake.release (keyOf b) } else s
  | [] => s

/-! ### The key action offered (R16, R19) -/

/-- The key action the Composer takes next (R16): a pending repeat before the press at the head. -/
def State.selected (s : State) : Option KeyAction :=
  match s.intake.pendingRepeat with
  | some a => some a
  | none => s.intake.offered.map Offered.action

/-- Whether a key action is ready to be evaluated (R23). -/
def State.keyReady (s : State) : Bool := s.selected.isSome && s.comp.keyWait = none

/-- The countdown that the taking of a press starts (R19). -/
def Intake.startCountdown (k : Intake) (o : Offered) : Option Typematic :=
  if o.rep && k.held.any (fun (n, _) => n = o.key) then some ⟨o.key, o.action, false⟩ else k.timer

/-- The selected key action leaves Key Intake (R16, R19). -/
def State.dropSelected (s : State) : State :=
  match s.intake.pendingRepeat with
  | some _ => { s with intake := { s.intake with pendingRepeat := none } }
  | none =>
    match s.intake.offered with
    | some o => State.popKey { s with intake := { s.intake with offered := none, timer := s.intake.startCountdown o } }
    | none => s

/-- The Composer has taken a key action (R16, R19, R104, R129): any action but RETURN clears the override
flag. -/
def State.takeKey (s : State) (a : KeyAction) : State :=
  State.dropSelected { s with
    comp := { s.comp with keyWait := none, override := a = .func .returnKey && s.comp.override }
    line := { s.line with run := none } }

/-- The evaluation of a key action brought to its end (R28): the action is taken, or waits. -/
def Eval.finishKey (e : Eval) (a : KeyAction) : State :=
  match e.wait with
  | none => e.state.takeKey a
  | some c => { e.state with comp := { e.state.comp with keyWait := some c } }

/-! ### The text item (R23, R28, R175) -/

/-- The Composer removes the head of the remote text queue (R23, R175). -/
def State.takeText (s : State) : State :=
  { s with
    txt := { s.txt with queue := s.txt.queue.tail, unsent := s.txt.unsent + 1 }
    comp := { s.comp with textWait := none } }

/-- What a text item that is not taken waits on: nothing once the source is LOCAL, when the queue is not
drained (R23). -/
def Composer.storeTextWait (c : Composer) (w : WaitCause) : Composer :=
  match c.source with
  | .remoteText => { c with textWait := some w }
  | .localKeys => { c with textWait := none }

/-- The evaluation of a remote character brought to its end (R28). -/
def Eval.finishText (e : Eval) : State :=
  match e.wait with
  | none => e.state.takeText
  | some c => { e.state with comp := e.state.comp.storeTextWait c }

/-! ### Waiting items evaluated again (R28) -/

/-- Whether a step from `pre` to `s` changed what an item waits on (R28). -/
def State.fired (pre s : State) : WaitCause → Bool
  | .room => s.seq.queue.length < pre.seq.queue.length
  | .outgoing => pre.comp.outgoing.isSome && s.comp.outgoing.isNone
  | .verdict =>
    s.set.holdOnMiss ≠ pre.set.holdOnMiss ||
      pre.spell.words.any (fun w => w.verdict = .pending &&
        !s.spell.words.any (fun v => v.num = w.num && v.verdict = .pending))
  | .wheelMap => (s.active .wheelMap).isSome && s.active .wheelMap ≠ pre.active .wheelMap
  | .inFlight => pre.seq.flight.isSome && (s.seq.flight.isNone || s.seq.queue.head? ≠ pre.seq.queue.head?)

/-- The key action that waits evaluated again, when its cause has changed, or `anew` in any case (R28). -/
def State.settleKey (pre s : State) (anew : Bool := false) : State :=
  match s.comp.keyWait, s.selected with
  | some c, some a =>
    if pre.comp.keyWait = some c ∧ (anew ∨ pre.fired s c) then (s.evalKey false a).finishKey a else s
  | _, _ => s

/-- The remote character that waits evaluated again, after the key action (R23, R28). `mid` is the state
before the key action was evaluated. While another key action is ready it comes first: the character waits on
nothing any more, and its row evaluates it after that key action (log entry 19). -/
def State.settleText (pre mid s : State) (anew : Bool := false) : State :=
  match s.comp.textWait, s.txt.queue with
  | some c, code :: _ =>
    if pre.comp.textWait = some c ∧ (anew ∨ pre.fired mid c ∨ pre.fired s c) then
      if s.keyReady then { s with comp := { s.comp with textWait := none } } else (s.evalText code).finishText
    else s
  | _, _ => s

/-- The end of a step that began in `pre` (R28, R136): waiting items are evaluated again, the key action once more
where the character has changed what it waits on, and the image follows. `anew` is for RESTART MECH, after which an
item that waits is evaluated against the state it finds, whatever it waits on (R28). -/
def State.settle (s pre : State) (anew : Bool := false) : State :=
  let k := pre.settleKey s anew
  (k.settleKey (pre.settleText s k anew)).formImage

/-! ### Rows of the two feeds -/

/-- A row of a key action (R28): it acts when that action is the one offered and does not wait already. -/
def State.keyRow (s : State) (accepts : KeyAction → Bool) (paper : Bool := true) : State :=
  match s.selected with
  | some a =>
    if accepts a ∧ s.comp.keyWait = none then ((s.evalKey paper a).finishKey a).settle s else s
  | none => s

/-- A row of one key function. -/
def State.funcRow (s : State) (f : Func) (paper : Bool := true) : State :=
  s.keyRow (fun a => a = .func f) paper

/-- A row of remote text (R23): it acts in REMOTE source on the code at the head of the queue, when that code
does not wait already and no key action is ready. -/
def State.textRow (s : State) (accepts : Byte → Bool) : State :=
  match s.txt.queue with
  | code :: _ =>
    if s.comp.source = .remoteText ∧ accepts code ∧ s.comp.textWait = none ∧ !s.keyReady then
      (s.evalText code).finishText.settle s
    else s
  | [] => s

end Sys2Proof.Machine
end

