-- ==== Sys2Proof/Machine/Link.lean ====
section
/-! DEFINITION. The queues, the credit and the return line of the Link Interface (R173 to R178), and what
leaving and entering LOCKED does (R170, R171). -/

namespace Sys2Proof.Machine

/-! ### The key queue (R173) -/

/-- The places of the key queue (R173). -/
def keyPlaces : Nat := 16

/-- A key event appended, or dropped from a full queue (R173). -/
def State.appendKey (s : State) (b : Byte) : State :=
  if s.keyq.queue.length < keyPlaces then
    { s with keyq := ⟨s.keyq.queue ++ [b], false⟩ }
  else
    let t := (s.raise .keyOverflows).signal .refused
    if s.keyq.overflowRun then t
    else State.event { t with keyq := { t.keyq with overflowRun := true } } .keyOverflow

/-- The events of a KEY block appended in payload order (R172, R173). -/
def State.appendKeys (s : State) (l : List Byte) : State := l.foldl State.appendKey s

/-! ### Remote text and credit (R174, R175) -/

/-- The places of the remote text queue (R174). -/
def textPlaces : Nat := 96

/-- A TEXT block charged against the balance (R174). -/
def State.chargeText (s : State) (l : List Byte) : State :=
  let n := min l.length s.txt.balance
  let t := { s with txt := { s.txt with queue := s.txt.queue ++ l.take n, balance := s.txt.balance - n } }
  if l.length = n then t
  else (t.raise .textOverruns (l.length - n)).event (.textOverrun (l.length - n))

/-- A restatement of the credit (R175). -/
def TextLink.restated (t : TextLink) : TextLink :=
  { t with balance := 0, unsent := textPlaces - t.queue.length, restate := true }

/-- The credit restated (R175). -/
def State.restateCredit (s : State) : State := { s with txt := s.txt.restated }

/-! ### Leaving and entering LOCKED (R18, R170, R171) -/

/-- Key Intake when the receiver leaves LOCKED (R18). -/
def Intake.unlocked (k : Intake) : Intake := { k.withdraw with held := [], shiftLock := false }

/-- The receiver leaves LOCKED (R18, R171). A repeat that waited at the Composer is withdrawn with its wait, and a
correction run that it had begun is abandoned (R104, log entry 39). -/
def State.leaveLocked (s : State) : State :=
  let t := (State.event { s with rx := { s.rx with sync := .hunt } } .linkLost).raise .syncLosses
  let withdrawn := t.intake.pendingRepeat.isSome
  { t with
    intake := t.intake.unlocked
    comp := { t.comp with keyWait := if withdrawn then none else t.comp.keyWait }
    line := { t.line with run := if withdrawn then none else t.line.run } }

/-- The receiver enters LOCKED (R170). -/
def State.enterLocked (s : State) : State :=
  (State.event { s with rx := { s.rx with sync := .locked, window := [] } } .linkLocked).restateCredit

/-! ### The return line (R178) -/

/-- The arbiter count after a block other than a display pair (R178). -/
def countUp (n : Nat) : Nat := min 4 (n + 1)

/-- A display transmission begins (R178): the slot is emptied and its image becomes the last sent. -/
def State.sendDisplay (s : State) (im : Image) : State :=
  { s with
    ret := { s.ret with sending := some (.displayFirst im), arbCount := 0 }
    disp := { s.disp with slot := none, lastSent := some im } }

/-- A CREDIT block begins (R175, R178). -/
def State.sendCredit (s : State) : State :=
  { s with
    ret := { s.ret with sending := some (.credit s.txt.unsent s.txt.restate), arbCount := countUp s.ret.arbCount }
    txt := { s.txt with balance := s.txt.balance + s.txt.unsent, unsent := 0, restate := false } }

/-- The head record of the report queue begins (R177, R178). -/
def State.sendReport (s : State) (r : Report) : State :=
  { s with ret := { s.ret with
      sending := some (.report r), reports := s.ret.reports.tail, arbCount := countUp s.ret.arbCount } }

/-- The four choices of the arbiter (R178). -/
inductive Choice where
  | display (im : Image)
  | credit
  | report (r : Report)
  | rest
  deriving DecidableEq, Repr

/-- The report or the image that goes out when neither the first nor the second choice applies (R178). -/
def State.laterChoice (s : State) : Choice :=
  match s.ret.reports, s.disp.slot with
  | r :: _, _ => .report r
  | [], some im => .display im
  | [], none => .rest

/-- The arbiter's choice (R178). -/
def State.arbiterChoice (s : State) : Choice :=
  match s.disp.slot with
  | some im =>
    if s.ret.arbCount = 4 then .display im
    else if 0 < s.txt.unsent ∨ s.txt.restate then .credit
    else s.laterChoice
  | none => if 0 < s.txt.unsent ∨ s.txt.restate then .credit else s.laterChoice

/-- The arbiter chooses what the return line sends next (R178). -/
def State.arbitrate (s : State) : State :=
  match s.arbiterChoice with
  | .display im => s.sendDisplay im
  | .credit => s.sendCredit
  | .report r => s.sendReport r
  | .rest => { s with ret := { s.ret with sending := none } }

/-- The return line has finished a block, or finds something ready while it rests (R178): the second block of
a display pair follows the first, and otherwise the arbiter chooses. -/
def State.blockSent (s : State) : State :=
  match s.ret.sending with
  | some (.displayFirst im) => { s with ret := { s.ret with sending := some (.displaySecond im) } }
  | _ => s.arbitrate

end Sys2Proof.Machine
end

