-- ==== Sys2Proof/Machine/Engine.lean ====
section
/-! DEFINITION. The Command Engine: SET, the queries, the table commands and the seal engine, the tab, word,
pause, fault, credit and counter commands, and command intake with the restarts in Restart.lean (chapters 9
and 11, R45, R126, R150, R176, R188). Each command ends by queuing its ANSWER into the place reserved for
it; its other effects, and the items they release (R28), come first. -/

namespace Sys2Proof.Machine

/-! ### Settings (R181 to R183) -/

/-- The settings by their ids (section 12.2). -/
inductive Setting where
  | mode | source | pitch | lineSpacing | leftMargin | rightMargin | pageLength | justify | spell
  | holdOnMiss | language | keyboard | expectedWheel | impression | ribbon | correctionOffset
  | autoReturn | decimalChar | display | beeper | maskOpenLoad | maskHomeNotFound | maskIndexLost
  deriving DecidableEq, Repr

/-- The setting of an id (section 12.2), none for an id that names none. -/
def Setting.ofId : Nat → Option Setting
  | 0 => some .mode | 1 => some .source | 2 => some .pitch | 3 => some .lineSpacing
  | 4 => some .leftMargin | 5 => some .rightMargin | 6 => some .pageLength | 7 => some .justify
  | 8 => some .spell | 9 => some .holdOnMiss | 10 => some .language | 11 => some .keyboard
  | 12 => some .expectedWheel | 13 => some .impression | 14 => some .ribbon
  | 15 => some .correctionOffset | 16 => some .autoReturn | 17 => some .decimalChar
  | 18 => some .display | 19 => some .beeper | 20 => some .maskOpenLoad
  | 21 => some .maskHomeNotFound | 22 => some .maskIndexLost
  | _ => none

/-- The range of a setting (R182); an enumerated one counts its values from 0. -/
def Setting.range : Setting → Nat × Nat
  | .mode => (0, 1)
  | .source => (0, 1)
  | .pitch => (0, 3)
  | .lineSpacing => (2, 4)
  | .leftMargin => (0, leftMax)
  | .rightMargin => (0, rightMax)
  | .pageLength => (12, 132)
  | .justify => (0, 3)
  | .spell => (0, 1)
  | .holdOnMiss => (0, 1)
  | .language => (0, 7)
  | .keyboard => (0, 7)
  | .expectedWheel => (0, 63)
  | .impression => (0, 2)
  | .ribbon => (0, 1)
  | .correctionOffset => (0, 3)
  | .autoReturn => (0, 1)
  | .decimalChar => (0, 1)
  | .display => (0, 1)
  | .beeper => (0, 1)
  | .maskOpenLoad => (0, 1)
  | .maskHomeNotFound => (0, 1)
  | .maskIndexLost => (0, 1)

/-- A value brought into range (R181, step 3). -/
def Setting.clamp (k : Setting) (v : Nat) : Nat := max k.range.1 (min k.range.2 v)

/-- The pitch of a number. -/
def Pitch.ofNum : Nat → Pitch
  | 0 => .p10 | 1 => .p12 | 2 => .p15 | _ => .ps

/-- The justify value of a number. -/
def Justify.ofNum : Nat → Justify
  | 0 => .ragged | 1 => .justify | 2 => .center | _ => .flushRight

/-- The impression of a number. -/
def Impression.ofNum : Nat → Impression
  | 0 => .light | 1 => .normal | _ => .heavy

/-- The mask value of a number. -/
def MaskValue.ofNum : Nat → MaskValue
  | 0 => .halt | _ => .report

/-- The settings store changed. -/
def State.withSet (s : State) (f : Settings → Settings) : State := { s with set := f s.set }

/-- EVENT TABLE_ACTIVE for the active table of a kind, if there is one (R166). -/
def State.tellActive (s : State) (k : TableKind) : State :=
  match s.active k with
  | some i => s.event (.tableActive k (s.selection k) i)
  | none => s

/-- KEYBOARD set (R14, R183). A new value ends a typematic repeat (R20) also where no key map is active before or after
it: the model's choice (log entry 73). -/
def State.setKeyboard (s : State) (v : Nat) : State :=
  if s.set.keyboard = v then s
  else State.tellActive { s.withSet (fun c => { c with keyboard := v }) with intake := s.intake.endRepeat } .keyMap

/-- LANGUAGE set (R123, R183). -/
def State.setLanguage (s : State) (v : Nat) : State :=
  let t := s.withSet (fun c => { c with language := v })
  if t.active .lexicon = s.active .lexicon then t else (t.tellActive .lexicon).lexiconChanged

/-- DISPLAY set (R137). -/
def State.setDisplay (s : State) (v : Bool) : State :=
  if s.set.display = v then s
  else
    let t := s.withSet (fun c => { c with display := v })
    if v then t.freshImage else { t with disp := { t.disp with slot := none } }

/-- BEEPER set (R140): OFF stops the tone at once. -/
def State.setBeeper (s : State) (v : Bool) : State :=
  let t := s.withSet (fun c => { c with beeper := v })
  if v then t else { t with disp := { t.disp with beeper := none } }

/-- DECIMAL_CHAR set, under the tab guard (R45). -/
def State.setDecimal (s : State) (v : Bool) : Option State :=
  let t := s.withSet (fun c => { c with decimalComma := v })
  if t.fits t.comp.recs then some t.syncCursor else none

/-- What applying a value comes to (R181, steps 4 and 5). -/
inductive Applied where
  | done (s : State)
  | later (s : State)
  | inconsistent

/-- A line setting applied (R26). -/
def State.applyLine (s : State) (v : LineValue) : Applied :=
  if (s.setLine v).2 then .later (s.setLine v).1 else .done (s.setLine v).1

/-- The value taken applied (R181, steps 4 and 5). -/
def State.applySetting (s : State) (v : Nat) : Setting → Applied
  | .mode => s.applyLine (.mode (if v = 0 then .direct else .line))
  | .source => s.applyLine (.source (if v = 0 then .localKeys else .remoteText))
  | .pitch => s.applyLine (.pitch (Pitch.ofNum v))
  | .leftMargin => if marginsConsistent v s.comp.comingRight then s.applyLine (.left v) else .inconsistent
  | .rightMargin => if marginsConsistent s.comp.comingLeft v then s.applyLine (.right v) else .inconsistent
  | .lineSpacing => .done (s.withSet (fun c => { c with lineSpacing := v }))
  | .pageLength => .done (s.withSet (fun c => { c with pageLength := v }))
  | .justify => .done (s.withSet (fun c => { c with justify := Justify.ofNum v }))
  | .spell => .done (s.setSpell (v = 1))
  | .holdOnMiss => .done (s.withSet (fun c => { c with holdOnMiss := v = 1 }))
  | .language => .done (s.setLanguage v)
  | .keyboard => .done (s.setKeyboard v)
  | .expectedWheel => .done (s.withSet (fun c => { c with expectedWheel := v })).rejudge
  | .impression => .done (s.withSet (fun c => { c with impression := Impression.ofNum v }))
  | .ribbon => .done (s.withSet (fun c => { c with ribbon := if v = 0 then .film else .fabric }))
  | .correctionOffset => .done (s.withSet (fun c => { c with correctionOffset := v }))
  | .autoReturn => .done (s.withSet (fun c => { c with autoReturn := v = 1 }))
  | .decimalChar =>
    match s.setDecimal (v = 1) with
    | some t => .done t
    | none => .inconsistent
  | .display => .done (s.setDisplay (v = 1))
  | .beeper => .done (s.setBeeper (v = 1))
  | .maskOpenLoad => .done (s.withSet (fun c => { c with maskOpenLoad := MaskValue.ofNum v }))
  | .maskHomeNotFound => .done (s.withSet (fun c => { c with maskHomeNotFound := MaskValue.ofNum v }))
  | .maskIndexLost => .done (s.withSet (fun c => { c with maskIndexLost := MaskValue.ofNum v }))

/-- SET of a known setting to a value (R181). -/
def State.setTo (s : State) (k : Setting) (v : Nat) : State :=
  let taken := k.clamp v
  match s.applySetting taken k with
  | .inconsistent => s.answer 0x01 .inconsistent []
  | .done t =>
    (t.settle s).answer 0x01 (if taken = v then .done else .doneClamped) (twoBytes taken ++ [0])
  | .later t =>
    (t.settle s).answer 0x01 (if taken = v then .donePending else .doneClamped) (twoBytes taken ++ [1])

/-- SET (R181). -/
def State.cmdSet (s : State) : List Byte → State
  | [id, hi, lo] =>
    match Setting.ofId id.toNat with
    | some k => s.setTo k (ofTwoBytes hi lo)
    | none => s.answer 0x01 .unknownSetting []
  | _ => s.answer 0x01 .badLength []

/-! ### Queries (R184, R185, section 12.4) -/

/-- A slot number in an answer, 0xFF for none (section 12.3). -/
def slotByte : Option Nat → Byte
  | some i => byteOf i
  | none => 0xFF

/-- The status record (R184). -/
def State.statusBytes (s : State) : List Byte :=
  [byteOf s.comp.source.num, byteOf s.comp.mode.num, byteOf s.seq.state.num, byteOf s.seq.reason.num]
    ++ twoBytes s.comp.logical ++ twoBytes (s.seq.carriage.getD 0) ++ twoBytes s.seq.paperPos
    ++ [byteOf s.keyq.queue.length, byteOf s.txt.queue.length, byteOf s.seq.queue.length,
        byteOf s.spell.checkq.length, byteOf s.ret.fill, byteOf s.seq.heat, byteOf s.seq.wheelCode,
        slotByte (s.active .wheelMap), slotByte (s.active .keyMap), slotByte (s.active .lexicon),
        byteOf s.comp.later.count]

/-- Counter group 0 (R185). -/
def Counters.group0 (c : Counters) : List Byte :=
  fourBytes c.strikes ++ twoBytes c.lifts ++ fourBytes c.lines ++ twoBytes c.checks ++ twoBytes c.misses
    ++ twoBytes c.unprintable ++ twoBytes c.pastTravel ++ twoBytes c.heatWaits ++ twoBytes c.checksDropped
    ++ twoBytes c.noKeymap

/-- Counter group 1 (R185). -/
def Counters.group1 (c : Counters) : List Byte :=
  twoBytes c.keyOverflows ++ twoBytes c.textOverruns ++ twoBytes c.badBlocks ++ twoBytes c.huntDiscards
    ++ twoBytes c.syncLosses ++ twoBytes c.unknownKinds ++ twoBytes c.eventsLost ++ twoBytes c.answersLost
    ++ twoBytes c.unmappedControls ++ twoBytes c.faultsUnlisted

/-- The slot record of QUERY DIRECTORY (R155); a field not reported for the state reads 0 (section 12.4). -/
def State.directoryBytes (s : State) (i : Nat) : List Byte :=
  let d := slotAt s.tab.slots i
  let used := occupied s.tab.slots
  let held := d.state ≠ .empty
  [byteOf i, byteOf d.state.num]
    ++ (if held then [byteOf d.kind.num, byteOf d.key] ++ twoBytes d.first ++ twoBytes d.count
        else [0, 0, 0, 0, 0, 0])
    ++ (if d.state = .opened then twoBytes (d.written.filter (fun w => w)).length else [0, 0])
    ++ (if d.state = .sealed then [flagByte d.guarded] ++ twoBytes d.check.toNat else [0, 0, 0])
    ++ [flagByte (held && s.active d.kind = some i)] ++ twoBytes (totalFree used) ++ twoBytes (longestFree used)

/-- The petal, wheel code and level of an entry's first PRINTED ink strike (section 12.4). -/
def Entry.inkBytes (e : Entry) : List Byte :=
  match e.inkStrikes.find? StrikeRec.printed with
  | some ⟨_, _, _, .printed p w l⟩ => [byteOf p, byteOf w, byteOf l]
  | _ => [0xFF, 0xFF, 0xFF]

/-- A line record entry in an answer (section 12.4). The word number of an entry without a word reference, of which
section 12.4 states no value, is sent as 0x0000 (log entry 54). -/
def Entry.bytes (e : Entry) : List Byte :=
  twoBytes e.seqNum.toNat ++ [e.code, byteOf e.kind.num] ++ twoBytes e.pos
    ++ [byteOf e.adv, byteOf e.state.num, byteOf e.strikes.length, byteOf e.outstanding,
        byteOf (e.word.isSome.toNat + 2 * e.liftSkipped.toNat)]
    ++ twoBytes (e.word.getD 0).toNat ++ e.inkBytes

/-- A word record in an answer (section 12.4). -/
def SpellWord.bytes (w : SpellWord) : List Byte :=
  twoBytes w.num.toNat ++ (if w.detached then [0xFF, 0xFF, 0xFF, 0xFF] else twoBytes w.first ++ twoBytes w.last)
    ++ [byteOf w.length, byteOf w.verdict.num, byteOf w.verdict.causeNum, w.gen,
        byteOf (w.complete.toNat + 2 * w.detached.toNat + 4 * w.digit.toNat)]
    ++ w.letters.map byteOf

/-- As many whole records as fit in a number of bytes (R184). -/
def wholeRecords : Nat → List (List Byte) → List Byte
  | _, [] => []
  | n, r :: l => if r.length ≤ n then r ++ wholeRecords (n - r.length) l else []

/-- The bytes of an ANSWER's payload left for its data (R168: 48 less the code and the outcome). -/
def answerRoom : Nat := 46

/-- A record of the fault list in an answer; unused places read 0xFF (section 12.4). -/
def FaultRec.bytes (f : FaultRec) : List Byte :=
  [byteOf f.kind.num, byteOf (channelNum f.ch), byteOf f.occ, flagByte f.isPresent]

/-- QUERY FAULTS (R152). -/
def State.faultBytes (s : State) : List Byte :=
  let recs := s.drv.faults.flatMap FaultRec.bytes
  [byteOf s.drv.faults.length] ++ recs ++ List.replicate (32 - recs.length) 0xFF
    ++ [byteOf s.drv.results.carriage.num, byteOf s.drv.results.wheel.num, byteOf s.drv.results.hammer.num,
        byteOf s.drv.results.lift.num, byteOf s.drv.results.paper.num, byteOf (channelNum s.drv.rotation),
        byteOf s.set.maskOpenLoad.num, byteOf s.set.maskHomeNotFound.num, byteOf s.set.maskIndexLost.num]

/-- Whether an index names a record, or the start of an empty list (R184). -/
def indexHeld (i n : Nat) : Bool := i < n || (i = 0 && n = 0)

/-- QUERY COUNTERS (R185). -/
def State.counterAnswer (s : State) (g : Byte) : State :=
  if g = 0 then s.answer 0x02 .done (g :: s.ctr.group0)
  else if g = 1 then s.answer 0x02 .done (g :: s.ctr.group1)
  else s.answer 0x02 .badIndex []

/-- QUERY DIRECTORY (R155). -/
def State.directoryAnswer (s : State) (i : Byte) : State :=
  if i.toNat < 12 then s.answer 0x02 .done (s.directoryBytes i.toNat) else s.answer 0x02 .badIndex []

/-- QUERY LINE (R89, R184). -/
def State.lineAnswer (s : State) (i : Byte) : State :=
  if indexHeld i.toNat s.line.entries.length then
    s.answer 0x02 .done (twoBytes s.line.dropped ++ [byteOf s.line.entries.length]
      ++ wholeRecords (answerRoom - 3) ((s.line.entries.drop i.toNat).map Entry.bytes))
  else s.answer 0x02 .badIndex []

/-- QUERY WORDS (R111, R184). -/
def State.wordsAnswer (s : State) (i : Byte) : State :=
  if indexHeld i.toNat s.spell.words.length then
    s.answer 0x02 .done ([byteOf s.spell.words.length]
      ++ wholeRecords (answerRoom - 1) ((s.spell.words.drop i.toNat).map SpellWord.bytes))
  else s.answer 0x02 .badIndex []

/-- QUERY USER_WORD (R126). -/
def State.userWordAnswer (s : State) (i : Byte) : State :=
  match s.spell.users[i.toNat]? with
  | some w => s.answer 0x02 .done (byteOf w.length :: w.map byteOf)
  | none => s.answer 0x02 .badIndex []

/-- QUERY (R184). -/
def State.cmdQuery (s : State) : List Byte → State
  | [item, index] =>
    if item = 0 then s.answer 0x02 .done s.statusBytes
    else if item = 1 then s.counterAnswer index
    else if item = 2 then s.directoryAnswer index
    else if item = 3 then s.lineAnswer index
    else if item = 4 then s.wordsAnswer index
    else if item = 5 then s.userWordAnswer index
    else if item = 6 then s.answer 0x02 .done s.faultBytes
    else s.answer 0x02 .badContent []
  | _ => s.answer 0x02 .badLength []

/-! ### The directory in use (R157, R158, R162 to R167) -/

/-- The readers act on a change of the directory from `pre` (R158, R163): a waiting mechanism judges its
wheel condition again, a typematic repeat ends, and the Spelling Unit follows the active lexicon. Where no key map was
active and none is, the repeat goes on: the model's choice (log entry 73). -/
def State.readersAct (pre s : State) : State :=
  let s := s.rejudge
  let s := if s.active .keyMap = pre.active .keyMap then s else { s with intake := s.intake.endRepeat }
  if s.active .lexicon = pre.active .lexicon then s else s.lexiconChanged

/-- The slots of the directory changed. -/
def State.withSlots (s : State) (l : List Slot) : State := { s with tab := { s.tab with slots := l } }

/-- The number of slots (R155). -/
def slotCount : Nat := 12

/-- The kind of a number (section 12.3). -/
def TableKind.ofNum : Nat → Option TableKind
  | 0 => some .wheelMap | 1 => some .keyMap | 2 => some .lexicon
  | _ => none

/-- The greatest key of a kind (R155). -/
def TableKind.maxKey : TableKind → Nat
  | .wheelMap => 63
  | _ => 7

/-- A slot as TABLE_OPEN leaves it (R155, R157). -/
def Slot.opened (k : TableKind) (key first count : Nat) : Slot :=
  ⟨.opened, k, key, first, count, List.replicate count false, false, 0⟩

/-- The runs that an opening of a slot must keep clear of (R157): those of the other slots. -/
def otherRuns (slots : List Slot) (i : Nat) : List Slot := occupied (setAt slots i Slot.emptySlot)

/-- TABLE_OPEN carried out (R157). -/
def State.openSlot (s : State) (i : Nat) (k : TableKind) (key count : Nat) : State :=
  let d := slotAt s.tab.slots i
  if d.state = .sealed ∧ d.guarded then s.answer 0x03 .guarded []
  else
    match lowestFit (otherRuns s.tab.slots i) count with
    | none => s.answer 0x03 .noRoom (twoBytes (longestFree (otherRuns s.tab.slots i)))
    | some first =>
      let t := s.withSlots (setAt s.tab.slots i (Slot.opened k key first count))
      ((s.readersAct t).settle s).answer 0x03 .done (twoBytes first)

/-- TABLE_OPEN (R156, R157). -/
def State.cmdTableOpen (s : State) : List Byte → State
  | [slot, kind, key, hi, lo] =>
    if slotCount ≤ slot.toNat then s.answer 0x03 .badIndex []
    else
      match TableKind.ofNum kind.toNat with
      | none => s.answer 0x03 .badContent []
      | some k =>
        if k.maxKey < key.toNat then s.answer 0x03 .badContent []
        else if ofTwoBytes hi lo = 0 ∨ segmentCount < ofTwoBytes hi lo then s.answer 0x03 .badContent []
        else s.openSlot slot.toNat k key.toNat (ofTwoBytes hi lo)
  | _ => s.answer 0x03 .badLength []

/-- The written marks after a write of `n` segments from `i` (R159). -/
def markWritten (w : List Bool) (i : Nat) : Nat → List Bool
  | 0 => w
  | n + 1 => markWritten (setAt w i true) (i + 1) n

/-- Data stored in the segments of an OPEN slot (R159). -/
def State.writeSegments (s : State) (i index : Nat) (data : List Byte) : State :=
  let d := slotAt s.tab.slots i
  let d' := { d with written := markWritten d.written index (data.length / 16) }
  { s with tab := { s.tab with
      mem := s.tab.mem.writeBytes (16 * (d.first + index)) data, slots := setAt s.tab.slots i d' } }

/-- TABLE_WRITE judged and carried out (R159). -/
def State.writeSlot (s : State) (i index : Nat) (data : List Byte) : State :=
  let d := slotAt s.tab.slots i
  if slotCount ≤ i then s.answer 0x04 .badIndex []
  else if d.state ≠ .opened then s.answer 0x04 .notOpen []
  else if d.count < index + data.length / 16 then s.answer 0x04 .badIndex []
  else
    let t := s.writeSegments i index data
    t.answer 0x04 .done (twoBytes (slotAt t.tab.slots i).unwritten)

/-- TABLE_WRITE (R159). -/
def State.cmdTableWrite (s : State) : List Byte → State
  | slot :: hi :: lo :: data =>
    if data.length = 16 ∨ data.length = 32 then s.writeSlot slot.toNat (ofTwoBytes hi lo) data
    else s.answer 0x04 .badLength []
  | _ => s.answer 0x04 .badLength []

/-- TABLE_SEAL (R160): when its checks pass the seal engine starts at the first byte, and the answer comes with the end of the
seal. -/
def State.cmdTableSeal (s : State) : List Byte → State
  | [slot, hi, lo, guarded] =>
    let d := slotAt s.tab.slots slot.toNat
    if slotCount ≤ slot.toNat then s.answer 0x05 .badIndex []
    else if d.state ≠ .opened then s.answer 0x05 .notOpen []
    else if d.unwritten ≠ 0 then
      s.answer 0x05 .incomplete (twoBytes d.unwritten ++ twoBytes d.lowestUnwritten)
    else
      { s with tab := { s.tab with
          sealing := some ⟨slot.toNat, BitVec.ofNat 16 (ofTwoBytes hi lo), guarded ≠ 0, 16 * d.count, 0, 0⟩ } }
  | _ => s.answer 0x05 .badLength []

/-- The directory when a seal succeeds (R162): every other SEALED slot of the kind and key becomes EMPTY, and
the slot becomes SEALED. -/
def sealSlots (slots : List Slot) (i : Nat) (check : Word) (guarded : Bool) : List Slot :=
  let d := slotAt slots i
  let cleared := slots.map (fun e => if e.state = .sealed ∧ e.kind = d.kind ∧ e.key = d.key then Slot.emptySlot else e)
  setAt cleared i { d with state := .sealed, written := [], guarded := guarded, check := check }

/-- A seal succeeds (R162, R163). -/
def State.sealSucceeds (s : State) (e : Seal) (check : Word) : State :=
  let d := slotAt s.tab.slots e.slot
  let t := s.withSlots (sealSlots s.tab.slots e.slot check e.guarded)
  let t := if d.key = s.selection d.kind then t.event (.tableActive d.kind d.key e.slot) else t
  ((s.readersAct t).settle s).answer 0x05 .done (twoBytes check.toNat)

/-- The seal engine reads the table from its progress to the end (R161). The offset 65536, of a field that is missing
past the end of a table of 4096 segments, is 0000H in its two bytes (log entry 61). -/
def State.sealDone (s : State) : State :=
  match s.tab.sealing with
  | none => s
  | some e =>
    let d := slotAt s.tab.slots e.slot
    let check := e.tableCheck s.tab.mem d
    let t := { s with tab := { s.tab with sealing := none } }
    if check ≠ e.check then t.answer 0x05 .badCheck (twoBytes check.toNat)
    else
      match validateTable s.tab.mem d with
      | some off => t.answer 0x05 .badContent (twoBytes off)
      | none => t.sealSucceeds e check

/-- TABLE_DROP (R165). -/
def State.cmdTableDrop (s : State) : List Byte → State
  | [slot] =>
    if slotCount ≤ slot.toNat then s.answer 0x06 .badIndex []
    else
      let was := (slotAt s.tab.slots slot.toNat).state
      let t := s.withSlots (setAt s.tab.slots slot.toNat Slot.emptySlot)
      ((s.readersAct t).settle s).answer 0x06 .done [byteOf was.num]
  | _ => s.answer 0x06 .badLength []

/-! ### Tab stops (R45) -/

/-- Tab stops changed by a command (R45). -/
def State.commandTabs (s : State) (code : Byte) (tabs : List TabStop) : State :=
  match s.changeTabs tabs with
  | some t => (t.settle s).answer code .done []
  | none => s.answer code .inconsistent []

/-- TAB_ADD (R45). -/
def State.cmdTabAdd (s : State) : List Byte → State
  | [hi, lo, decimal] =>
    let x := ofTwoBytes hi lo
    if lastPosition < x then s.answer 0x07 .badIndex []
    else if !hasStop s.comp.tabs x && tabPlaces ≤ s.comp.tabs.length then s.answer 0x07 .listFull []
    else s.commandTabs 0x07 (addStop s.comp.tabs ⟨x, decimal ≠ 0⟩)
  | _ => s.answer 0x07 .badLength []

/-- TAB_REMOVE (R45). -/
def State.cmdTabRemove (s : State) : List Byte → State
  | [hi, lo] =>
    let x := ofTwoBytes hi lo
    if hasStop s.comp.tabs x then s.commandTabs 0x08 (removeStop s.comp.tabs x) else s.answer 0x08 .notFound []
  | _ => s.answer 0x08 .badLength []

/-- TABS_CLEAR (R45). -/
def State.cmdTabsClear (s : State) : List Byte → State
  | [] => s.commandTabs 0x09 []
  | _ => s.answer 0x09 .badLength []

/-! ### The user word list (R126) -/

/-- How the letters given for a word are judged (R126), none when they are a word. -/
def judgeWord (l : List Byte) : Option CmdOutcome :=
  if l.length < 2 ∨ wordLetters < l.length then some .badLength
  else if l.any (fun b => 40 < b.toNat) then some .badContent
  else none

/-- USER_WORD_ADD (R126). -/
def State.cmdUserAdd (s : State) (l : List Byte) : State :=
  match judgeWord l with
  | some o => s.answer 0x0A o []
  | none =>
    let w := l.map BitVec.toNat
    if s.spell.users.contains w then s.answer 0x0A .done []
    else if userPlaces ≤ s.spell.users.length then s.answer 0x0A .listFull []
    else ((s.addUserWord w).settle s).answer 0x0A .done []

/-- USER_WORD_REMOVE (R126). -/
def State.cmdUserRemove (s : State) (l : List Byte) : State :=
  match judgeWord l with
  | some o => s.answer 0x0B o []
  | none =>
    let w := l.map BitVec.toNat
    if s.spell.users.contains w then ((s.removeUserWord w).settle s).answer 0x0B .done []
    else s.answer 0x0B .notFound []

/-! ### Pause, resume, faults, credit, counters (R83, R84, R150, R175, R185) -/

/-- PAUSE (R83). -/
def State.cmdPause (s : State) : List Byte → State
  | [] => ((s.askPause .command).settle s).answer 0x0C .done []
  | _ => s.answer 0x0C .badLength []

/-- RESUME (R84), with what the paper sensor shows. -/
def State.cmdResume (s : State) (paper : Bool) : List Byte → State
  | [] =>
    if s.seq.state = .paused then
      match s.askResume paper with
      | some t => (t.settle s).answer 0x0D .done []
      | none => s.answer 0x0D .inconsistent []
    else State.answer { s with seq := { s.seq with pauseReq := none } } 0x0D .done []
  | _ => s.answer 0x0D .badLength []

/-- EVENT FAULT_CLEARED for each record removed, in list order (R150). -/
def State.tellCleared (s : State) (l : List FaultRec) : State :=
  l.foldl (fun s f => s.event (.faultCleared f.kind f.ch)) s

/-- The halting records among some (R150). -/
def State.haltingCount (s : State) (l : List FaultRec) : Nat := (l.filter (fun f => s.halting f.kind)).length

/-- ACK_FAULT carried out (R150): the MECH_STATE event of a homing follows the answer. -/
def State.ackFaults (s : State) : State :=
  let kept := s.drv.faults.filter FaultRec.isPresent
  let n := s.haltingCount kept
  let t := State.tellCleared { s with drv := { s.drv with faults := kept } }
    (s.drv.faults.filter (fun f => !f.isPresent))
  if s.seq.state = .halted then
    let t := t.answer 0x0E .done [byteOf n]
    (if n = 0 then t.startHoming else t).settle s
  else (t.answer 0x0E .notHalted [byteOf n]).settle s

/-- ACK_FAULT (R150). -/
def State.cmdAckFault (s : State) : List Byte → State
  | [] => s.ackFaults
  | _ => s.answer 0x0E .badLength []

/-- CREDIT_RESTATE (R175). -/
def State.cmdRestate (s : State) : List Byte → State
  | [] => s.restateCredit.answer 0x0F .done []
  | _ => s.answer 0x0F .badLength []

/-- CLEAR_COUNTERS (R185). -/
def State.cmdClear (s : State) : List Byte → State
  | [] => State.answer { s with ctr := Counters.zero } 0x10 .done []
  | _ => s.answer 0x10 .badLength []

end Sys2Proof.Machine
end

