-- ==== Sys2Proof/Machine/Restart.lean ====
section
/-! DEFINITION. The restarts and command intake (R47, R88, R107, R167, R176, R179, R186), and the reset
input (R187). -/

namespace Sys2Proof.Machine

/-! ### Restarts -/

/-- The restart selectors (section 12.3). -/
inductive Selector where
  | link | text | mech | tables | counters | all
  deriving DecidableEq, Repr

/-- The selector of a number (section 12.3). -/
def Selector.ofNum : Nat → Option Selector
  | 0 => some .link | 1 => some .text | 2 => some .mech | 3 => some .tables | 4 => some .counters
  | 5 => some .all
  | _ => none

/-- The answer of a RESTART that is carried out. -/
def State.restartAnswer (s : State) : State := s.answer 0x11 .done []

/-- The report queue emptied with its reservations, and the RESTART answer queued first (R179, steps 2
and 3). -/
def State.freshReports (s : State) : State :=
  State.restartAnswer { s with ret := { s.ret with reports := [], reserved := 1, lost := false } }

/-- The receiver enters HUNT (R179, step 4). -/
def State.huntAfresh (s : State) : State :=
  if s.rx.sync = .locked then s.leaveLocked else { s with rx := { s.rx with sync := .hunt } }

/-- RESTART LINK (R179). A block being sent is finished first, so `sending` stands. -/
def State.restartLink (s : State) : State :=
  let s := s.freshReports.huntAfresh.restateCredit
  State.freshImage { s with ret := { s.ret with arbCount := 0 } }

/-- The key queue and the remote text queue emptied (R18, R47, R175). -/
def State.emptyFeeds (s : State) : State :=
  { s with
    keyq := .powerOn
    txt := { s.txt with queue := [], unsent := s.txt.unsent + s.txt.queue.length }
    intake := { s.intake.withdraw with offered := none } }

/-- The Spelling Unit emptied (R111, R119, R125): the next word number and the user words are kept. -/
def Spelling.emptied (p : Spelling) : Spelling :=
  { p with words := [], marks := [], checkq := [], engine := none, sweep := none, requested := none }

/-- The Composer emptied (R47): no item waits, and the composition starts afresh. -/
def Composer.emptied (c : Composer) (j : Justify) : Composer :=
  { c with
    recs := [], cursor := 0, choice := j, outgoing := none, bold := false, underline := false
    flags := .clear, override := false, keyWait := none, textWait := none }

/-- The effects of RESTART TEXT (R22, R47): in LINE the logical position becomes that of the empty composition,
and then a line boundary is reached. -/
def State.clearText (s : State) : State :=
  let s := s.emptyFeeds.emptyRecord
  State.reachBoundary (State.syncCursor { s with
    spell := s.spell.emptied
    comp := s.comp.emptied s.set.justify
    line := { s.line with run := none } })

/-- RESTART TEXT (R47, R186). -/
def State.restartText (s : State) : State := s.restartAnswer.clearText.moveWindow

/-- The order in flight at a mechanism restart (R88, step 1): a pulse begun counts and its order
completes; any other order is abandoned with its motion. -/
def State.settleFlight (s : State) : State :=
  match s.seq.flight with
  | some (.pulse petal level _) =>
    State.finishOrder { s.countPulse.driven .hammer with seq := { s.seq with coverStop := false } } petal level
  | some (.recover petal level _) => s.finishOrder petal level
  | _ => s.abandonFlight

/-- Whether an entry stays at a mechanism restart (R107): it has no strikes, or a printed ink strike. -/
def Entry.stays (e : Entry) : Bool := e.strikes.isEmpty || e.inkStrikes.any StrikeRec.printed

/-- An entry after a mechanism restart (R107): it is LIFTING no more, with `liftSkipped` no (log entry 60). -/
def Entry.restarted (e : Entry) : Entry :=
  { e with strikes := e.strikes.filter (fun k => k.status ≠ .waiting), outstanding := 0, liftSkipped := false }

/-- The logical position after a mechanism restart in DIRECT (R88, step 4). -/
def State.restartPosition (s : State) : Nat :=
  match lastWhere (fun e => e.state = .inked) s.line.entries with
  | some e => e.pos + e.adv
  | none => s.comp.left

/-- Steps 2 to 4 of the mechanism restart (R88, R107): queue, record, outgoing line, logical position. That the entries
removed and those returned to INKED are one change of the word text is the model's choice (log entry 72). -/
def State.clearOrders (s : State) : State :=
  let was := s.atBoundary
  let t := { s with
    seq := { s.seq with queue := [], heatCounted := false }
    line := { s.line with entries := (s.line.entries.filter Entry.stays).map Entry.restarted }
    comp := { s.comp with outgoing := none } }
  let t := t.textChanged was
  match t.comp.modeInEffect with
  | .direct => { t with comp := { t.comp with logical := t.restartPosition } }
  | .line => t.syncCursor

/-- Homing started by a restart, with no pause request left (R68, R88, step 5). -/
def State.rehome (s : State) : State :=
  let t := s.startHoming
  { t with seq := { t.seq with pauseReq := none } }

/-- RESTART MECH (R88). -/
def State.restartMech (s : State) : State :=
  let s := s.restartAnswer.settleFlight.abandonHoming.stopLift
  State.rehome (State.clearOrders { s with drv := { s.drv with rotTest := none } })

/-- Every slot EMPTY (R167). -/
def noSlots : List Slot := List.replicate slotCount Slot.emptySlot

/-- RESTART TABLES (R167). -/
def State.restartTables (s : State) : State :=
  let s := s.restartAnswer
  s.readersAct (s.withSlots noSlots)

/-- RESTART COUNTERS (R185). -/
def State.restartCounters (s : State) : State := State.restartAnswer { s with ctr := Counters.zero }

/-- The Print Sequencer as RESTART ALL leaves it before homing (R68): the positions reached and the heat are
kept. -/
def Sequencer.afterAll (q : Sequencer) : Sequencer :=
  { Sequencer.held with
    state := q.state, reason := q.reason, carriage := q.carriage, petal := q.petal, lift := q.lift, heat := q.heat }

/-- RESTART ALL (R186): every item at its power-on value but the heat, the positions reached, the table
bytes and what the link line holds; the answer comes first, then LINK_LOST and MECH_STATE. -/
def State.restartAll (s : State) : State :=
  let q := s.settleFlight.abandonHoming.stopLift
  let t : State := { State.held s.pending s.coverOpen q.free with
    resetHeld := false
    rx := { s.rx with sync := .hunt }
    ret := { ReturnLine.powerOn with reports := [.answer 0x11 .done []], sending := s.ret.sending }
    tab := { TableStore.powerOn with mem := s.tab.mem }
    seq := q.seq.afterAll }
  let t := if s.rx.sync = .locked then t.event .linkLost else t
  State.freshImage t.rehome

/-- A valid RESTART carried out (R186). -/
def State.restart (s : State) : Selector → State
  | .link => s.restartLink.settle s
  | .text => s.restartText.settle s
  | .mech => s.restartMech.settle s true
  | .tables => s.restartTables.settle s
  | .counters => s.restartCounters
  | .all => s.restartAll

/-- What the payload of a RESTART asks for (R164, R186): a selector, or the outcome that refuses it. -/
def restartOf : List Byte → Selector ⊕ CmdOutcome
  | [b] =>
    match Selector.ofNum b.toNat with
    | some k => .inl k
    | none => .inr .badContent
  | _ => .inr .badLength

/-- The seal in progress aborted and answered ABORTED (R164). -/
def State.abortSeal (s : State) : State :=
  match s.tab.sealing with
  | none => s
  | some _ => State.answer { s with tab := { s.tab with sealing := none } } 0x05 .aborted []

/-- RESTART (R164, R186). -/
def State.cmdRestart (s : State) (params : List Byte) : State :=
  match restartOf params with
  | .inl k => s.abortSeal.restart k
  | .inr o => s.answer 0x11 o []

/-! ### Command intake (R176, R188) -/

/-- A command carried out, its answer's place reserved (R176, section 12.2). -/
def State.command (s : State) (code : Byte) (params : List Byte) (paper : Bool) : State :=
  if code = 0x01 then s.cmdSet params
  else if code = 0x02 then s.cmdQuery params
  else if code = 0x03 then s.cmdTableOpen params
  else if code = 0x04 then s.cmdTableWrite params
  else if code = 0x05 then s.cmdTableSeal params
  else if code = 0x06 then s.cmdTableDrop params
  else if code = 0x07 then s.cmdTabAdd params
  else if code = 0x08 then s.cmdTabRemove params
  else if code = 0x09 then s.cmdTabsClear params
  else if code = 0x0A then s.cmdUserAdd params
  else if code = 0x0B then s.cmdUserRemove params
  else if code = 0x0C then s.cmdPause params
  else if code = 0x0D then s.cmdResume paper params
  else if code = 0x0E then s.cmdAckFault params
  else if code = 0x0F then s.cmdRestate params
  else if code = 0x10 then s.cmdClear params
  else if code = 0x11 then s.cmdRestart params
  else s.answer code .unknownCommand []

/-- A CONTROL block offered to the Command Engine (R176): discarded and counted when there is no free place,
otherwise taken, its place reserved, and executed, or answered BUSY during a seal. -/
def State.takeControl (s : State) (code : Byte) (params : List Byte) (paper : Bool := true) : State :=
  if !s.ret.hasFree then s.raise .answersLost
  else if s.tab.sealing.isSome ∧ code ≠ 0x11 then s.reserve.answer code .busy []
  else s.reserve.command code params paper

/-! ### The reset input (R187) -/

/-- The reset input is asserted (R187): all work stops. -/
def State.assertReset (s : State) : State := State.held s.pending s.coverOpen s.free

/-- The reset input is released (R187): the part starts, and homing with it. -/
def State.releaseReset (s : State) : State :=
  if s.resetHeld then
    State.startHoming { State.held s.pending s.coverOpen s.free with resetHeld := false, disp := .powerOn }
  else s

end Sys2Proof.Machine
end

