-- ==== Sys2Proof/Machine/Receiver.lean ====
section
/-! DEFINITION. The receiver (R168 to R172): the feed bytes judged unit by unit in HUNT, CONFIRM and LOCKED,
and good blocks taken by their kind. -/

namespace Sys2Proof.Machine

/-! ### Units of the feed (R169 to R171) -/

/-- A START received without a stop-bit error. -/
def isStart (b : FeedByte) : Bool := b.data = startByte && !b.bad

/-- An IDLE received without a stop-bit error. -/
def isIdle (b : FeedByte) : Bool := b.data = idleByte && !b.bad

/-- What the receiver makes of the bytes it holds: nothing yet, a byte that is neither START nor IDLE, a
START whose LEN ends the reading at once, a block that is not good, or a good block. Each carries the bytes from
which scanning goes on. -/
inductive RxUnit where
  | incomplete
  | stray (rest : List FeedByte)
  | badLen (afterStart : List FeedByte)
  | badBlock (afterStart rest : List FeedByte)
  | good (head : Byte) (payload : List Byte) (rest : List FeedByte)
  deriving DecidableEq, Repr

/-- The most payload bytes of a block (R168). -/
def maxLen : Nat := 48

/-- The block that follows a START (R168 to R171): `l` is what stands after the START. A LEN above 48 is judged at
once, and so is a bad LEN byte in LOCKED; in HUNT and CONFIRM a bad LEN byte of 0 to 48 is found out with the rest of
the block. -/
def readBlock (sync : RxState) (l : List FeedByte) : RxUnit :=
  match l with
  | h :: n :: body =>
    if maxLen < n.data.toNat || (n.bad && sync = .locked) then .badLen l
    else
      match body.drop n.data.toNat with
      | [] => .incomplete
      | c :: rest =>
        let payload := body.take n.data.toNat
        let bytes := payload.map FeedByte.data
        if h.bad || n.bad || payload.any FeedByte.bad || c.bad || c.data ≠ checkByte h.data bytes then .badBlock l rest
        else .good h.data bytes rest
  | _ => .incomplete

/-- The bytes passed over before a unit (R169 to R171): in HUNT all but a START, otherwise IDLE bytes. -/
def passOver (sync : RxState) (l : List FeedByte) : List FeedByte :=
  match sync with
  | .hunt => l.dropWhile (fun b => !isStart b)
  | _ => l.dropWhile isIdle

/-- The next unit in a sync state (R169 to R171). -/
def nextUnit (sync : RxState) (l : List FeedByte) : RxUnit :=
  match passOver sync l with
  | [] => .incomplete
  | b :: rest => if isStart b then readBlock sync rest else .stray rest

/-- The feed bytes that arrive with a step join those held, and the bytes passed over leave (log
entry 2). -/
def State.feed (s : State) (l : List FeedByte) : State :=
  { s with rx := { s.rx with buf := passOver s.rx.sync (s.rx.buf ++ l) } }

/-- The bytes from which scanning goes on. -/
def State.scanFrom (s : State) (l : List FeedByte) : State := { s with rx := { s.rx with buf := l } }

/-- The receiver's sync state set. -/
def State.withSync (s : State) (r : RxState) : State := { s with rx := { s.rx with sync := r } }

/-! ### Kinds (R172, section 12.1) -/

/-- The feed kinds and their lengths (R172). -/
inductive BlockKind where
  | key | text | control | unknown
  deriving DecidableEq, Repr

/-- How a good block is taken (R172): by the high half of its HEAD and its LEN. -/
def blockKind (head : Byte) (len : Nat) : BlockKind :=
  if head.toNat / 16 = 1 ∧ len ≤ 8 then .key
  else if head.toNat / 16 = 2 then .text
  else if head.toNat / 16 = 3 ∧ 0 < len then .control
  else .unknown

/-- A good block taken (R172). -/
def State.takeBlock (s : State) (head : Byte) (payload : List Byte) (paper : Bool) : State :=
  match blockKind head payload.length, payload with
  | .key, l => s.appendKeys l
  | .text, l => s.chargeText l
  | .control, code :: params => s.takeControl code params paper
  | _, _ => s.raise .unknownKinds

/-! ### The bad-block window (R171) -/

/-- The places of the bad-block window (R171). -/
def windowPlaces : Nat := 16

/-- A block entered in the window, the oldest forgotten when it is full (R171). -/
def enterWindow (w : List Bool) (bad : Bool) : List Bool :=
  if w.length < windowPlaces then w ++ [bad] else w.tail ++ [bad]

/-- A block entered in the window (R171): at 4 bad ones the receiver leaves LOCKED. -/
def State.noteBlock (s : State) (bad : Bool) : State :=
  let t := { s with rx := { s.rx with window := enterWindow s.rx.window bad } }
  if 4 ≤ (t.rx.window.filter (fun b => b)).length then t.leaveLocked else t

/-! ### The receiver's rows -/

/-- HUNT: a candidate block is judged (R169). -/
def State.huntCandidate (s : State) (l : List FeedByte) : State :=
  let s := s.feed l
  match s.rx.sync, nextUnit s.rx.sync s.rx.buf with
  | .hunt, .good _ _ rest => ((s.scanFrom rest).withSync .confirm).raise .huntDiscards
  | .hunt, .badLen rest => s.scanFrom rest
  | .hunt, .badBlock rest _ => s.scanFrom rest
  | _, _ => s

/-- CONFIRM: a block is judged (R170). -/
def State.confirm (s : State) (l : List FeedByte) (paper : Bool) : State :=
  let s := s.feed l
  match s.rx.sync, nextUnit s.rx.sync s.rx.buf with
  | .confirm, .good head payload rest => (s.scanFrom rest).enterLocked.takeBlock head payload paper
  | .confirm, .badLen rest => (s.scanFrom rest).withSync .hunt
  | .confirm, .badBlock rest _ => (s.scanFrom rest).withSync .hunt
  | _, _ => s

/-- CONFIRM: a byte that is neither IDLE nor START, or a bad byte (R170). -/
def State.confirmStray (s : State) (l : List FeedByte) : State :=
  let s := s.feed l
  match s.rx.sync, nextUnit s.rx.sync s.rx.buf with
  | .confirm, .stray rest => (s.scanFrom rest).withSync .hunt
  | _, _ => s

/-- LOCKED: a stray or bad byte between blocks, or a START with an invalid LEN (R171). -/
def State.lockedStray (s : State) (l : List FeedByte) : State :=
  let s := s.feed l
  match s.rx.sync, nextUnit s.rx.sync s.rx.buf with
  | .locked, .stray rest => (s.scanFrom rest).leaveLocked
  | .locked, .badLen rest => (s.scanFrom rest).leaveLocked
  | _, _ => s

/-- LOCKED: a block that is not good (R171). -/
def State.lockedBad (s : State) (l : List FeedByte) : State :=
  let s := s.feed l
  match s.rx.sync, nextUnit s.rx.sync s.rx.buf with
  | .locked, .badBlock _ rest => ((s.scanFrom rest).raise .badBlocks).noteBlock true
  | _, _ => s

/-- LOCKED: a good block of a kind (R171, R172). -/
def State.lockedGood (s : State) (l : List FeedByte) (k : BlockKind) (paper : Bool := true) : State :=
  let s := s.feed l
  match s.rx.sync, nextUnit s.rx.sync s.rx.buf with
  | .locked, .good head payload rest =>
    if blockKind head payload.length = k then
      ((s.scanFrom rest).noteBlock false).takeBlock head payload paper
    else s
  | _, _ => s

end Sys2Proof.Machine
end

