-- ==== Sys2Proof/Machine/ExecLink.lean ====
section
/-! DEFINITION. The steps of the reset input, the receiver and the return line: one meaning for each row. -/

namespace Sys2Proof.Machine

/-! ### The reset input (R187) -/

/-- RESET_ASSERTED (R187). -/
def execResetAsserted (s : State) : Host.Outcome State Fault Refusal :=
  .next s.assertReset

/-- RESET_RELEASED (R187); a release without a reset held changes nothing. -/
def execResetReleased (s : State) : Host.Outcome State Fault Refusal :=
  .next s.releaseReset

/-! ### The receiver (R169 to R172) -/

/-- HUNT_CANDIDATE_BLOCK (R169). -/
def execHuntCandidateBlock (feed : List FeedByte) (s : State) : Host.Outcome State Fault Refusal :=
  live s (fun s => s.huntCandidate feed)

/-- CONFIRM_BLOCK (R170). -/
def execConfirmBlock (feed : List FeedByte) (paper : Bool) (s : State) : Host.Outcome State Fault Refusal :=
  liveTables s (fun s => s.confirm feed paper)

/-- CONFIRM_STRAY_BYTE (R170). -/
def execConfirmStrayByte (feed : List FeedByte) (s : State) : Host.Outcome State Fault Refusal :=
  live s (fun s => s.confirmStray feed)

/-- LOCKED_STRAY_BYTE (R171). -/
def execLockedStrayByte (feed : List FeedByte) (s : State) : Host.Outcome State Fault Refusal :=
  live s (fun s => s.lockedStray feed)

/-- BAD_BLOCK (R171). -/
def execBadBlock (feed : List FeedByte) (s : State) : Host.Outcome State Fault Refusal :=
  live s (fun s => s.lockedBad feed)

/-- KEY_BLOCK (R172, R173). -/
def execKeyBlock (feed : List FeedByte) (s : State) : Host.Outcome State Fault Refusal :=
  live s (fun s => s.lockedGood feed .key)

/-- TEXT_BLOCK (R172, R174). -/
def execTextBlock (feed : List FeedByte) (s : State) : Host.Outcome State Fault Refusal :=
  live s (fun s => s.lockedGood feed .text)

/-- CONTROL_BLOCK (R172, R176). -/
def execControlBlock (feed : List FeedByte) (paper : Bool) (s : State) : Host.Outcome State Fault Refusal :=
  liveTables s (fun s => s.lockedGood feed .control paper)

/-- UNKNOWN_KIND_BLOCK (R172). -/
def execUnknownKindBlock (feed : List FeedByte) (s : State) : Host.Outcome State Fault Refusal :=
  live s (fun s => s.lockedGood feed .unknown)

/-! ### The return line (R178) -/

/-- RETURN_BLOCK_SENT (R178). -/
def execReturnBlockSent (s : State) : Host.Outcome State Fault Refusal :=
  live s State.blockSent

end Sys2Proof.Machine
end

