-- ==== Sys2Proof/Machine/ExecCommand.lean ====
section
/-! DEFINITION. The steps of the Command Engine: one meaning for each CONTROL command, and the end of a seal. -/

namespace Sys2Proof.Machine

/-! ### Settings and queries (chapter 11) -/

/-- SET (R181 to R183). -/
def execSet (params : List Byte) (s : State) : Host.Outcome State Fault Refusal :=
  live s (fun s => s.takeControl 0x01 params)

/-- QUERY STATUS (R184); its index is ignored. -/
def execQueryStatus (s : State) : Host.Outcome State Fault Refusal :=
  live s (fun s => s.takeControl 0x02 [0, 0])

/-- QUERY COUNTERS (R185). -/
def execQueryCounters (group : Byte) (s : State) : Host.Outcome State Fault Refusal :=
  live s (fun s => s.takeControl 0x02 [1, group])

/-- QUERY DIRECTORY (R155). -/
def execQueryDirectory (slot : Byte) (s : State) : Host.Outcome State Fault Refusal :=
  live s (fun s => s.takeControl 0x02 [2, slot])

/-- QUERY LINE (R89, R184). -/
def execQueryLine (first : Byte) (s : State) : Host.Outcome State Fault Refusal :=
  live s (fun s => s.takeControl 0x02 [3, first])

/-- QUERY WORDS (R111, R184). -/
def execQueryWords (first : Byte) (s : State) : Host.Outcome State Fault Refusal :=
  live s (fun s => s.takeControl 0x02 [4, first])

/-- QUERY USER_WORD (R126). -/
def execQueryUserWord (index : Byte) (s : State) : Host.Outcome State Fault Refusal :=
  live s (fun s => s.takeControl 0x02 [5, index])

/-- QUERY FAULTS (R152); its index is ignored. -/
def execQueryFaults (s : State) : Host.Outcome State Fault Refusal :=
  live s (fun s => s.takeControl 0x02 [6, 0])

/-! ### Tables (chapter 9) -/

/-- TABLE_OPEN (R156, R157). -/
def execTableOpen (params : List Byte) (s : State) : Host.Outcome State Fault Refusal :=
  live s (fun s => s.takeControl 0x03 params)

/-- TABLE_WRITE (R159). -/
def execTableWrite (params : List Byte) (s : State) : Host.Outcome State Fault Refusal :=
  liveTables s (fun s => s.takeControl 0x04 params)

/-- TABLE_SEAL (R160). -/
def execTableSeal (params : List Byte) (s : State) : Host.Outcome State Fault Refusal :=
  live s (fun s => s.takeControl 0x05 params)

/-- SEAL_COMPLETE (R161 to R163). -/
def execSealComplete (s : State) : Host.Outcome State Fault Refusal :=
  liveTables s State.sealDone

/-- TABLE_DROP (R165). -/
def execTableDrop (params : List Byte) (s : State) : Host.Outcome State Fault Refusal :=
  live s (fun s => s.takeControl 0x06 params)

/-! ### Tab stops and user words (R45, R126) -/

/-- TAB_ADD (R45). -/
def execTabAdd (params : List Byte) (s : State) : Host.Outcome State Fault Refusal :=
  live s (fun s => s.takeControl 0x07 params)

/-- TAB_REMOVE (R45). -/
def execTabRemove (params : List Byte) (s : State) : Host.Outcome State Fault Refusal :=
  live s (fun s => s.takeControl 0x08 params)

/-- TABS_CLEAR (R45). -/
def execTabsClear (s : State) : Host.Outcome State Fault Refusal :=
  live s (fun s => s.takeControl 0x09 [])

/-- USER_WORD_ADD (R126). -/
def execUserWordAdd (letters : List Byte) (s : State) : Host.Outcome State Fault Refusal :=
  live s (fun s => s.takeControl 0x0A letters)

/-- USER_WORD_REMOVE (R126). -/
def execUserWordRemove (letters : List Byte) (s : State) : Host.Outcome State Fault Refusal :=
  live s (fun s => s.takeControl 0x0B letters)

/-! ### Pause, faults, credit, counters (R83, R84, R150, R175, R185) -/

/-- PAUSE (R83). -/
def execPause (s : State) : Host.Outcome State Fault Refusal :=
  live s (fun s => s.takeControl 0x0C [])

/-- RESUME (R84), with what the paper sensor shows. -/
def execResume (paper : Bool) (s : State) : Host.Outcome State Fault Refusal :=
  live s (fun s => s.takeControl 0x0D [] paper)

/-- ACK_FAULT (R150). -/
def execAckFault (s : State) : Host.Outcome State Fault Refusal :=
  live s (fun s => s.takeControl 0x0E [])

/-- CREDIT_RESTATE (R175). -/
def execCreditRestate (s : State) : Host.Outcome State Fault Refusal :=
  live s (fun s => s.takeControl 0x0F [])

/-- CLEAR_COUNTERS (R185). -/
def execClearCounters (s : State) : Host.Outcome State Fault Refusal :=
  live s (fun s => s.takeControl 0x10 [])

/-! ### Restarts (R186) -/

/-- RESTART LINK (R179). -/
def execRestartLink (s : State) : Host.Outcome State Fault Refusal :=
  live s (fun s => s.takeControl 0x11 [0])

/-- RESTART TEXT (R47). -/
def execRestartText (s : State) : Host.Outcome State Fault Refusal :=
  live s (fun s => s.takeControl 0x11 [1])

/-- RESTART MECH (R88). -/
def execRestartMech (s : State) : Host.Outcome State Fault Refusal :=
  live s (fun s => s.takeControl 0x11 [2])

/-- RESTART TABLES (R167). -/
def execRestartTables (s : State) : Host.Outcome State Fault Refusal :=
  live s (fun s => s.takeControl 0x11 [3])

/-- RESTART COUNTERS (R185). -/
def execRestartCounters (s : State) : Host.Outcome State Fault Refusal :=
  live s (fun s => s.takeControl 0x11 [4])

/-- RESTART ALL (R186). -/
def execRestartAll (s : State) : Host.Outcome State Fault Refusal :=
  live s (fun s => s.takeControl 0x11 [5])

end Sys2Proof.Machine
end

