-- ==== Sys2Proof/Machine/ExecKey.lean ====
section
/-! DEFINITION. The steps of Key Intake and of the Composer's key actions: one meaning for each row. -/

namespace Sys2Proof.Machine

/-! ### Key Intake (R14 to R21) -/

/-- KEY_PRESS (R14 to R16). -/
def execKeyPress (s : State) : Host.Outcome State Fault Refusal :=
  live s State.keyPressed

/-- KEY_RELEASE (R17). -/
def execKeyRelease (s : State) : Host.Outcome State Fault Refusal :=
  live s State.keyReleased

/-- TYPEMATIC_COUNTDOWN_EXPIRY (R19). -/
def execTypematicCountdownExpiry (s : State) : Host.Outcome State Fault Refusal :=
  live s (fun s => s.repeatExpiry false)

/-- TYPEMATIC_PERIODIC_EXPIRY (R19). -/
def execTypematicPeriodicExpiry (s : State) : Host.Outcome State Fault Refusal :=
  live s (fun s => s.repeatExpiry true)

/-! ### Characters (R29, R39) -/

/-- Whether a key action is a character (R29). -/
def KeyAction.isChar : KeyAction → Bool
  | .char _ => true
  | _ => false

/-- Whether a key action is a dead character (R12). -/
def KeyAction.isDead : KeyAction → Bool
  | .dead _ => true
  | _ => false

/-- CHARACTER_KEY_ACTION (R29, R39). -/
def execCharacterKeyAction (s : State) : Host.Outcome State Fault Refusal :=
  live s (fun s => s.keyRow KeyAction.isChar)

/-- DEAD_KEY_ACTION (R12, R29, R39). -/
def execDeadKeyAction (s : State) : Host.Outcome State Fault Refusal :=
  live s (fun s => s.keyRow KeyAction.isDead)

/-- SPACE (R29, R37); a CHAR key of code 0x20 is the SPACE function too (R29). -/
def execSpace (s : State) : Host.Outcome State Fault Refusal :=
  live s (fun s => s.keyRow (fun a => a = .func .space || a = .char spaceCode))

/-! ### Functions (R37) -/

/-- RETURN (R34, R41). -/
def execReturnKey (s : State) : Host.Outcome State Fault Refusal :=
  live s (fun s => s.funcRow .returnKey)

/-- BACKSPACE (R35, R40). -/
def execBackspace (s : State) : Host.Outcome State Fault Refusal :=
  live s (fun s => s.funcRow .backspace)

/-- TAB (R46). -/
def execTab (s : State) : Host.Outcome State Fault Refusal :=
  live s (fun s => s.funcRow .tab)

/-- MARGIN_LEFT (R27). -/
def execMarginLeft (s : State) : Host.Outcome State Fault Refusal :=
  live s (fun s => s.funcRow .marginLeft)

/-- MARGIN_RIGHT (R27). -/
def execMarginRight (s : State) : Host.Outcome State Fault Refusal :=
  live s (fun s => s.funcRow .marginRight)

/-- MARGIN_RELEASE (R31). -/
def execMarginRelease (s : State) : Host.Outcome State Fault Refusal :=
  live s (fun s => s.funcRow .marginRelease)

/-- TAB_SET (R44). -/
def execTabSet (s : State) : Host.Outcome State Fault Refusal :=
  live s (fun s => s.funcRow .tabSet)

/-- DECIMAL_TAB_SET (R44). -/
def execDecimalTabSet (s : State) : Host.Outcome State Fault Refusal :=
  live s (fun s => s.funcRow .decimalTabSet)

/-- TAB_CLEAR (R44). -/
def execTabClear (s : State) : Host.Outcome State Fault Refusal :=
  live s (fun s => s.funcRow .tabClear)

/-- CORRECT (R40, R96). -/
def execCorrect (s : State) : Host.Outcome State Fault Refusal :=
  live s (fun s => s.funcRow .correct)

/-- WORD_CORRECT (R40, R102). -/
def execWordCorrect (s : State) : Host.Outcome State Fault Refusal :=
  live s (fun s => s.funcRow .wordCorrect)

/-- LINE_CORRECT (R40, R103). -/
def execLineCorrect (s : State) : Host.Outcome State Fault Refusal :=
  live s (fun s => s.funcRow .lineCorrect)

/-- RELOCATE (R40, R105). -/
def execRelocate (s : State) : Host.Outcome State Fault Refusal :=
  live s (fun s => s.funcRow .relocate)

/-- PAPER_UP (R34, R37). -/
def execPaperUp (s : State) : Host.Outcome State Fault Refusal :=
  live s (fun s => s.funcRow .paperUp)

/-- PAPER_DOWN (R34, R37). -/
def execPaperDown (s : State) : Host.Outcome State Fault Refusal :=
  live s (fun s => s.funcRow .paperDown)

/-- HALF_UP (R34, R37). -/
def execHalfUp (s : State) : Host.Outcome State Fault Refusal :=
  live s (fun s => s.funcRow .halfUp)

/-- HALF_DOWN (R34, R37). -/
def execHalfDown (s : State) : Host.Outcome State Fault Refusal :=
  live s (fun s => s.funcRow .halfDown)

/-- PITCH_CYCLE (R26). -/
def execPitchCycle (s : State) : Host.Outcome State Fault Refusal :=
  live s (fun s => s.funcRow .pitchCycle)

/-- MODE_TOGGLE (R26). -/
def execModeToggle (s : State) : Host.Outcome State Fault Refusal :=
  live s (fun s => s.funcRow .modeToggle)

/-- JUSTIFY_CYCLE (R37). -/
def execJustifyCycle (s : State) : Host.Outcome State Fault Refusal :=
  live s (fun s => s.funcRow .justifyCycle)

/-- SPELL_TOGGLE (R124). -/
def execSpellToggle (s : State) : Host.Outcome State Fault Refusal :=
  live s (fun s => s.funcRow .spellToggle)

/-- ACCEPT_WORD (R128). -/
def execAcceptWord (s : State) : Host.Outcome State Fault Refusal :=
  live s (fun s => s.funcRow .acceptWord)

/-- ADD_WORD (R127). -/
def execAddWord (s : State) : Host.Outcome State Fault Refusal :=
  live s (fun s => s.funcRow .addWord)

/-- CURSOR_LEFT (R40). -/
def execCursorLeft (s : State) : Host.Outcome State Fault Refusal :=
  live s (fun s => s.funcRow .cursorLeft)

/-- CURSOR_RIGHT (R40). -/
def execCursorRight (s : State) : Host.Outcome State Fault Refusal :=
  live s (fun s => s.funcRow .cursorRight)

/-- BOLD_TOGGLE (R38). -/
def execBoldToggle (s : State) : Host.Outcome State Fault Refusal :=
  live s (fun s => s.funcRow .boldToggle)

/-- UNDERLINE_TOGGLE (R38). -/
def execUnderlineToggle (s : State) : Host.Outcome State Fault Refusal :=
  live s (fun s => s.funcRow .underlineToggle)

/-- PAUSE_KEY (R83, R84), with what the paper sensor shows. -/
def execPauseKey (paper : Bool) (s : State) : Host.Outcome State Fault Refusal :=
  live s (fun s => s.funcRow .pause paper)

/-- SOURCE_TOGGLE (R26). -/
def execSourceToggle (s : State) : Host.Outcome State Fault Refusal :=
  live s (fun s => s.funcRow .sourceToggle)

end Sys2Proof.Machine
end

