-- ==== Sys2Proof/Machine/ExecText.lean ====
section
/-! DEFINITION. The steps of remote text and of the outgoing line: one meaning for each row. -/

namespace Sys2Proof.Machine

/-! ### Remote text (R29, R36) -/

/-- REMOTE_PRINTABLE_CHAR (R29, R30, R32). -/
def execRemotePrintableChar (s : State) : Host.Outcome State Fault Refusal :=
  live s (fun s => s.textRow (fun c => 0x20 ≤ c.toNat))

/-- REMOTE_CR (R34, R36). -/
def execRemoteCr (s : State) : Host.Outcome State Fault Refusal :=
  live s (fun s => s.textRow (fun c => c = 0x0D))

/-- REMOTE_LF (R34, R36). -/
def execRemoteLf (s : State) : Host.Outcome State Fault Refusal :=
  live s (fun s => s.textRow (fun c => c = 0x0A))

/-- REMOTE_FF (R34, R36). -/
def execRemoteFf (s : State) : Host.Outcome State Fault Refusal :=
  live s (fun s => s.textRow (fun c => c = 0x0C))

/-- REMOTE_BS (R35, R36). -/
def execRemoteBs (s : State) : Host.Outcome State Fault Refusal :=
  live s (fun s => s.textRow (fun c => c = 0x08))

/-- REMOTE_HT (R36, R46). -/
def execRemoteHt (s : State) : Host.Outcome State Fault Refusal :=
  live s (fun s => s.textRow (fun c => c = 0x09))

/-- Whether a code is a control that R36 gives no action. -/
def isUnmapped (c : Byte) : Bool :=
  c.toNat < 0x20 && c ≠ 0x0D && c ≠ 0x0A && c ≠ 0x0C && c ≠ 0x08 && c ≠ 0x09

/-- UNMAPPED_CONTROL (R36). -/
def execUnmappedControl (s : State) : Host.Outcome State Fault Refusal :=
  live s (fun s => s.textRow (isUnmapped))

/-! ### The outgoing line (R42) -/

/-- OUTGOING_PLACEMENT_APPENDED (R42). -/
def execOutgoingPlacementAppended (s : State) : Host.Outcome State Fault Refusal :=
  live s (fun s => s.streamPlacement.settle s)

/-- OUTGOING_LINE_END (R42). -/
def execOutgoingLineEnd (s : State) : Host.Outcome State Fault Refusal :=
  live s (fun s => s.endOutgoing.settle s)

end Sys2Proof.Machine
end

