-- ==== Sys2Proof/Machine/ExecMech.lean ====
section
/-! DEFINITION. The steps of the mechanism, the Drive Stages, the lookup engine and the beeper: one meaning for each row. -/

namespace Sys2Proof.Machine

/-! ### Orders (R72 to R82) -/

/-- POSITION_COMPLETE (R74 to R76). -/
def execPositionComplete (s : State) : Host.Outcome State Fault Refusal :=
  live s (fun s => s.positionComplete.settle s)

/-- HEAT_DECAY_TICK (R76). -/
def execHeatDecayTick (s : State) : Host.Outcome State Fault Refusal :=
  live s State.heatTick

/-- HAMMER_PULSE_COMPLETE (R75). -/
def execHammerPulseComplete (s : State) : Host.Outcome State Fault Refusal :=
  live s (fun s => s.pulseComplete.settle s)

/-- RECOVER_COMPLETE (R77). -/
def execRecoverComplete (s : State) : Host.Outcome State Fault Refusal :=
  live s (fun s => s.recoverComplete.settle s)

/-- MOVE_COMPLETE (R80). -/
def execMoveComplete (s : State) : Host.Outcome State Fault Refusal :=
  live s (fun s => s.moveComplete.settle s)

/-- INDEX_COMPLETE (R81, R82), with what the paper sensor shows. -/
def execIndexComplete (paper : Bool) (s : State) : Host.Outcome State Fault Refusal :=
  live s (fun s => (s.indexComplete paper).settle s)

/-- LIFT_MOTION_COMPLETE (R74, R79). -/
def execLiftMotionComplete (s : State) : Host.Outcome State Fault Refusal :=
  live s (fun s => s.liftComplete.settle s)

/-- LIFT_REST_TIMER_EXPIRY (R79). -/
def execLiftRestTimerExpiry (s : State) : Host.Outcome State Fault Refusal :=
  live s State.restExpiry

/-! ### The cover (R85, R86) -/

/-- COVER_OPEN (R85); while the reset input is held the switch alone changes (R187). -/
def execCoverOpen (s : State) : Host.Outcome State Fault Refusal :=
  .next (if s.resetHeld then { s with coverOpen := true } else s.openCover.settle s)

/-- COVER_CLOSE (R86); while the reset input is held the switch alone changes (R187). -/
def execCoverClose (s : State) : Host.Outcome State Fault Refusal :=
  .next (if s.resetHeld then { s with coverOpen := false } else s.closeCover.settle s)

/-! ### Homing (R69 to R71) -/

/-- HOME_SENSOR_SEEN (R70, R147). -/
def execHomeSensorSeen (s : State) : Host.Outcome State Fault Refusal :=
  live s (fun s => s.homeSeen.settle s)

/-- Step 1 has not found the home sensor (R70, R147): the carriage position is not known. -/
def State.homeLost (s : State) : State :=
  if s.seq.homing = some .home then
    State.homingFault { s with seq := { s.seq with carriage := none } } .homeNotFound .carriage
  else s

/-- HOME_NOT_FOUND (R70, R147). -/
def execHomeNotFound (s : State) : Host.Outcome State Fault Refusal :=
  live s (fun s => s.homeLost.settle s)

/-- HOMING_RETURN_COMPLETE (R70). -/
def execHomingReturnComplete (s : State) : Host.Outcome State Fault Refusal :=
  live s (fun s => s.returnComplete.settle s)

/-- INDEX_MARK_SEEN (R71, R147). -/
def execIndexMarkSeen (s : State) : Host.Outcome State Fault Refusal :=
  live s (fun s => s.indexSeen.settle s)

/-- Step 3 has not found the index mark (R71, R147): the petal is not known. -/
def State.indexLost (s : State) : State :=
  if s.seq.homing = some .index then
    State.homingFault { s with seq := { s.seq with petal := none } } .wheelIndexLost .wheel
  else s

/-- WHEEL_INDEX_LOST (R71, R147). -/
def execWheelIndexLost (s : State) : Host.Outcome State Fault Refusal :=
  live s (fun s => s.indexLost.settle s)

/-- IDENTIFICATION_READ (R6, R7). -/
def execIdentificationRead (code : BitVec 6) (s : State) : Host.Outcome State Fault Refusal :=
  live s (fun s => (s.identRead code.toNat).settle s)

/-! ### Drive Stages (R143 to R146) -/

/-- OFF_STATE_TEST_COMPLETE (R143 to R145), with the result. -/
def execOffStateTestComplete (pass : Bool) (s : State) : Host.Outcome State Fault Refusal :=
  live s (fun s => (s.testComplete pass).settle s)

/-- ROTATION_TIMER_EXPIRY (R145). -/
def execRotationTimerExpiry (s : State) : Host.Outcome State Fault Refusal :=
  live s State.rotationExpiry

/-- OVERCURRENT (R146). -/
def execOvercurrent (ch : Channel) (s : State) : Host.Outcome State Fault Refusal :=
  live s (fun s => (s.overcurrent ch).settle s)

/-! ### Lookup engine and beeper (R119, R138) -/

/-- LOOKUP_COMPLETE (R119, R120). -/
def execLookupComplete (s : State) : Host.Outcome State Fault Refusal :=
  live s (fun s => s.completeLookup.settle s)

/-- What follows an interval of the sounding pattern: its next interval, or none at its end (R138). -/
def Sounding.next (b : Sounding) : Option Sounding :=
  if b.interval + 1 < b.pattern.intervals then some { b with interval := b.interval + 1, cutOff := false } else none

/-- An interval expires: the sounding pattern goes on or ends (R138). The first expiry after a REFUSED was cut off is
that of the REFUSED, which has no effect, or one of the pattern that sounds (R139): a free value (log entry 58). -/
def State.nextInterval (s : State) : State :=
  match s.disp.beeper with
  | none => s
  | some b =>
    if b.cutOff then
      let after := if Config.cutOffExpiry s.free then some { b with cutOff := false } else b.next
      { s with disp := { s.disp with beeper := after }, free := s.free + 1 }
    else { s with disp := { s.disp with beeper := b.next } }

/-- BEEPER_INTERVAL_EXPIRY (R138, R139). -/
def execBeeperIntervalExpiry (s : State) : Host.Outcome State Fault Refusal :=
  live s State.nextInterval

end Sys2Proof.Machine
end

