-- ==== Sys2Proof/Machine/Dispatch.lean ====
section
/-! DEFINITION. The dispatch of the steps to their meanings: one arm per row of the table. -/

namespace Sys2Proof.Machine

def exec (i : Instr) (s : State) : Host.Outcome State Fault Refusal :=
  match i with
  | .resetAsserted => Sys2Proof.Machine.execResetAsserted s
  | .resetReleased => Sys2Proof.Machine.execResetReleased s
  | .huntCandidateBlock feed => Sys2Proof.Machine.execHuntCandidateBlock feed s
  | .confirmBlock feed paper => Sys2Proof.Machine.execConfirmBlock feed paper s
  | .confirmStrayByte feed => Sys2Proof.Machine.execConfirmStrayByte feed s
  | .lockedStrayByte feed => Sys2Proof.Machine.execLockedStrayByte feed s
  | .badBlock feed => Sys2Proof.Machine.execBadBlock feed s
  | .keyBlock feed => Sys2Proof.Machine.execKeyBlock feed s
  | .textBlock feed => Sys2Proof.Machine.execTextBlock feed s
  | .controlBlock feed paper => Sys2Proof.Machine.execControlBlock feed paper s
  | .unknownKindBlock feed => Sys2Proof.Machine.execUnknownKindBlock feed s
  | .set params => Sys2Proof.Machine.execSet params s
  | .queryStatus => Sys2Proof.Machine.execQueryStatus s
  | .queryCounters group => Sys2Proof.Machine.execQueryCounters group s
  | .queryDirectory slot => Sys2Proof.Machine.execQueryDirectory slot s
  | .queryLine first => Sys2Proof.Machine.execQueryLine first s
  | .queryWords first => Sys2Proof.Machine.execQueryWords first s
  | .queryUserWord index => Sys2Proof.Machine.execQueryUserWord index s
  | .queryFaults => Sys2Proof.Machine.execQueryFaults s
  | .tableOpen params => Sys2Proof.Machine.execTableOpen params s
  | .tableWrite params => Sys2Proof.Machine.execTableWrite params s
  | .tableSeal params => Sys2Proof.Machine.execTableSeal params s
  | .sealComplete => Sys2Proof.Machine.execSealComplete s
  | .tableDrop params => Sys2Proof.Machine.execTableDrop params s
  | .tabAdd params => Sys2Proof.Machine.execTabAdd params s
  | .tabRemove params => Sys2Proof.Machine.execTabRemove params s
  | .tabsClear => Sys2Proof.Machine.execTabsClear s
  | .userWordAdd letters => Sys2Proof.Machine.execUserWordAdd letters s
  | .userWordRemove letters => Sys2Proof.Machine.execUserWordRemove letters s
  | .pause => Sys2Proof.Machine.execPause s
  | .resume paper => Sys2Proof.Machine.execResume paper s
  | .ackFault => Sys2Proof.Machine.execAckFault s
  | .creditRestate => Sys2Proof.Machine.execCreditRestate s
  | .clearCounters => Sys2Proof.Machine.execClearCounters s
  | .restartLink => Sys2Proof.Machine.execRestartLink s
  | .restartText => Sys2Proof.Machine.execRestartText s
  | .restartMech => Sys2Proof.Machine.execRestartMech s
  | .restartTables => Sys2Proof.Machine.execRestartTables s
  | .restartCounters => Sys2Proof.Machine.execRestartCounters s
  | .restartAll => Sys2Proof.Machine.execRestartAll s
  | .keyPress => Sys2Proof.Machine.execKeyPress s
  | .keyRelease => Sys2Proof.Machine.execKeyRelease s
  | .typematicCountdownExpiry => Sys2Proof.Machine.execTypematicCountdownExpiry s
  | .typematicPeriodicExpiry => Sys2Proof.Machine.execTypematicPeriodicExpiry s
  | .characterKeyAction => Sys2Proof.Machine.execCharacterKeyAction s
  | .deadKeyAction => Sys2Proof.Machine.execDeadKeyAction s
  | .space => Sys2Proof.Machine.execSpace s
  | .returnKey => Sys2Proof.Machine.execReturnKey s
  | .backspace => Sys2Proof.Machine.execBackspace s
  | .tab => Sys2Proof.Machine.execTab s
  | .marginLeft => Sys2Proof.Machine.execMarginLeft s
  | .marginRight => Sys2Proof.Machine.execMarginRight s
  | .marginRelease => Sys2Proof.Machine.execMarginRelease s
  | .tabSet => Sys2Proof.Machine.execTabSet s
  | .decimalTabSet => Sys2Proof.Machine.execDecimalTabSet s
  | .tabClear => Sys2Proof.Machine.execTabClear s
  | .correct => Sys2Proof.Machine.execCorrect s
  | .wordCorrect => Sys2Proof.Machine.execWordCorrect s
  | .lineCorrect => Sys2Proof.Machine.execLineCorrect s
  | .relocate => Sys2Proof.Machine.execRelocate s
  | .paperUp => Sys2Proof.Machine.execPaperUp s
  | .paperDown => Sys2Proof.Machine.execPaperDown s
  | .halfUp => Sys2Proof.Machine.execHalfUp s
  | .halfDown => Sys2Proof.Machine.execHalfDown s
  | .pitchCycle => Sys2Proof.Machine.execPitchCycle s
  | .modeToggle => Sys2Proof.Machine.execModeToggle s
  | .justifyCycle => Sys2Proof.Machine.execJustifyCycle s
  | .spellToggle => Sys2Proof.Machine.execSpellToggle s
  | .acceptWord => Sys2Proof.Machine.execAcceptWord s
  | .addWord => Sys2Proof.Machine.execAddWord s
  | .cursorLeft => Sys2Proof.Machine.execCursorLeft s
  | .cursorRight => Sys2Proof.Machine.execCursorRight s
  | .boldToggle => Sys2Proof.Machine.execBoldToggle s
  | .underlineToggle => Sys2Proof.Machine.execUnderlineToggle s
  | .pauseKey paper => Sys2Proof.Machine.execPauseKey paper s
  | .sourceToggle => Sys2Proof.Machine.execSourceToggle s
  | .remotePrintableChar => Sys2Proof.Machine.execRemotePrintableChar s
  | .remoteCr => Sys2Proof.Machine.execRemoteCr s
  | .remoteLf => Sys2Proof.Machine.execRemoteLf s
  | .remoteFf => Sys2Proof.Machine.execRemoteFf s
  | .remoteBs => Sys2Proof.Machine.execRemoteBs s
  | .remoteHt => Sys2Proof.Machine.execRemoteHt s
  | .unmappedControl => Sys2Proof.Machine.execUnmappedControl s
  | .outgoingPlacementAppended => Sys2Proof.Machine.execOutgoingPlacementAppended s
  | .outgoingLineEnd => Sys2Proof.Machine.execOutgoingLineEnd s
  | .positionComplete => Sys2Proof.Machine.execPositionComplete s
  | .heatDecayTick => Sys2Proof.Machine.execHeatDecayTick s
  | .hammerPulseComplete => Sys2Proof.Machine.execHammerPulseComplete s
  | .recoverComplete => Sys2Proof.Machine.execRecoverComplete s
  | .moveComplete => Sys2Proof.Machine.execMoveComplete s
  | .indexComplete paper => Sys2Proof.Machine.execIndexComplete paper s
  | .liftMotionComplete => Sys2Proof.Machine.execLiftMotionComplete s
  | .liftRestTimerExpiry => Sys2Proof.Machine.execLiftRestTimerExpiry s
  | .coverOpen => Sys2Proof.Machine.execCoverOpen s
  | .coverClose => Sys2Proof.Machine.execCoverClose s
  | .homeSensorSeen => Sys2Proof.Machine.execHomeSensorSeen s
  | .homeNotFound => Sys2Proof.Machine.execHomeNotFound s
  | .homingReturnComplete => Sys2Proof.Machine.execHomingReturnComplete s
  | .indexMarkSeen => Sys2Proof.Machine.execIndexMarkSeen s
  | .wheelIndexLost => Sys2Proof.Machine.execWheelIndexLost s
  | .identificationRead code => Sys2Proof.Machine.execIdentificationRead code s
  | .offStateTestComplete pass => Sys2Proof.Machine.execOffStateTestComplete pass s
  | .rotationTimerExpiry => Sys2Proof.Machine.execRotationTimerExpiry s
  | .overcurrent ch => Sys2Proof.Machine.execOvercurrent ch s
  | .lookupComplete => Sys2Proof.Machine.execLookupComplete s
  | .returnBlockSent => Sys2Proof.Machine.execReturnBlockSent s
  | .beeperIntervalExpiry => Sys2Proof.Machine.execBeeperIntervalExpiry s

end Sys2Proof.Machine
end

