-- ==== Sys2Proof/WellFormed.lean ====
section
/-! DEFINITION. Which commands can be sent at all: what the wires of the Typing Link can carry.
A block's payload is at most 48 bytes (R168), so the parameters after a command code are at most 47,
and a receiver row brings at most the bytes of one block of the largest size (52). -/

namespace Sys2Proof

/-- The longest block on the line: START, HEAD, LEN, 48 payload bytes and CHECK (R168). -/
def maxBlockBytes : Nat := 52

/-- The most payload bytes that can follow a command code (R168, R188). -/
def maxParams : Nat := 47

/-- A command that the two lines and the sensors can deliver. -/
def Instr.wellFormed : Instr → Bool
  | .huntCandidateBlock f => f.length ≤ maxBlockBytes
  | .confirmBlock f _     => f.length ≤ maxBlockBytes
  | .confirmStrayByte f   => f.length ≤ maxBlockBytes
  | .lockedStrayByte f    => f.length ≤ maxBlockBytes
  | .badBlock f           => f.length ≤ maxBlockBytes
  | .keyBlock f           => f.length ≤ maxBlockBytes
  | .textBlock f          => f.length ≤ maxBlockBytes
  | .controlBlock f _     => f.length ≤ maxBlockBytes
  | .unknownKindBlock f   => f.length ≤ maxBlockBytes
  | .set p                => p.length ≤ maxParams
  | .tableOpen p          => p.length ≤ maxParams
  | .tableWrite p         => p.length ≤ maxParams
  | .tableSeal p          => p.length ≤ maxParams
  | .tableDrop p          => p.length ≤ maxParams
  | .tabAdd p             => p.length ≤ maxParams
  | .tabRemove p          => p.length ≤ maxParams
  | .userWordAdd p        => p.length ≤ maxParams
  | .userWordRemove p     => p.length ≤ maxParams
  | _                     => true

end Sys2Proof
end

