-- ==== Sys2Proof/Safety.lean ====
section
/-! DEFINITION. The terms in which claims about the part are made: what a step leaves unchanged, what the image
shows after it, when a command or an item is acted on at once, the two queues of the link as a claim reads
them, and the properties of a state that every step is to keep. -/

namespace Sys2Proof.Machine

/-! ### What a step leaves unchanged -/

/-- The parts of the state that a frame names one by one; `image` is the current image and the display
slot (R130). -/
inductive Part where
  | pending | resetHeld | coverOpen | free | rx | keyq | txt | ret | set | ctr | mem | slots | sealing
  | intake | comp | seq | drv | line | spell | window | image | lastSent | beeper
  deriving DecidableEq, Repr

/-- Two states agree on a part. -/
def State.same (s t : State) : Part → Prop
  | .pending => t.pending = s.pending
  | .resetHeld => t.resetHeld = s.resetHeld
  | .coverOpen => t.coverOpen = s.coverOpen
  | .free => t.free = s.free
  | .rx => t.rx = s.rx
  | .keyq => t.keyq = s.keyq
  | .txt => t.txt = s.txt
  | .ret => t.ret = s.ret
  | .set => t.set = s.set
  | .ctr => t.ctr = s.ctr
  | .mem => t.tab.mem = s.tab.mem
  | .slots => t.tab.slots = s.tab.slots
  | .sealing => t.tab.sealing = s.tab.sealing
  | .intake => t.intake = s.intake
  | .comp => t.comp = s.comp
  | .seq => t.seq = s.seq
  | .drv => t.drv = s.drv
  | .line => t.line = s.line
  | .spell => t.spell = s.spell
  | .window => t.disp.window = s.disp.window
  | .image => t.disp.current = s.disp.current ∧ t.disp.slot = s.disp.slot
  | .lastSent => t.disp.lastSent = s.disp.lastSent
  | .beeper => t.disp.beeper = s.disp.beeper

/-- Every part but those listed is unchanged from `s` to `t`. -/
def State.keeps (s t : State) (changed : List Part) : Prop := ∀ p, p ∉ changed → s.same t p

/-- What the Display Unit holds after a step from `s` to `t` (R136, R137): with DISPLAY ON the current image is
that of `t`, waiting in the slot unless it was the last one sent; with DISPLAY OFF both stand. -/
def State.imageFollows (s t : State) : Prop :=
  if t.set.display then
    t.disp.current = some t.image ∧ t.disp.slot = if t.disp.lastSent = some t.image then none else some t.image
  else t.disp.current = s.disp.current ∧ t.disp.slot = s.disp.slot

/-! ### When a command or an item is acted on at once -/

/-- The reset input is released and no item of a feed waits at the Composer (R28, R187). -/
abbrev State.quiet (s : State) : Prop :=
  s.resetHeld = false ∧ s.comp.keyWait = none ∧ s.comp.textWait = none

/-- A CONTROL command is taken and carried out (R160, R176): there is a free place for its answer and no
seal is in progress. -/
abbrev State.commandReady (s : State) : Prop :=
  s.resetHeld = false ∧ s.ret.hasFree = true ∧ s.tab.sealing = none

/-- The key action at the front is to be evaluated now (R16, R28). -/
abbrev State.turnOf (s : State) (a : KeyAction) : Prop := s.quiet ∧ s.selected = some a

/-- The remote code at the front is to be evaluated now (R23): it is REMOTE source's turn and no key action is
ready. -/
abbrev State.textTurn (s : State) (code : Byte) (rest : List Byte) : Prop :=
  s.quiet ∧ s.comp.source = .remoteText ∧ s.selected = none ∧ s.txt.queue = code :: rest

/-- The Composer takes the key action `a` from Key Intake in a step from `s` to `t` (R16, R19, R104, R129). -/
def State.tookKey (s t : State) (a : KeyAction) : Prop :=
  t.keyq = s.dropSelected.keyq ∧ t.intake = s.dropSelected.intake ∧ t.comp.keyWait = none ∧
    t.comp.textWait = none ∧ t.line.run = none ∧
    t.comp.override = (decide (a = .func .returnKey) && s.comp.override)

/-- The row that evaluates a key action (R37), none for the functions that Key Intake keeps to itself. -/
def rowOf (paper : Bool) : KeyAction → Option Instr
  | .char _ => some .characterKeyAction
  | .dead _ => some .deadKeyAction
  | .func .shift => none
  | .func .code => none
  | .func .shiftLock => none
  | .func .space => some .space
  | .func .returnKey => some .returnKey
  | .func .backspace => some .backspace
  | .func .tab => some .tab
  | .func .marginLeft => some .marginLeft
  | .func .marginRight => some .marginRight
  | .func .marginRelease => some .marginRelease
  | .func .tabSet => some .tabSet
  | .func .tabClear => some .tabClear
  | .func .decimalTabSet => some .decimalTabSet
  | .func .correct => some .correct
  | .func .wordCorrect => some .wordCorrect
  | .func .lineCorrect => some .lineCorrect
  | .func .relocate => some .relocate
  | .func .paperUp => some .paperUp
  | .func .paperDown => some .paperDown
  | .func .halfUp => some .halfUp
  | .func .halfDown => some .halfDown
  | .func .pitchCycle => some .pitchCycle
  | .func .modeToggle => some .modeToggle
  | .func .justifyCycle => some .justifyCycle
  | .func .spellToggle => some .spellToggle
  | .func .acceptWord => some .acceptWord
  | .func .addWord => some .addWord
  | .func .cursorLeft => some .cursorLeft
  | .func .cursorRight => some .cursorRight
  | .func .boldToggle => some .boldToggle
  | .func .underlineToggle => some .underlineToggle
  | .func .pause => some (.pauseKey paper)
  | .func .sourceToggle => some .sourceToggle

/-- The key action `a` is refused in a step from `s` to `t` (R28): it is taken, a REFUSED signal is asked for and
nothing else happens. -/
def State.refusedKey (s t : State) (a : KeyAction) : Prop :=
  s.tookKey t a ∧ t.comp = { s.comp with override := decide (a = .func .returnKey) && s.comp.override } ∧
    t.line = { s.line with run := none } ∧ t.disp.beeper = (s.signal .refused).disp.beeper ∧
    s.keeps t [.keyq, .intake, .comp, .line, .beeper, .image] ∧ s.imageFollows t

/-- The state once the key action at the front waits (R28): it stays where it is, and nothing else changes. -/
def State.waitsKey (s : State) (c : WaitCause) : State :=
  State.formImage { s with comp := { s.comp with keyWait := some c } }

/-- The state once the remote code at the front waits (R23, R28). -/
def State.waitsText (s : State) (c : WaitCause) : State :=
  State.formImage { s with comp := { s.comp with textWait := some c } }

/-- The row that evaluates a remote code (R29, R36). -/
def textRowOf (code : Byte) : Instr :=
  if 0x20 ≤ code.toNat then .remotePrintableChar
  else if code = 0x0D then .remoteCr
  else if code = 0x0A then .remoteLf
  else if code = 0x0C then .remoteFf
  else if code = 0x08 then .remoteBs
  else if code = 0x09 then .remoteHt
  else .unmappedControl

/-- The rows by which the mechanism, the wheel, a lookup or the outgoing line goes on by itself. -/
def goesOnByItself : Instr → Bool
  | .positionComplete | .hammerPulseComplete | .recoverComplete | .moveComplete | .indexComplete _
  | .liftMotionComplete | .coverOpen | .coverClose | .homeSensorSeen | .homeNotFound | .homingReturnComplete
  | .indexMarkSeen | .wheelIndexLost | .identificationRead _ | .offStateTestComplete _ | .overcurrent _
  | .lookupComplete | .outgoingPlacementAppended | .outgoingLineEnd => true
  | _ => false

/-- What an item waits on has changed from `s` to `u` (R28): room has freed in the print queue, the outgoing line has
ended, a word has left PENDING or HOLD_ON_MISS has changed, a wheel map has become active, or the order in flight has
left flight. -/
def State.causeChanged (s u : State) : WaitCause → Prop
  | .room => u.seq.queue.length < s.seq.queue.length
  | .outgoing => s.comp.outgoing ≠ none ∧ u.comp.outgoing = none
  | .verdict => u.set.holdOnMiss ≠ s.set.holdOnMiss ∨
      ∃ w ∈ s.spell.words, w.verdict = .pending ∧ ∀ v ∈ u.spell.words, v.num = w.num → v.verdict ≠ .pending
  | .wheelMap => u.active .wheelMap ≠ none ∧ u.active .wheelMap ≠ s.active .wheelMap
  | .inFlight => s.seq.flight ≠ none ∧ (u.seq.flight = none ∨ u.seq.queue.head? ≠ s.seq.queue.head?)

/-- Entries without their word references (R111). -/
def plain (l : List Entry) : List Entry := l.map (fun e => { e with word := none })

/-- Composition records without their word references (R111). -/
def plainRecs (l : List CompRec) : List CompRec := l.map (fun c => { c with word := none })

/-- The remote code at the front is taken in a step from `s` to `t` (R23, R175). -/
def State.tookText (s t : State) (rest : List Byte) : Prop :=
  t.txt = { s.txt with queue := rest, unsent := s.txt.unsent + 1 }

/-- The petal, the wheel and the level of a strike that has printed (R91). -/
def StrikeStatus.printedAs : StrikeStatus → Option (Nat × Nat × Nat)
  | .printed petal wheel level => some (petal, wheel, level)
  | _ => none

/-- A fault list once the record of a kind and channel is no longer present (R148). -/
def cleared (l : List FaultRec) (k : FaultKind) (ch : Channel) : List FaultRec :=
  l.map (fun r => if r.kind = k ∧ r.ch = ch then { r with isPresent := false } else r)

/-- The state once the mechanism has changed to another state, with its event (R67); a rotation test ends when IDLE or
HALTED is left (R145). -/
def State.changedTo (s : State) (st : MechState) (r : Reason) : State :=
  State.event { s with
    seq := { s.seq with state := st, reason := r }
    drv := { s.drv with rotTest := none } } (.mechState st r)

/-- The wheel condition judged again in WHEEL_WAIT (R10): READY leaves the wait, the other failing condition changes its
reason and is told as on entry, and the same failing condition changes nothing. -/
def State.judged (s : State) : State :=
  if s.set.expectedWheel ≠ 0 ∧ s.set.expectedWheel ≠ s.seq.wheelCode then
    if s.seq.reason = .mismatch then s
    else State.event (State.event { s with seq := { s.seq with reason := .mismatch } } (.mechState .wheelWait .mismatch))
      (.wheelMismatch s.set.expectedWheel s.seq.wheelCode)
  else if s.active .wheelMap = none then
    if s.seq.reason = .noMap then s
    else State.event (State.event { s with seq := { s.seq with reason := .noMap } } (.mechState .wheelWait .noMap))
      (.wheelNoMap s.seq.wheelCode)
  else
    match s.seq.pauseReq with
    | some r => State.changedTo { s with seq := { s.seq with pauseReq := none } } .paused (if r = .key then .key else .command)
    | none => if s.seq.queue = [] then s.changedTo .idle .none else (s.changedTo .running .none).runQueue

/-- The Print Sequencer once the order at the head has left the queue. -/
def Sequencer.popped (q : Sequencer) : Sequencer :=
  { q with queue := q.queue.tail, flight := none, heatCounted := false }

/-- The pause request once a pause in force has become one; reason PAPER becomes none (R69, R85, R87). -/
def Sequencer.pauseKept (q : Sequencer) : Option PauseReason :=
  if q.state = .paused ∧ q.pauseReq = none then
    if q.reason = .key then some .key else if q.reason = .command then some .command else none
  else q.pauseReq

/-- The entries once the strike `num` of the entry `ref` has another status (R94). -/
def strikeSet (l : List Entry) (ref : Option Word) (num : Word) (f : StrikeStatus → StrikeStatus) : List Entry :=
  l.map (fun e => if ref = some e.seqNum then
    { e with strikes := e.strikes.map (fun k => if k.num = num then { k with status := f k.status } else k) } else e)

/-! ### The feed and the report queue -/

/-- The feed bytes of a good block (R168). -/
def goodFeed (head : Byte) (payload : List Byte) : List FeedByte :=
  (blockBytes head payload).map (fun b => ⟨b, false⟩)

/-- The return line with an ANSWER queued (R177). -/
def ReturnLine.answered (r : ReturnLine) (code : Byte) (o : CmdOutcome) (data : List Byte) : ReturnLine :=
  { r with reports := r.reports ++ [.answer code o data] }

/-- The return line with an EVENT queued into a free place (R177). -/
def ReturnLine.told (r : ReturnLine) (e : Event) : ReturnLine :=
  { r with reports := r.reports ++ [.event e r.lost], lost := false }

/-- What leaving LOCKED leaves (R18, R171), with the bytes from which scanning goes on: the receiver in HUNT, EVENT
LINK_LOST queued, SYNC_LOSSES raised, every held key released, SHIFT_LOCK and the typematic repeat gone, and a repeat
that waited at the Composer withdrawn with the correction run it had begun (log entry 39). -/
def State.lostLock (s : State) (rest : List FeedByte) : State :=
  let u := State.event { s with rx := { s.rx with sync := .hunt, buf := rest } } .linkLost
  { u with
    ctr := u.ctr.raise .syncLosses 1
    intake := { s.intake with held := [], shiftLock := false, timer := none, pendingRepeat := none }
    comp := { s.comp with keyWait := if s.intake.pendingRepeat.isSome then none else s.comp.keyWait }
    line := { s.line with run := if s.intake.pendingRepeat.isSome then none else s.line.run } }

/-- The command code and the parameters of the CONTROL payload that a command row stands for (section 12.2),
none for a row that is no command. -/
def payloadOf : Instr → Option (Byte × List Byte)
  | .set p => some (0x01, p)
  | .queryStatus => some (0x02, [0, 0])
  | .queryCounters g => some (0x02, [1, g])
  | .queryDirectory i => some (0x02, [2, i])
  | .queryLine i => some (0x02, [3, i])
  | .queryWords i => some (0x02, [4, i])
  | .queryUserWord i => some (0x02, [5, i])
  | .queryFaults => some (0x02, [6, 0])
  | .tableOpen p => some (0x03, p)
  | .tableWrite p => some (0x04, p)
  | .tableSeal p => some (0x05, p)
  | .tableDrop p => some (0x06, p)
  | .tabAdd p => some (0x07, p)
  | .tabRemove p => some (0x08, p)
  | .tabsClear => some (0x09, [])
  | .userWordAdd l => some (0x0A, l)
  | .userWordRemove l => some (0x0B, l)
  | .pause => some (0x0C, [])
  | .resume _ => some (0x0D, [])
  | .ackFault => some (0x0E, [])
  | .creditRestate => some (0x0F, [])
  | .clearCounters => some (0x10, [])
  | .restartLink => some (0x11, [0])
  | .restartText => some (0x11, [1])
  | .restartMech => some (0x11, [2])
  | .restartTables => some (0x11, [3])
  | .restartCounters => some (0x11, [4])
  | .restartAll => some (0x11, [5])
  | _ => none

/-! ### What every step is to keep -/

/-- The places of the remote text queue in use, the unsent credit and the balance make 96 (R174). -/
def State.creditWhole (s : State) : Prop := s.txt.queue.length + s.txt.unsent + s.txt.balance = textPlaces

/-- The heat accumulator is at most 255 (R76). -/
def State.heatBounded (s : State) : Prop := s.seq.heat ≤ 255

/-- The directory holds 12 slots; each run in use has at least one segment and lies in the memory that exists,
and no two runs share a segment (R154, R155); a seal works on an OPEN slot (R160). -/
def State.directoryWhole (s : State) : Prop :=
  s.tab.slots.length = slotCount ∧ runsInside s.tab.slots = true ∧
    (∀ d ∈ s.tab.slots, d.state ≠ .empty → 0 < d.count) ∧
    s.tab.slots.Pairwise (fun d e => d.state ≠ .empty → e.state ≠ .empty → d.meets e.first e.count = false) ∧
    ∀ e, s.tab.sealing = some e → (slotAt s.tab.slots e.slot).state = .opened

/-- The figure of a seal in progress is the table check of the bytes read so far (R160, R161). -/
def State.sealFollows (s : State) : Prop :=
  ∀ e, s.tab.sealing = some e →
    e.figure = tableCheck ((slotBytes s.tab.mem (slotAt s.tab.slots e.slot)).take e.progress)

/-- No two SEALED slots have the same kind and key (R162). -/
def State.sealedOnce (s : State) : Prop :=
  s.tab.slots.Pairwise (fun d e => ¬(d.state = .sealed ∧ e.state = .sealed ∧ d.kind = e.kind ∧ d.key = e.key))

/-- The report queue keeps its places (R176, R177): at most 24 records and reservations, at most 22 EVENTs,
and a place reserved while a seal runs. -/
def State.reportsBounded (s : State) : Prop :=
  s.ret.fill ≤ reportPlaces ∧ s.ret.eventCount ≤ eventPlaces ∧
    s.ret.reserved = if s.tab.sealing.isSome then 1 else 0

/-- The image is up to date (R136, R137): with DISPLAY ON the current image is that of the state and waits in
the slot unless it was sent last; with DISPLAY OFF the slot is empty. -/
def State.imageCurrent (s : State) : Prop :=
  s.resetHeld = false →
    if s.set.display then
      s.disp.current = some s.image ∧ s.disp.slot = if s.disp.lastSent = some s.image then none else some s.image
    else s.disp.slot = none

/-- The queues and lists of the part keep within their places (R39, R44, R66, R89, R111, R117, R126, R148, R171,
R173); the tab stops stand in order, each position once (R44). -/
def State.listsBounded (s : State) : Prop :=
  s.keyq.queue.length ≤ keyPlaces ∧ s.comp.recs.length ≤ recPlaces ∧ s.comp.tabs.length ≤ tabPlaces ∧
    s.comp.tabs.Pairwise (fun t u => t.pos < u.pos) ∧ s.seq.queue.length ≤ queuePlaces ∧
    s.line.entries.length ≤ entryPlaces ∧ s.spell.words.length ≤ wordPlaces ∧
    s.spell.checkq.length ≤ checkPlaces ∧ s.spell.users.length ≤ userPlaces ∧
    s.drv.faults.length ≤ faultPlaces ∧ s.rx.window.length ≤ windowPlaces

/-- An order that needs the hammer stands within the carriage travel (R54, R65). -/
def Order.inTravel : Order → Prop
  | .strike _ p _ _ _ => p ≤ lastPosition
  | .lift _ _ p _ _ => p ≤ lastPosition
  | _ => True

/-- Every strike that is queued or recorded stands within the carriage travel (R54, R65, R75). -/
def State.strikesInTravel (s : State) : Prop :=
  (∀ o ∈ s.seq.queue, o.inTravel) ∧ ∀ e ∈ s.line.entries, ∀ k ∈ e.strikes, k.pos ≤ lastPosition

/-- The window start is a multiple of 8 (R133). -/
def State.windowAligned (s : State) : Prop := s.disp.window % 8 = 0

end Sys2Proof.Machine
end

