-- ==== Sys2Proof/Certificates/Slice0/Obligations.lean ====
section
/-! DEFINITION. The statements about the model, for the provers. Each says in its docstring what it states and
which rules of the manual it rests on. -/

open Sys2Proof Sys2Proof.Machine

/-! ### The queue of commands and the reset input -/

/-- A step takes the command at the front of the queue and runs it on the state with the queue's rest; on an empty queue
the part idles (the model's choice, log entry 11). -/
def Obligations.StepRunsTheFrontCommand : Prop :=
  (∀ (c : Instr) (rest : List Instr) (s : State), s.pending = c :: rest →
      step s = exec c { s with pending := rest }) ∧
    ∀ s : State, s.pending = [] → step s = .next s

/-- RESET_ASSERTED and RESET_RELEASED (R187). Asserted, the input puts every item at its power-on value with the
mechanism UNHOMED, every coil off, the beeper silent and the return line silent. Released with the cover closed, it
leaves the machine right after reset; with the cover open the mechanism enters COVER_OPEN instead (R69). A release
without a reset held changes nothing (log entry 13). -/
def Obligations.ResetInputHoldsAndStartsThePart : Prop :=
  (∀ s : State, ∃ t, exec .resetAsserted s = .next t ∧ t = State.held s.pending s.coverOpen s.free ∧
      (∀ ch, t.driveState ch = .off) ∧ t.disp.tone = false ∧ t.ret.sending = none ∧ t.seq.state = .unhomed) ∧
    (∀ s : State, s.resetHeld = true → s.coverOpen = false →
      exec .resetReleased s = .next { State.reset with pending := s.pending, free := s.free }) ∧
    (∀ s : State, s.resetHeld = true → s.coverOpen = true →
      exec .resetReleased s = .next { State.reset with
        pending := s.pending
        coverOpen := true
        free := s.free
        ret := { ReturnLine.powerOn with reports := [.event (.mechState .coverOpen .none) false] }
        seq := { Sequencer.held with state := .coverOpen } }) ∧
    ∀ s : State, s.resetHeld = false → exec .resetReleased s = .next s

/-- While the reset input is held the commands that wait find the part at a standstill (R187): every command but those of
the reset input and of the cover switch changes nothing, and the cover switch changes itself alone. (R187 says so of the
feed, the drives and the return line; that every other row is passed over is the model's choice, log entry 12.) -/
def Obligations.HeldResetPassesOverCommands : Prop :=
  ∀ (i : Instr) (s : State), s.resetHeld = true → runsInside s.tab.slots = true →
    (i ≠ .resetAsserted → i ≠ .resetReleased → i ≠ .coverOpen → i ≠ .coverClose → exec i s = .next s) ∧
      exec .coverOpen s = .next { s with coverOpen := true } ∧
      exec .coverClose s = .next { s with coverOpen := false }

/-- The values that reset leaves where the manual gives them: the Composer (R22), the mechanism (R68), the directory
(R155), the link (R180), the counters (R185) and some of the settings (R182). (That the machine right after reset stands
in HOMING, released with the cover closed, is the model's choice, log entry 9.) -/
def Obligations.ResetLeavesPowerOnValues : Prop :=
  let s := State.reset
  s.comp.source = .localKeys ∧ s.comp.mode = .direct ∧ s.comp.pitch = .p10 ∧ s.comp.left = 120 ∧
    s.comp.right = 1080 ∧ s.comp.logical = 120 ∧ s.comp.recs = [] ∧ s.comp.tabs = [] ∧ s.comp.choice = .ragged ∧
    s.seq.state = .homing ∧ s.seq.queue = [] ∧ s.seq.heat = 0 ∧ s.seq.paperPos = 0 ∧ s.seq.wheelCode = 0 ∧
    s.tab.slots = List.replicate 12 Slot.emptySlot ∧ s.rx.sync = .hunt ∧ s.keyq.queue = [] ∧ s.txt.queue = [] ∧
    s.txt.balance = 0 ∧ s.txt.unsent = 96 ∧ s.txt.restate = true ∧ s.ret.arbCount = 0 ∧ s.ctr = .zero ∧
    s.set.lineSpacing = 2 ∧ s.set.pageLength = 66 ∧ s.set.autoReturn = true ∧ s.set.expectedWheel = 0 ∧
    s.set.display = true ∧ s.set.beeper = true ∧ s.set.spell = false ∧ s.spell.words = [] ∧ s.drv.faults = [] ∧
    s.disp.slot = some Image.first

/-! ### The receiver and the report queue -/

/-- HUNT_CANDIDATE_BLOCK (R169): bytes that are no START are passed over; a good block is discarded, HUNT_DISCARDS rises
and the receiver enters CONFIRM; after a false start scanning goes on at the byte after its START. A LEN above 48 is a
false start at once; with a LEN of 0 to 48 the payload and the CHECK are read first, and a bad byte from HEAD to CHECK,
the LEN byte included, or a CHECK that does not match is one. A block that is not all there waits for the rest. -/
def Obligations.HuntJudgesTheCandidateBlock : Prop :=
  ∀ (s : State) (feed junk rest : List FeedByte), s.resetHeld = false → s.rx.sync = .hunt →
    (∀ b ∈ junk, isStart b = false) →
    (∀ (head : Byte) (payload : List Byte), payload.length ≤ 48 →
      s.rx.buf ++ feed = junk ++ goodFeed head payload ++ rest →
      exec (.huntCandidateBlock feed) s = .next { s with
        rx := { s.rx with sync := .confirm, buf := rest }
        ctr := s.ctr.raise .huntDiscards 1 }) ∧
    (∀ head len : FeedByte, s.rx.buf ++ feed = junk ++ ⟨startByte, false⟩ :: head :: len :: rest →
      48 < len.data.toNat →
      exec (.huntCandidateBlock feed) s = .next { s with rx := { s.rx with buf := head :: len :: rest } }) ∧
    (∀ (head len check : FeedByte) (payload : List FeedByte),
      s.rx.buf ++ feed = junk ++ ⟨startByte, false⟩ :: head :: len :: (payload ++ check :: rest) →
      payload.length = len.data.toNat → len.data.toNat ≤ 48 →
      (head.bad = true ∨ len.bad = true ∨ (∃ b ∈ payload, b.bad = true) ∨ check.bad = true ∨
        check.data ≠ checkByte head.data (payload.map FeedByte.data)) →
      exec (.huntCandidateBlock feed) s = .next { s with
        rx := { s.rx with buf := head :: len :: (payload ++ check :: rest) } }) ∧
    (∀ read : List FeedByte, s.rx.buf ++ feed = junk ++ ⟨startByte, false⟩ :: read →
      (read.length < 2 ∨ ∃ head len body, read = head :: len :: body ∧ len.data.toNat ≤ 48 ∧
        body.length ≤ len.data.toNat) →
      exec (.huntCandidateBlock feed) s = .next { s with rx := { s.rx with buf := ⟨startByte, false⟩ :: read } })

/-- CONFIRM_BLOCK (R170): IDLE bytes are passed over; a good block makes the receiver LOCKED with the window clear,
queues EVENT LINK_LOCKED, restates the credit (R175) and is then taken as a block in LOCKED is; a false start,
judged as R169 does, returns the receiver to HUNT, scanning at the byte after its START; a block that is not all
there waits for the rest. (That the block taken does not stand in the window is the model's choice, log entry 37.) -/
def Obligations.ConfirmJudgesTheBlock : Prop :=
  ∀ (s : State) (feed idles rest : List FeedByte) (paper : Bool), s.resetHeld = false →
    runsInside s.tab.slots = true → s.rx.sync = .confirm → (∀ b ∈ idles, isIdle b = true) →
    (∀ (head : Byte) (payload : List Byte), payload.length ≤ 48 →
      s.rx.buf ++ feed = idles ++ goodFeed head payload ++ rest →
      exec (.confirmBlock feed paper) s = .next (State.takeBlock
        { State.event { s with rx := ⟨.locked, rest, []⟩ } .linkLocked with
          txt := { s.txt with balance := 0, unsent := 96 - s.txt.queue.length, restate := true } } head payload paper)) ∧
    (∀ head len : FeedByte, s.rx.buf ++ feed = idles ++ ⟨startByte, false⟩ :: head :: len :: rest →
      48 < len.data.toNat →
      exec (.confirmBlock feed paper) s = .next { s with
        rx := { s.rx with sync := .hunt, buf := head :: len :: rest } }) ∧
    (∀ (head len check : FeedByte) (payload : List FeedByte),
      s.rx.buf ++ feed = idles ++ ⟨startByte, false⟩ :: head :: len :: (payload ++ check :: rest) →
      payload.length = len.data.toNat → len.data.toNat ≤ 48 →
      (head.bad = true ∨ len.bad = true ∨ (∃ b ∈ payload, b.bad = true) ∨ check.bad = true ∨
        check.data ≠ checkByte head.data (payload.map FeedByte.data)) →
      exec (.confirmBlock feed paper) s = .next { s with
        rx := { s.rx with sync := .hunt, buf := head :: len :: (payload ++ check :: rest) } }) ∧
    (∀ read : List FeedByte, s.rx.buf ++ feed = idles ++ ⟨startByte, false⟩ :: read →
      (read.length < 2 ∨ ∃ head len body, read = head :: len :: body ∧ len.data.toNat ≤ 48 ∧
        body.length ≤ len.data.toNat) →
      exec (.confirmBlock feed paper) s = .next { s with rx := { s.rx with buf := ⟨startByte, false⟩ :: read } })

/-- CONFIRM_STRAY_BYTE, LOCKED_STRAY_BYTE and BAD_BLOCK (R170, R171). In CONFIRM a byte that is neither IDLE nor START
returns the receiver to HUNT. In LOCKED such a byte, and a START whose LEN is above 48 or bad, takes the receiver out of
LOCKED. A bad block is counted in BAD_BLOCKS and enters the window of the last 16 as bad, and scanning goes on after it;
with fewer than 4 bad blocks in the window the receiver stays LOCKED, otherwise it leaves LOCKED. (That leaving LOCKED
withdraws the wait of a pending repeat at the Composer, and its run, is the model's choice, log entry 39.) -/
def Obligations.StrayBytesAndBadBlocksLoseSync : Prop :=
  (∀ (s : State) (feed idles rest : List FeedByte), s.resetHeld = false → (∀ b ∈ idles, isIdle b = true) →
    (∀ b : FeedByte, s.rx.buf ++ feed = idles ++ b :: rest → isIdle b = false → isStart b = false →
      (s.rx.sync = .confirm →
        exec (.confirmStrayByte feed) s = .next { s with rx := { s.rx with sync := .hunt, buf := rest } }) ∧
      (s.rx.sync = .locked → exec (.lockedStrayByte feed) s = .next (s.lostLock rest))) ∧
    (∀ head len : FeedByte, s.rx.buf ++ feed = idles ++ ⟨startByte, false⟩ :: head :: len :: rest →
      (len.bad = true ∨ 48 < len.data.toNat) → s.rx.sync = .locked →
      exec (.lockedStrayByte feed) s = .next (s.lostLock (head :: len :: rest)))) ∧
  ∀ (s : State) (feed idles rest payload : List FeedByte) (head len check : FeedByte), s.resetHeld = false →
    s.rx.sync = .locked → (∀ b ∈ idles, isIdle b = true) →
    s.rx.buf ++ feed = idles ++ ⟨startByte, false⟩ :: head :: len :: (payload ++ check :: rest) →
    len.bad = false → payload.length = len.data.toNat → len.data.toNat ≤ 48 →
    (head.bad = true ∨ (∃ b ∈ payload, b.bad = true) ∨ check.bad = true ∨
      check.data ≠ checkByte head.data (payload.map FeedByte.data)) →
    let w := (if s.rx.window.length < 16 then s.rx.window else s.rx.window.tail) ++ [true]
    let u := { s with rx := { s.rx with buf := rest, window := w }, ctr := s.ctr.raise .badBlocks 1 }
    exec (.badBlock feed) s = .next (if w.count true < 4 then u else u.lostLock rest)

/-- KEY_BLOCK, TEXT_BLOCK and UNKNOWN_KIND_BLOCK (R171 to R174). A good block in LOCKED enters the window as good. The
events of a KEY block of LEN 0 to 8 that find room join the key queue in payload order; the characters of a TEXT block
are charged against the balance, those beyond it are dropped, counted and told; a block of another kind, of CONTROL
with LEN 0 or of KEY with LEN above 8 is discarded and UNKNOWN_KINDS rises. (With 4 bad blocks left in the window the
receiver would leave LOCKED first; no run leaves it so.) -/
def Obligations.LockedBlocksAreTakenByKind : Prop :=
  ∀ (s : State) (feed idles rest : List FeedByte) (head : Byte) (payload : List Byte), s.resetHeld = false →
    s.rx.sync = .locked → (∀ b ∈ idles, isIdle b = true) → payload.length ≤ 48 →
    s.rx.buf ++ feed = idles ++ goodFeed head payload ++ rest →
    let w := (if s.rx.window.length < 16 then s.rx.window else s.rx.window.tail) ++ [false]
    let u := { s with rx := { s.rx with buf := rest, window := w } }
    w.count true < 4 →
    (head.toNat / 16 = 1 → payload.length ≤ 8 → s.keyq.queue.length + payload.length ≤ 16 →
      exec (.keyBlock feed) s = .next { u with
        keyq := ⟨s.keyq.queue ++ payload, if payload = [] then s.keyq.overflowRun else false⟩ }) ∧
    (head.toNat / 16 = 2 → payload.length ≤ s.txt.balance →
      exec (.textBlock feed) s = .next { u with
        txt := { s.txt with queue := s.txt.queue ++ payload, balance := s.txt.balance - payload.length } }) ∧
    (head.toNat / 16 = 2 → s.txt.balance < payload.length →
      exec (.textBlock feed) s = .next (State.event { u with
        txt := { s.txt with queue := s.txt.queue ++ payload.take s.txt.balance, balance := 0 }
        ctr := s.ctr.raise .textOverruns (payload.length - s.txt.balance) }
        (.textOverrun (payload.length - s.txt.balance)))) ∧
    ((head.toNat / 16 = 1 → 8 < payload.length) → head.toNat / 16 ≠ 2 → (head.toNat / 16 = 3 → payload = []) →
      exec (.unknownKindBlock feed) s = .next { u with ctr := s.ctr.raise .unknownKinds 1 })

/-- CONTROL_BLOCK (R172, R176): a good CONTROL block in LOCKED has the effect of the command row that its payload spells,
once it has entered the window as good. One that spells no row, with a free place for its answer and no seal in
progress, is answered and does nothing else: UNKNOWN_COMMAND for a code of none, BAD_LENGTH for a payload whose length
is not the command's (R176, R186), BAD_CONTENT for a query of no item (R184) and for a RESTART of no selector (R186). -/
def Obligations.ControlBlockRunsItsCommand : Prop :=
  (∀ (s : State) (feed idles rest : List FeedByte) (head : Byte) (i : Instr) (code : Byte) (params : List Byte)
    (paper : Bool), s.resetHeld = false → runsInside s.tab.slots = true →
    s.rx.sync = .locked → (∀ b ∈ idles, isIdle b = true) → params.length ≤ 47 → head.toNat / 16 = 3 →
    s.rx.buf ++ feed = idles ++ goodFeed head (code :: params) ++ rest →
    payloadOf i = some (code, params) → (∀ p, i = .resume p → p = paper) →
    let w := (if s.rx.window.length < 16 then s.rx.window else s.rx.window.tail) ++ [false]
    w.count true < 4 →
    ∃ t, exec (.controlBlock feed paper) s = .next t ∧
      exec i { s with rx := { s.rx with buf := rest, window := w } } = .next t) ∧
  ∀ (s : State) (feed idles rest : List FeedByte) (head code : Byte) (params : List Byte) (paper : Bool),
    s.resetHeld = false → runsInside s.tab.slots = true → s.rx.sync = .locked → (∀ b ∈ idles, isIdle b = true) →
    params.length ≤ 47 → head.toNat / 16 = 3 → s.rx.buf ++ feed = idles ++ goodFeed head (code :: params) ++ rest →
    s.ret.hasFree = true → s.tab.sealing = none →
    let w := (if s.rx.window.length < 16 then s.rx.window else s.rx.window.tail) ++ [false]
    let replies (o : CmdOutcome) : Prop := exec (.controlBlock feed paper) s = .next { s with
      rx := { s.rx with buf := rest, window := w }, ret := s.ret.answered code o [] }
    w.count true < 4 →
    (code = 0 ∨ 0x11 < code.toNat → replies .unknownCommand) ∧
    (∀ n, (code, n) ∈ [((0x01 : Byte), 3), (0x02, 2), (0x03, 5), (0x05, 4), (0x06, 1), (0x07, 3), (0x08, 2), (0x09, 0),
      (0x0C, 0), (0x0D, 0), (0x0E, 0), (0x0F, 0), (0x10, 0), (0x11, 1)] → params.length ≠ n → replies .badLength) ∧
    (code = 0x02 → ∀ item index : Byte, params = [item, index] → 6 < item.toNat → replies .badContent) ∧
    (code = 0x11 → ∀ k : Byte, params = [k] → 5 < k.toNat → replies .badContent)

/-- The key queue when it is full (R173): the event is dropped, KEY_OVERFLOWS rises, a REFUSED signal is asked for, and
the first drop of a run queues EVENT KEY_OVERFLOW. An EVENT joins the report queue while fewer than 22 EVENTs are held
and a place is free, with the lost-before flag, which is then cleared; otherwise it is dropped, EVENTS_LOST rises and
the lost flag is set (R177). -/
def Obligations.FullQueuesDropAndCount : Prop :=
  (∀ (s : State) (b : Byte), 16 ≤ s.keyq.queue.length →
     s.appendKey b = if s.keyq.overflowRun then (s.raise .keyOverflows).signal .refused
       else State.event { (s.raise .keyOverflows).signal .refused with
         keyq := { s.keyq with overflowRun := true } } .keyOverflow) ∧
  (∀ (s : State) (e : Event),
     ((s.ret.reports.filter Report.isEvent).length < 22 → s.ret.reports.length + s.ret.reserved < 24 →
       s.event e = { s with ret := s.ret.told e }) ∧
     (22 ≤ (s.ret.reports.filter Report.isEvent).length ∨ 24 ≤ s.ret.reports.length + s.ret.reserved →
       s.event e = { s with ret := { s.ret with lost := true }, ctr := s.ctr.raise .eventsLost 1 }))

/-! ### The Command Engine -/

/-- The queries but that of the faults (R89, R111, R126, R155, R184, R185): each is answered with the record asked for,
or BAD_INDEX where there is none, and changes nothing but the report queue. (That an entry without a word reference
is sent with word number 0, STRIKES and LINES high byte first, and a flag byte as 1 or 0, are the model's choices, log
entries 54, 62 and 63.) -/
def Obligations.QueriesAnswerAndChangeNothingElse : Prop :=
  ∀ s : State, s.commandReady →
    let answers (i : Instr) (o : CmdOutcome) (data : List Byte) : Prop :=
      exec i s = .next { s with ret := s.ret.answered 0x02 o data }
    answers .queryStatus .done s.reserve.statusBytes ∧
    answers (.queryCounters 0) .done (0 :: s.ctr.group0) ∧
    answers (.queryCounters 1) .done (1 :: s.ctr.group1) ∧
    (∀ g : Byte, 1 < g.toNat → answers (.queryCounters g) .badIndex []) ∧
    (∀ i : Byte, i.toNat < 12 → answers (.queryDirectory i) .done (s.directoryBytes i.toNat)) ∧
    (∀ i : Byte, 12 ≤ i.toNat → answers (.queryDirectory i) .badIndex []) ∧
    (∀ i : Byte, i.toNat < s.line.entries.length ∨ (i = 0 ∧ s.line.entries = []) →
      answers (.queryLine i) .done (twoBytes s.line.dropped ++ [byteOf s.line.entries.length]
        ++ wholeRecords 43 ((s.line.entries.drop i.toNat).map Entry.bytes))) ∧
    (∀ i : Byte, s.line.entries.length ≤ i.toNat → ¬(i = 0 ∧ s.line.entries = []) → answers (.queryLine i) .badIndex []) ∧
    (∀ i : Byte, i.toNat < s.spell.words.length ∨ (i = 0 ∧ s.spell.words = []) →
      answers (.queryWords i) .done ([byteOf s.spell.words.length]
        ++ wholeRecords 45 ((s.spell.words.drop i.toNat).map SpellWord.bytes))) ∧
    (∀ i : Byte, s.spell.words.length ≤ i.toNat → ¬(i = 0 ∧ s.spell.words = []) → answers (.queryWords i) .badIndex []) ∧
    (∀ (i : Byte) (w : List Nat), s.spell.users[i.toNat]? = some w →
      answers (.queryUserWord i) .done (byteOf w.length :: w.map byteOf)) ∧
    (∀ i : Byte, s.spell.users.length ≤ i.toNat → answers (.queryUserWord i) .badIndex [])

/-- QUERY FAULTS (R152): the count of records, each record in list order with its kind, channel, occurrences and present
flag, unused places as 0xFF, the last test results, the rotation position and the three masks; nothing changes but the
report queue. FAULTS_UNLISTED is the last of the counters of group 1. (That the present flag is sent as 1 for yes and 0
for no is the model's choice, log entry 63.) -/
def Obligations.QueryFaultsReportsTheFaultList : Prop :=
  ∀ s : State, s.commandReady → s.drv.faults.length ≤ 8 →
    let one (f : FaultRec) : List Byte :=
      [byteOf f.kind.num, byteOf (channelNum f.ch), byteOf f.occ, if f.isPresent then 1 else 0]
    let r := s.drv.results
    let data : List Byte :=
      [byteOf s.drv.faults.length] ++ s.drv.faults.flatMap one ++ List.replicate (32 - 4 * s.drv.faults.length) 0xFF
        ++ [r.carriage, r.wheel, r.hammer, r.lift, r.paper].map (fun x => byteOf x.num)
        ++ [byteOf (channelNum s.drv.rotation)]
        ++ [s.set.maskOpenLoad, s.set.maskHomeNotFound, s.set.maskIndexLost].map (fun x => byteOf x.num)
    exec .queryFaults s = .next { s with ret := s.ret.answered 0x02 .done data } ∧
      ∃ d, exec (.queryCounters 1) s = .next { s with
        ret := s.ret.answered 0x02 .done (d ++ twoBytes s.ctr.faultsUnlisted) }

/-- SET of a setting that is stored and read later (R181, R182): the value is brought into the setting's range and
stored, no other setting changes, and the answer DONE, or DONE_CLAMPED where the range was left, carries the value
taken and 0 for not pending. SET that names no setting or has the wrong length, and SET of a margin that would not
leave the left margin at least 120 below the right one as they will stand at the boundary (R27, R181): answered so,
and nothing else changes. -/
def Obligations.SetStoresOrRefuses : Prop :=
  (∀ (s : State) (hi lo : Byte), s.commandReady → s.quiet →
     let v := ofTwoBytes hi lo
     let stores (id : Byte) (low high : Nat) (c : Nat → Settings) : Prop :=
       let x := max low (min high v)
       ∃ t, exec (.set [id, hi, lo]) s = .next t ∧ t.set = c x ∧
         t.ret = s.ret.answered 0x01 (if x = v then .done else .doneClamped) (twoBytes x ++ [0]) ∧
         s.keeps t [.set, .ret, .image] ∧ s.imageFollows t
     stores 3 2 4 (fun x => { s.set with lineSpacing := x }) ∧
     stores 6 12 132 (fun x => { s.set with pageLength := x }) ∧
     stores 7 0 3 (fun x => { s.set with
       justify := if x = 0 then .ragged else if x = 1 then .justify else if x = 2 then .center else .flushRight }) ∧
     stores 9 0 1 (fun x => { s.set with holdOnMiss := x = 1 }) ∧
     stores 13 0 2 (fun x => { s.set with impression := if x = 0 then .light else if x = 1 then .normal else .heavy }) ∧
     stores 14 0 1 (fun x => { s.set with ribbon := if x = 0 then .film else .fabric }) ∧
     stores 15 0 3 (fun x => { s.set with correctionOffset := x }) ∧
     stores 16 0 1 (fun x => { s.set with autoReturn := x = 1 }) ∧
     stores 20 0 1 (fun x => { s.set with maskOpenLoad := if x = 0 then .halt else .report }) ∧
     stores 21 0 1 (fun x => { s.set with maskHomeNotFound := if x = 0 then .halt else .report }) ∧
     stores 22 0 1 (fun x => { s.set with maskIndexLost := if x = 0 then .halt else .report })) ∧
  (∀ s : State, s.commandReady →
     (∀ params : List Byte, params.length ≠ 3 →
       exec (.set params) s = .next { s with ret := s.ret.answered 0x01 .badLength [] }) ∧
     (∀ id hi lo : Byte, 23 ≤ id.toNat →
       exec (.set [id, hi, lo]) s = .next { s with ret := s.ret.answered 0x01 .unknownSetting [] }) ∧
     (∀ hi lo : Byte, s.comp.later.right.getD s.comp.right < min 1439 (ofTwoBytes hi lo) + 120 →
       exec (.set [4, hi, lo]) s = .next { s with ret := s.ret.answered 0x01 .inconsistent [] }) ∧
     ∀ hi lo : Byte, min 1559 (ofTwoBytes hi lo) < s.comp.later.left.getD s.comp.left + 120 →
       exec (.set [5, hi, lo]) s = .next { s with ret := s.ret.answered 0x01 .inconsistent [] })

/-- SET of one of the five line settings (R25, R26, R27, R181). The value is first brought into its range. Away from a
line boundary a value other than the one in force becomes pending and is answered DONE_PENDING, the value in force
clears the pending entry and is answered DONE, and the settings in force do not change. At a line boundary the value
goes into force at once with all that is pending, and is answered DONE. A value that was brought into range is answered
DONE_CLAMPED instead; the answer carries the value taken and 1 for pending or 0. (That a value already pending is
answered DONE_PENDING again is the model's choice, log entry 47.) -/
def Obligations.SetLineSettingWaitsForTheBoundary : Prop :=
  ∀ (s : State) (hi lo : Byte), s.commandReady → s.quiet →
    let v := ofTwoBytes hi lo
    let p := s.comp.later
    let replied (x : Nat) (o : CmdOutcome) (later : Byte) : ReturnLine :=
      s.ret.answered 0x01 (if x = v then o else .doneClamped) (twoBytes x ++ [later])
    let becomes (id : Byte) (x : Nat) (inForce : Prop) (enter remove : PendingLine) : Prop :=
      (s.atBoundary = false → ¬inForce → ∃ t, exec (.set [id, hi, lo]) s = .next t ∧
        t.comp = { s.comp with later := enter } ∧ t.ret = replied x .donePending 1 ∧
        s.keeps t [.comp, .ret, .image] ∧ s.imageFollows t) ∧
      (s.atBoundary = false → inForce → ∃ t, exec (.set [id, hi, lo]) s = .next t ∧
        t.comp = { s.comp with later := remove } ∧ t.ret = replied x .done 0 ∧
        s.keeps t [.comp, .ret, .image] ∧ s.imageFollows t) ∧
      (s.atBoundary = true → ∃ t, exec (.set [id, hi, lo]) s = .next t ∧
        t.comp = ({ s.comp with later := enter } : Composer).applyPending s.set.justify ∧ t.disp.window = 0 ∧
        t.ret = replied x .done 0 ∧ plain t.line.entries = plain s.line.entries ∧
        (∀ k, k ≠ Counter.checksDropped → t.ctr.get k = s.ctr.get k) ∧
        s.keeps t [.comp, .line, .ret, .ctr, .spell, .window, .image] ∧ s.imageFollows t)
    (let m : Mode := if v = 0 then .direct else .line
     becomes 0 (min 1 v) (s.comp.mode = m) { p with mode := some m } { p with mode := none }) ∧
    (let m : Source := if v = 0 then .localKeys else .remoteText
     becomes 1 (min 1 v) (s.comp.source = m) { p with source := some m } { p with source := none }) ∧
    (let m : Pitch := if v = 0 then .p10 else if v = 1 then .p12 else if v = 2 then .p15 else .ps
     becomes 2 (min 3 v) (s.comp.pitch = m) { p with pitch := some m } { p with pitch := none }) ∧
    (let x := min 1439 v
     x + 120 ≤ p.right.getD s.comp.right → becomes 4 x (s.comp.left = x) { p with left := some x } { p with left := none }) ∧
    (let x := min 1559 v
     p.left.getD s.comp.left + 120 ≤ x → becomes 5 x (s.comp.right = x) { p with right := some x } { p with right := none })

/-- TABLE_OPEN (R156, R157). With a kind, key and count that are legal: a protected table is not opened; where no free
run is long enough, the slot's own segments counted as free, the answer NO_ROOM carries the longest one; otherwise
the lowest such run is allocated and the slot is OPEN with nothing written. What is not legal, a payload of the
wrong length among it, is refused. (The last case is stated here for a slot that does not hold an active table,
while no wheel is waited for; ReadersFollowTheDirectory states the others.) -/
def Obligations.TableOpenAllocatesTheLowestRun : Prop :=
  (∀ (s : State) (params : List Byte), s.commandReady → params.length ≠ 5 →
    exec (.tableOpen params) s = .next { s with ret := s.ret.answered 0x03 .badLength [] }) ∧
  ∀ (s : State) (slot kind key hi lo : Byte), s.commandReady → s.quiet →
    let i := slot.toNat
    let n := ofTwoBytes hi lo
    let others := occupied (setAt s.tab.slots i Slot.emptySlot)
    let replies (o : CmdOutcome) (data : List Byte) : Prop :=
      exec (.tableOpen [slot, kind, key, hi, lo]) s = .next { s with ret := s.ret.answered 0x03 o data }
    (12 ≤ i → replies .badIndex []) ∧
    (i < 12 → (2 < kind.toNat ∨ (kind = 0 ∧ 63 < key.toNat) ∨ (kind ≠ 0 ∧ 7 < key.toNat) ∨ n = 0 ∨ 4096 < n) →
      replies .badContent []) ∧
    ∀ k : TableKind, i < 12 → kind.toNat = k.num → key.toNat ≤ k.maxKey → 0 < n → n ≤ 4096 →
      ((slotAt s.tab.slots i).state = .sealed → (slotAt s.tab.slots i).guarded = true → replies .guarded []) ∧
      (¬((slotAt s.tab.slots i).state = .sealed ∧ (slotAt s.tab.slots i).guarded = true) → lowestFit others n = none →
        replies .noRoom (twoBytes (longestFree others))) ∧
      ∀ first, s.seq.state ≠ .wheelWait → lowestFit others n = some first →
        (let d := slotAt s.tab.slots i
         d.state = .sealed → d.guarded = false ∧ d.key ≠ s.selection d.kind) →
        ∃ t, exec (.tableOpen [slot, kind, key, hi, lo]) s = .next t ∧
          t.tab.slots = setAt s.tab.slots i ⟨.opened, k, key.toNat, first, n, List.replicate n false, false, 0⟩ ∧
          t.ret = s.ret.answered 0x03 .done (twoBytes first) ∧
          s.keeps t [.slots, .ret, .image] ∧ s.imageFollows t

/-- TABLE_WRITE (R159), judged in order: data of 16 or 32 bytes, a slot of the directory, an OPEN slot, segments inside
its run. It then stores the data, marks each segment written and answers DONE with the count still unwritten. A write
that is turned away changes nothing but the report queue. A write leaves every byte of table memory outside the
segments written as it was, and the bytes written are read back (R159), in a memory in its canonical form. -/
def Obligations.TableWriteStoresTheSegments : Prop :=
  (∀ (s : State) (slot hi lo : Byte) (data : List Byte), s.commandReady → runsInside s.tab.slots = true →
     let i := slot.toNat
     let index := ofTwoBytes hi lo
     let n := data.length / 16
     let d := slotAt s.tab.slots i
     let d' := { d with written := markWritten d.written index n }
     exec (.tableWrite (slot :: hi :: lo :: data)) s = .next
       (if data.length ≠ 16 ∧ data.length ≠ 32 then { s with ret := s.ret.answered 0x04 .badLength [] }
        else if 12 ≤ i then { s with ret := s.ret.answered 0x04 .badIndex [] }
        else if d.state ≠ .opened then { s with ret := s.ret.answered 0x04 .notOpen [] }
        else if d.count < index + n then { s with ret := s.ret.answered 0x04 .badIndex [] }
        else { s with
           tab := { s.tab with
             mem := s.tab.mem.writeBytes (16 * (d.first + index)) data
             slots := setAt s.tab.slots i d' }
           ret := s.ret.answered 0x04 .done
             (twoBytes ((slotAt (setAt s.tab.slots i d') i).written.filter (fun w => !w)).length) })) ∧
  (∀ (m : Memory) (x y : Nat) (data : List Byte), m.wf = true → x + data.length ≤ 65536 →
     (y < x ∨ x + data.length ≤ y → (m.writeBytes x data).read y = m.read y) ∧
     (∀ k (h : k < data.length), y = x + k → (m.writeBytes x data).read y = data[k]))

/-- TABLE_SEAL and SEAL_COMPLETE (R160 to R162). A command that fails a check is answered at once. When the run is
wholly written the seal starts, takes 16 microseconds a segment and keeps its answer's place. When it completes, a
check that differs is answered BAD_CHECK and content that fails BAD_CONTENT, the slot staying OPEN; otherwise every
other SEALED slot of the kind and key becomes EMPTY and the slot SEALED. (Success is stated for a key that is not the
active selection, so that no reader is concerned, with no wheel waited for; ReadersFollowTheDirectory states the
others. That any protect byte but 0 counts as true, that a seal starts with no byte read and reads on at its
completion, and that an offset of 65536 is sent as 0000H are the model's choices, log entries 20, 59 and 61.) (What
the content check does where R122 leaves it open, the model's choices too, is in log entries 42 and 69.) -/
def Obligations.SealChecksAndSealsTheTable : Prop :=
  (∀ (s : State) (slot hi lo guarded : Byte), s.commandReady →
    let d := slotAt s.tab.slots slot.toNat
    let un := (d.written.filter (fun w => !w)).length
    let replies (o : CmdOutcome) (data : List Byte) : Prop :=
      exec (.tableSeal [slot, hi, lo, guarded]) s = .next { s with ret := s.ret.answered 0x05 o data }
    (∀ params : List Byte, params.length ≠ 4 →
      exec (.tableSeal params) s = .next { s with ret := s.ret.answered 0x05 .badLength [] }) ∧
    (12 ≤ slot.toNat → replies .badIndex []) ∧
    (slot.toNat < 12 → d.state ≠ .opened → replies .notOpen []) ∧
    (slot.toNat < 12 → d.state = .opened → un ≠ 0 →
      replies .incomplete (twoBytes un ++ twoBytes ((indexWhere (fun w => !w) d.written).getD 0))) ∧
    (slot.toNat < 12 → d.state = .opened → un = 0 →
      exec (.tableSeal [slot, hi, lo, guarded]) s = .next { s with
        tab := { s.tab with
          sealing := some ⟨slot.toNat, BitVec.ofNat 16 (ofTwoBytes hi lo), guarded ≠ 0, 16 * d.count, 0, 0⟩ }
        ret := { s.ret with reserved := s.ret.reserved + 1 } })) ∧
  ∀ (s : State) (e : Seal), s.quiet → runsInside s.tab.slots = true → s.sealFollows → s.tab.sealing = some e →
    let d := slotAt s.tab.slots e.slot
    let check := tableCheck (slotBytes s.tab.mem d)
    let ends (o : CmdOutcome) (data : List Byte) : Prop :=
      exec .sealComplete s = .next { s with
        tab := { s.tab with sealing := none }
        ret := { s.ret with reports := s.ret.reports ++ [.answer 0x05 o data], reserved := s.ret.reserved - 1 } }
    (check ≠ e.check → ends .badCheck (twoBytes check.toNat)) ∧
    (∀ off, check = e.check → validateTable s.tab.mem d = some off → ends .badContent (twoBytes off)) ∧
    (check = e.check → validateTable s.tab.mem d = none → d.key ≠ s.selection d.kind → d.state = .opened →
      s.seq.state ≠ .wheelWait →
      ∃ t, exec .sealComplete s = .next t ∧ t.tab.sealing = none ∧
        t.tab.slots = setAt (s.tab.slots.map (fun f =>
            if f.state = .sealed ∧ f.kind = d.kind ∧ f.key = d.key then Slot.emptySlot else f)) e.slot
          { d with state := .sealed, written := [], guarded := e.guarded, check := check } ∧
        t.ret = { s.ret with
          reports := s.ret.reports ++ [.answer 0x05 .done (twoBytes check.toNat)], reserved := s.ret.reserved - 1 } ∧
        s.keeps t [.slots, .sealing, .ret, .image] ∧ s.imageFollows t)

/-- TABLE_DROP (R165): the slot becomes EMPTY, protected or not, its run is free, and the answer DONE carries its former
state; a slot above 11 and a payload of the wrong length are refused. (The drop is stated for a slot that does not
hold an active table, so that no reader is concerned, with no wheel waited for; ReadersFollowTheDirectory states the
others.) -/
def Obligations.TableDropEmptiesTheSlot : Prop :=
  ∀ s : State, s.commandReady → s.quiet →
    (∀ params : List Byte, params.length ≠ 1 →
      exec (.tableDrop params) s = .next { s with ret := s.ret.answered 0x06 .badLength [] }) ∧
    (∀ slot : Byte, 12 ≤ slot.toNat →
      exec (.tableDrop [slot]) s = .next { s with ret := s.ret.answered 0x06 .badIndex [] }) ∧
    ∀ slot : Byte, slot.toNat < 12 → s.seq.state ≠ .wheelWait →
      (let d := slotAt s.tab.slots slot.toNat
       ¬(d.state = .sealed ∧ d.key = s.selection d.kind)) →
      ∃ t, exec (.tableDrop [slot]) s = .next t ∧
        t.tab.slots = setAt s.tab.slots slot.toNat Slot.emptySlot ∧
        t.ret = s.ret.answered 0x06 .done [byteOf (slotAt s.tab.slots slot.toNat).state.num] ∧
        s.keeps t [.slots, .ret, .image] ∧ s.imageFollows t

/-- TAB_ADD, TAB_REMOVE, TABS_CLEAR and the guard of SET DECIMAL_CHAR (R45). A change is carried out where the
composition keeps within the line length and every TAB record has its stop; otherwise it is answered INCONSISTENT and
nothing changes. BAD_INDEX, LIST_FULL and NOT_FOUND are answered as the table says. (That any decimal flag byte of
TAB_ADD but 0 counts as true is the model's choice, log entry 20.) (That SPACE records at the end may take the
cursor's place past 1560 is the model's choice, log entry 74.) -/
def Obligations.TabCommandsKeepTheGuard : Prop :=
  ∀ s : State, s.commandReady → s.quiet →
    let replies (i : Instr) (code : Byte) (o : CmdOutcome) : Prop :=
      exec i s = .next { s with ret := s.ret.answered code o [] }
    let moved (u : State) : Nat := if s.comp.modeInEffect = .line then u.cursorPosition else s.comp.logical
    let changes (i : Instr) (code : Byte) (tabs : List TabStop) : Prop :=
      let u := { s with comp := { s.comp with tabs := tabs } }
      (u.fits s.comp.recs = true → ∃ t, exec i s = .next t ∧
        t.comp = { s.comp with tabs := tabs, logical := moved u } ∧ t.ret = s.ret.answered code .done [] ∧
        s.keeps t [.comp, .ret, .image] ∧ s.imageFollows t) ∧
      (u.fits s.comp.recs = false → replies i code .inconsistent)
    (∀ hi lo dec : Byte, let x := ofTwoBytes hi lo
      (1559 < x → replies (.tabAdd [hi, lo, dec]) 0x07 .badIndex) ∧
      (x ≤ 1559 → (∀ u ∈ s.comp.tabs, u.pos ≠ x) → 24 ≤ s.comp.tabs.length →
        replies (.tabAdd [hi, lo, dec]) 0x07 .listFull) ∧
      (x ≤ 1559 → ((∃ u ∈ s.comp.tabs, u.pos = x) ∨ s.comp.tabs.length < 24) →
        changes (.tabAdd [hi, lo, dec]) 0x07 (addStop s.comp.tabs ⟨x, dec ≠ 0⟩)) ∧
      ((∀ u ∈ s.comp.tabs, u.pos ≠ x) → replies (.tabRemove [hi, lo]) 0x08 .notFound) ∧
      ((∃ u ∈ s.comp.tabs, u.pos = x) →
        changes (.tabRemove [hi, lo]) 0x08 (s.comp.tabs.filter (fun u => u.pos ≠ x)))) ∧
    changes .tabsClear 0x09 [] ∧
    ∀ v : Bool, let u := { s with set := { s.set with decimalComma := v } }
      (u.fits s.comp.recs = true → ∃ t, exec (.set [17, 0, if v then 1 else 0]) s = .next t ∧
        t.set = u.set ∧ t.comp = { s.comp with logical := moved u } ∧
        t.ret = s.ret.answered 0x01 .done [0, if v then 1 else 0, 0] ∧
        s.keeps t [.comp, .set, .ret, .image] ∧ s.imageFollows t) ∧
      (u.fits s.comp.recs = false → replies (.set [17, 0, if v then 1 else 0]) 0x01 .inconsistent)

/-- USER_WORD_ADD and USER_WORD_REMOVE (R126): a word of 2 to 24 letters with indices up to 40 is appended unless it is
listed already or the list holds 64, and a listed word is removed, the later ones moving up. What is not a word is
refused and changes nothing. (That USER_WORD_REMOVE judges its letters as USER_WORD_ADD does is the model's choice, log
entry 36.) -/
def Obligations.UserWordCommandsKeepTheList : Prop :=
  ∀ (s : State) (l : List Byte), s.commandReady → s.quiet →
    let w := l.map BitVec.toNat
    let replies (i : Instr) (code : Byte) (o : CmdOutcome) : Prop :=
      exec i s = .next { s with ret := s.ret.answered code o [] }
    let lists (i : Instr) (code : Byte) (users : List (List Nat)) : Prop :=
      ∃ t, exec i s = .next t ∧ t.spell.users = users ∧ t.spell.nextWord = s.spell.nextWord ∧
        t.spell.marks = s.spell.marks ∧ t.ret = s.ret.answered code .done [] ∧
        (∀ k, k ≠ Counter.checksDropped → t.ctr.get k = s.ctr.get k) ∧
        s.keeps t [.spell, .ctr, .ret, .image] ∧ s.imageFollows t
    ((l.length < 2 ∨ 24 < l.length) →
      replies (.userWordAdd l) 0x0A .badLength ∧ replies (.userWordRemove l) 0x0B .badLength) ∧
    (2 ≤ l.length → l.length ≤ 24 → (∃ b ∈ l, 40 < b.toNat) →
      replies (.userWordAdd l) 0x0A .badContent ∧ replies (.userWordRemove l) 0x0B .badContent) ∧
    (2 ≤ l.length → l.length ≤ 24 → (∀ b ∈ l, b.toNat ≤ 40) →
      (w ∈ s.spell.users → replies (.userWordAdd l) 0x0A .done ∧
        lists (.userWordRemove l) 0x0B (s.spell.users.filter (fun u => u ≠ w))) ∧
      (w ∉ s.spell.users → replies (.userWordRemove l) 0x0B .notFound ∧
        (64 ≤ s.spell.users.length → replies (.userWordAdd l) 0x0A .listFull) ∧
        (s.spell.users.length < 64 → lists (.userWordAdd l) 0x0A (s.spell.users ++ [w]))))

/-- PAUSE (R83) and RESUME (R84). PAUSE is answered DONE in every state: at once PAUSED with reason COMMAND where the
mechanism is IDLE, or RUNNING with no order in flight; a request that keeps its first reason elsewhere; nothing in
PAUSED. RESUME takes back a request when not PAUSED, is answered INCONSISTENT on PAPER without paper, and
otherwise ends the pause: IDLE with an empty queue, RUNNING with one, of whatever kind, the head order starting as
TheHeadOrderStarts says (`runQueue`), a MOVE to another place at once. (That EVENT MECH_STATE stands before the
ANSWER of PAUSE is the model's choice, log entry 17.) -/
def Obligations.PauseAndResume : Prop :=
  ∀ s : State, s.commandReady → s.quiet →
    (let pauses (c : Prop) (u : State) : Prop := c → ∃ t, exec .pause s = .next t ∧
        t.seq = u.seq ∧ t.drv = u.drv ∧ t.ctr = u.ctr ∧
        t.ret = { u.ret with reports := u.ret.reports ++ [.answer 0x0C .done []] } ∧
        s.keeps t [.seq, .drv, .ctr, .ret, .image] ∧ s.imageFollows t
     let now := State.event
        { s with
          ret := { s.ret with reserved := s.ret.reserved + 1 }
          seq := { s.seq with
            state := .paused, reason := (s.seq.pauseReq.getD .command).reason, pauseReq := none }
          drv := { s.drv with rotTest := none } }
        (.mechState .paused (s.seq.pauseReq.getD .command).reason)
     pauses (s.seq.state = .idle ∨ s.seq.state = .running ∧ s.seq.flight = none)
        { now with ret := { now.ret with reserved := now.ret.reserved - 1 } } ∧
     pauses (s.seq.state = .paused) s ∧
     pauses (s.seq.state ≠ .idle ∧ s.seq.state ≠ .paused ∧ ¬(s.seq.state = .running ∧ s.seq.flight = none))
        { s with seq := { s.seq with pauseReq := some (s.seq.pauseReq.getD .command) } }) ∧
    ∀ paper : Bool,
      (s.seq.state ≠ .paused → exec (.resume paper) s = .next { s with
        seq := { s.seq with pauseReq := none }, ret := s.ret.answered 0x0D .done [] }) ∧
      (s.seq.state = .paused → s.seq.reason = .paper → paper = false →
        exec (.resume paper) s = .next { s with ret := s.ret.answered 0x0D .inconsistent [] }) ∧
      (s.seq.state = .paused → (s.seq.reason = .paper → paper = true) → s.seq.pauseReq = none →
        (s.seq.queue ≠ [] →
          let u := (State.changedTo { s with ret := { s.ret with reserved := s.ret.reserved + 1 } } .running .none).runQueue
          exec (.resume paper) s = .next (State.formImage { u with ret := { u.ret with
            reports := u.ret.reports ++ [.answer 0x0D .done []], reserved := u.ret.reserved - 1 } })) ∧
        (s.seq.queue = [] → ∃ t, exec (.resume paper) s = .next t ∧
          t.seq = { s.seq with state := .idle, reason := .none } ∧
          s.keeps t [.seq, .drv, .ctr, .ret, .image] ∧ s.imageFollows t) ∧
        (∀ p rest, s.seq.queue = .move p :: rest → s.seq.carriage ≠ some p → ∃ t, exec (.resume paper) s = .next t ∧
          t.seq = { s.seq with
            state := .running, reason := .none
            flight := some (.moving (carriageMicros (Machine.dist (s.seq.carriage.getD 0) p))) } ∧
          s.keeps t [.seq, .drv, .ctr, .ret, .image] ∧ s.imageFollows t))

/-- ACK_FAULT (R150): the records whose present flag is clear leave the list, each told by EVENT FAULT_CLEARED in list
order, and the halting records that remain are counted. In HALTED the answer is DONE with their count, and homing
starts after it when there is none (COVER_OPEN with the cover open); elsewhere the answer is NOT_HALTED with the count
and nothing more happens. -/
def Obligations.AckFaultClearsAndMayStartHoming : Prop :=
  ∀ s : State, s.commandReady → s.quiet →
    let kept := s.drv.faults.filter FaultRec.isPresent
    let n := (kept.filter (fun f => s.halting f.kind)).length
    let u := (s.drv.faults.filter (fun f => !f.isPresent)).foldl
      (fun v f => v.event (.faultCleared f.kind f.ch))
      { s with
        ret := { s.ret with reserved := s.ret.reserved + 1 }
        drv := { s.drv with faults := kept } }
    let replied (o : CmdOutcome) : ReturnLine :=
      { u.ret with reports := u.ret.reports ++ [.answer 0x0E o [byteOf n]], reserved := u.ret.reserved - 1 }
    (∀ f ∈ kept, f.isPresent = true) ∧
    (s.seq.state ≠ .halted → exec .ackFault s = .next (State.formImage { u with ret := replied .notHalted })) ∧
    (s.seq.state = .halted → 0 < n → exec .ackFault s = .next (State.formImage { u with ret := replied .done })) ∧
    (s.seq.state = .halted → n = 0 → s.seq.homing = none →
      ∃ t, exec .ackFault s = .next t ∧ t.drv = { s.drv with faults := kept, rotTest := none } ∧
        t.seq = (if s.coverOpen then { s.seq with state := .coverOpen, reason := .none }
          else { s.seq with
            state := .homing, reason := .none, homing := some .home, liftTarget := s.seq.askLift .rest }) ∧
        (let v := State.event { u with ret := replied .done }
          (if s.coverOpen then .mechState .coverOpen .none else .mechState .homing .none)
         t.ret = v.ret ∧ t.ctr = v.ctr) ∧
        s.keeps t [.seq, .drv, .ctr, .ret, .image] ∧ s.imageFollows t)

/-- CREDIT_RESTATE (R175), CLEAR_COUNTERS and RESTART COUNTERS (R185): the credit restated against the places in use with
the restate flag set, or all twenty counters at 0; answered DONE and nothing else changed. A command that finds no
free place in the report queue is discarded and ANSWERS_LOST rises; one that finds a seal in progress and is not a
RESTART is answered BUSY and has no other effect (R176). A valid RESTART aborts a seal in progress (R164): ABORTED is
the answer of the seal and stands before that of the restart, here RESTART COUNTERS; the slot stays OPEN. -/
def Obligations.CreditCountersAndCommandsInProgress : Prop :=
  (∀ s : State, s.commandReady →
     exec .creditRestate s = .next { s with
       txt := { s.txt with balance := 0, unsent := 96 - s.txt.queue.length, restate := true }
       ret := s.ret.answered 0x0F .done [] } ∧
     exec .clearCounters s = .next { s with ctr := .zero, ret := s.ret.answered 0x10 .done [] } ∧
     exec .restartCounters s = .next { s with ctr := .zero, ret := s.ret.answered 0x11 .done [] }) ∧
  (∀ (s : State) (i : Instr) (code : Byte) (params : List Byte), payloadOf i = some (code, params) →
     s.resetHeld = false → runsInside s.tab.slots = true →
     (s.ret.hasFree = false → exec i s = .next { s with ctr := s.ctr.raise .answersLost 1 }) ∧
     (s.ret.hasFree = true → s.tab.sealing.isSome = true → code ≠ 0x11 →
       exec i s = .next { s with ret := s.ret.answered code .busy [] })) ∧
  (∀ (s : State) (e : Seal), s.resetHeld = false → s.ret.hasFree = true → s.tab.sealing = some e →
     exec .restartCounters s = .next { s with
       ctr := .zero
       tab := { s.tab with sealing := none }
       ret := { s.ret with
         reports := s.ret.reports ++ [.answer 0x05 .aborted [], .answer 0x11 .done []]
         reserved := s.ret.reserved - 1 } })

/-- RESTART LINK (R179): the report queue holds the answer of the restart first, then EVENT LINK_LOST if the receiver
was LOCKED; its reservations and the lost flag are gone; the receiver is in HUNT and has left LOCKED as R171 says;
the credit is restated; the arbiter count is 0; a block being sent stands; and the image starts afresh. (That a
run begun by the repeat withdrawn is abandoned and that the bytes received stand are the model's choices, log
entries 39 and 43.) -/
def Obligations.RestartLinkStartsTheLinkAfresh : Prop :=
  ∀ s : State, s.commandReady → s.quiet →
    let locked := s.rx.sync = .locked
    ∃ t, exec .restartLink s = .next t ∧ t.rx = { s.rx with sync := .hunt } ∧
      t.ret = { s.ret with
        reports := .answer 0x11 .done [] :: (if locked then [.event .linkLost false] else [])
        reserved := 0, lost := false, arbCount := 0 } ∧
      t.txt = { s.txt with balance := 0, unsent := 96 - s.txt.queue.length, restate := true } ∧
      t.ctr = (if locked then s.ctr.raise .syncLosses 1 else s.ctr) ∧
      t.intake = (if locked then
        { s.intake with held := [], shiftLock := false, timer := none, pendingRepeat := none } else s.intake) ∧
      t.line = { s.line with run := if locked ∧ s.intake.pendingRepeat.isSome then none else s.line.run } ∧
      t.disp.lastSent = none ∧ t.disp.slot = (if s.set.display then some t.image else none) ∧
      s.keeps t [.rx, .ret, .txt, .ctr, .intake, .line, .image, .lastSent]

/-- RESTART TEXT (R22, R47, R18, R175): both feeds are emptied and the places of the remote text become unsent credit,
the composition and the outgoing line go, the attributes and the line flags are cleared, the line record and the
word table are emptied; the logical position stands in DIRECT and becomes the left margin in LINE; then a line
boundary is reached, at which the pending line settings go into force and the window starts at 0. -/
def Obligations.RestartTextEmptiesTheText : Prop :=
  ∀ s : State, s.commandReady →
    ∃ t, exec .restartText s = .next t ∧ t.keyq = ⟨[], false⟩ ∧
      t.txt = { s.txt with queue := [], unsent := s.txt.unsent + s.txt.queue.length } ∧
      t.intake = { s.intake with offered := none, timer := none, pendingRepeat := none } ∧
      t.comp = ({ s.comp with
        recs := [], cursor := 0, choice := s.set.justify, outgoing := none, bold := false, underline := false
        flags := .clear, override := false, keyWait := none, textWait := none
        logical := if s.comp.source = .localKeys ∧ s.comp.mode = .line then s.comp.left else s.comp.logical }
        : Composer).applyPending s.set.justify ∧
      t.disp.window = 0 ∧
      t.seq = { s.seq with queue := s.seq.queue.map Order.dropRef } ∧
      t.line = { s.line with entries := [], dropped := 0, run := none } ∧
      t.spell = { s.spell with words := [], marks := [], checkq := [], engine := none, sweep := none, requested := none } ∧
      t.ret = s.ret.answered 0x11 .done [] ∧
      s.keeps t [.keyq, .txt, .intake, .comp, .seq, .line, .spell, .ret, .window, .image] ∧ s.imageFollows t

/-- RESTART MECH (R88, R107) in DIRECT with nothing in flight, no homing in progress, the cover closed and no line
setting pending: the print queue and the outgoing line go, entries without a printed ink strike leave the line
record and the others lose their waiting strikes and their lifts, the logical position becomes the end of the newest
INKED entry, or the left margin, the pause ends, and homing starts after the answer. (That `liftSkipped` becomes no is
the model's choice, log entry 60.) -/
def Obligations.RestartMechClearsTheOrdersAndHomes : Prop :=
  ∀ s : State, s.commandReady → s.quiet → s.seq.flight = none → s.seq.homing = none → s.seq.state ≠ .homing →
    s.coverOpen = false → s.comp.modeInEffect = .direct → s.comp.later = .none →
    let entries := (s.line.entries.filter (fun e => e.strikes.isEmpty || e.inkStrikes.any StrikeRec.printed)).map
      (fun e => { e with strikes := e.strikes.filter (fun k => k.status ≠ .waiting), outstanding := 0, liftSkipped := false })
    let v := State.event { s with ret := s.ret.answered 0x11 .done [] } (.mechState .homing .none)
    ∃ t, exec .restartMech s = .next t ∧
      t.seq = { s.seq with
        queue := [], flight := none, state := .homing, reason := .none, homing := some .home, pauseReq := none
        lift := (if s.seq.liftTarget = none then s.seq.lift else none)
        liftTarget := (if s.seq.liftTarget = none ∧ s.seq.lift = some .rest then none else some .rest)
        heatCounted := false, coverStop := false } ∧
      t.comp = { s.comp with
        outgoing := none
        logical := ((lastWhere (fun e => e.state = .inked) entries).map (fun e => e.pos + e.adv)).getD s.comp.left } ∧
      plain t.line.entries = plain entries ∧ t.line.dropped = s.line.dropped ∧ t.line.nextSeq = s.line.nextSeq ∧
      t.drv = { s.drv with rotTest := none } ∧ t.ret = v.ret ∧
      s.keeps t [.seq, .comp, .line, .spell, .drv, .ctr, .ret, .window, .image] ∧ s.imageFollows t

/-- RESTART TABLES (R167) outside WHEEL_WAIT (in it, ReadersFollowTheDirectory): every slot is EMPTY, the bytes of
table memory stand, and nothing is told but the answer. Where a key map was active a typematic repeat ends (R158).
Where no lexicon was active the Spelling Unit and the text are untouched; where one was, its lookup is aborted and the
check queue is empty (R121, R123). (That a repeat goes on where no key map was active before either is the model's
choice, log entry 73.) -/
def Obligations.RestartTablesEmptiesTheDirectory : Prop :=
  ∀ s : State, s.commandReady → s.quiet → s.seq.state ≠ .wheelWait →
    ∃ t, exec .restartTables s = .next t ∧ t.tab.slots = List.replicate 12 Slot.emptySlot ∧
      t.ret = s.ret.answered 0x11 .done [] ∧
      t.intake = (if (s.active .keyMap).isNone then s.intake else { s.intake with timer := none }) ∧
      ((s.active .lexicon).isNone → t.spell = s.spell ∧ t.line = s.line ∧ t.comp = s.comp ∧ t.ctr = s.ctr) ∧
      ((s.active .lexicon).isSome → t.spell.engine = none ∧ t.spell.checkq = []) ∧
      s.keeps t [.slots, .ret, .intake, .spell, .line, .comp, .ctr, .image] ∧ s.imageFollows t

/-- RESTART ALL (R186) with nothing in flight, no homing in progress and the cover closed: the answer stands first,
then EVENT LINK_LOST if the receiver was LOCKED, then MECH_STATE; every item is at its power-on value but the
heat, the positions reached, the table bytes, what the link holds and the block being sent; and the image starts
afresh. (That the bytes received and the window stand is the model's choice, log entry 43.) -/
def Obligations.RestartAllStartsThePartAfresh : Prop :=
  ∀ s : State, s.commandReady → s.seq.flight = none → s.seq.homing = none → s.seq.state ≠ .homing →
    s.coverOpen = false →
    ∃ t, exec .restartAll s = .next t ∧
      t = { State.reset with
        pending := s.pending
        free := s.free
        rx := { s.rx with sync := .hunt }
        tab := { TableStore.powerOn with mem := s.tab.mem }
        ret := { ReturnLine.powerOn with
          reports := .answer 0x11 .done [] :: (if s.rx.sync = .locked then [.event .linkLost false] else [])
            ++ [.event (.mechState .homing .none) false]
          sending := s.ret.sending }
        seq := { Sequencer.firstHoming with
          carriage := s.seq.carriage
          petal := s.seq.petal
          heat := s.seq.heat
          lift := (if s.seq.liftTarget = none then s.seq.lift else none)
          liftTarget := (if s.seq.liftTarget = none ∧ s.seq.lift = some .rest then none else some .rest) } }

/-- SET of the settings that act when they are set (R10, R14, R123, R124, R137, R140, R181, R183). KEYBOARD at a new
value ends a typematic repeat and tells the map now active; EXPECTED_WHEEL makes a waiting mechanism judge the wheel
condition again; DISPLAY OFF empties the slot and ON starts the image afresh; BEEPER OFF stops the tone; SPELL OFF
ends the checking of words and SPELL ON leaves none dropped (R117; how is the model's choice, log entry 56); LANGUAGE
selecting another lexicon tells the one now active, and selecting none leaves no lookup under way and the check queue
empty. Events stand before the answer. (That a new value of KEYBOARD ends the repeat also where no key map is active
before or after it is the model's choice, log entry 73.) -/
def Obligations.SettingsActWhenTheyAreSet : Prop :=
  ∀ (s : State) (hi lo : Byte), s.commandReady → s.quiet →
    let v := ofTwoBytes hi lo
    let held (c : Settings) : State := { s with set := c, ret := { s.ret with reserved := s.ret.reserved + 1 } }
    let replied (x : Nat) (r : ReturnLine) : ReturnLine := { r with
      reports := r.reports ++ [.answer 0x01 (if x = v then .done else .doneClamped) (twoBytes x ++ [0])]
      reserved := r.reserved - 1 }
    let gives (id : Byte) (x : Nat) (u : State) : Prop :=
      exec (.set [id, hi, lo]) s = .next (State.formImage { u with ret := replied x u.ret })
    (let x := min 7 v
     let u := { held { s.set with keyboard := x } with intake := { s.intake with timer := none } }
     (s.set.keyboard = x → gives 11 x (held s.set)) ∧
     (s.set.keyboard ≠ x → u.active .keyMap = none → gives 11 x u) ∧
     ∀ i, s.set.keyboard ≠ x → u.active .keyMap = some i → gives 11 x (u.event (.tableActive .keyMap x i))) ∧
    (let x := min 63 v
     let u := held { s.set with expectedWheel := x }
     let mismatch := x ≠ 0 ∧ x ≠ s.seq.wheelCode
     let ready := ¬mismatch ∧ s.active .wheelMap ≠ none
     (s.seq.state ≠ .wheelWait → gives 12 x u) ∧
     (s.seq.state = .wheelWait →
       (mismatch → s.seq.reason = .mismatch → gives 12 x u) ∧
       (mismatch → s.seq.reason = .noMap → gives 12 x (State.event (State.event
         { u with seq := { s.seq with reason := .mismatch } } (.mechState .wheelWait .mismatch))
         (.wheelMismatch x s.seq.wheelCode))) ∧
       (¬mismatch → s.active .wheelMap = none → s.seq.reason = .noMap → gives 12 x u) ∧
       (¬mismatch → s.active .wheelMap = none → s.seq.reason = .mismatch → gives 12 x (State.event (State.event
         { u with seq := { s.seq with reason := .noMap } } (.mechState .wheelWait .noMap)) (.wheelNoMap s.seq.wheelCode))) ∧
       (∀ r, ready → s.seq.pauseReq = some r → gives 12 x (State.changedTo { u with seq := { s.seq with pauseReq := none } }
         .paused (if r = .key then .key else .command))) ∧
       (ready → s.seq.pauseReq = none → s.seq.queue = [] → gives 12 x (u.changedTo .idle .none)) ∧
       (ready → s.seq.pauseReq = none → s.seq.queue ≠ [] → gives 12 x (u.changedTo .running .none).runQueue))) ∧
    (let x := min 1 v
     (s.set.display = (x = 1 : Bool) → gives 18 x (held s.set)) ∧
     (s.set.display = true → x = 0 →
       gives 18 x { held { s.set with display := false } with disp := { s.disp with slot := none } }) ∧
     (s.set.display = false → x = 1 →
       gives 18 x { held { s.set with display := true } with disp := { s.disp with lastSent := none } }) ∧
     gives 19 x { held { s.set with beeper := x = 1 } with
       disp := { s.disp with beeper := if x = 1 then s.disp.beeper else none } }) ∧
    (let x := min 1 v
     (s.set.spell = (x = 1 : Bool) → gives 8 x (held s.set)) ∧
     (s.set.spell ≠ (x = 1 : Bool) → ∃ t, exec (.set [8, hi, lo]) s = .next t ∧ t.set = { s.set with spell := x = 1 } ∧
       t.ret = s.ret.answered 0x01 (if x = v then .done else .doneClamped) (twoBytes x ++ [0]) ∧
       t.spell.users = s.spell.users ∧ t.spell.nextWord = s.spell.nextWord ∧ t.spell.marks = s.spell.marks ∧
       (x = 0 → t.spell.engine = none ∧ t.spell.checkq = [] ∧ t.spell.sweep = none ∧ t.ctr = s.ctr ∧
         ∀ w ∈ t.spell.words, w.verdict ≠ .pending) ∧
       (x = 1 → ∀ w ∈ t.spell.words, w.verdict ≠ .skipped .dropped) ∧
       (∀ k, k ≠ Counter.checksDropped → t.ctr.get k = s.ctr.get k) ∧
       s.keeps t [.set, .spell, .ctr, .ret, .image] ∧ s.imageFollows t)) ∧
    (let x := min 7 v
     let u := held { s.set with language := x }
     (u.active .lexicon = s.active .lexicon → gives 10 x u) ∧
     (u.active .lexicon ≠ s.active .lexicon →
       let w := if u.active .lexicon = none then u else u.event (.tableActive .lexicon x ((u.active .lexicon).getD 0))
       ∃ t, exec (.set [10, hi, lo]) s = .next t ∧ t.set = { s.set with language := x } ∧ t.ret = replied x w.ret ∧
         t.spell.users = s.spell.users ∧ t.spell.marks = s.spell.marks ∧
         (u.active .lexicon = none → t.spell.engine = none ∧ t.spell.checkq = []) ∧
         plain t.line.entries = plain s.line.entries ∧ plainRecs t.comp.recs = plainRecs s.comp.recs ∧
         t.comp = { s.comp with recs := t.comp.recs } ∧
         (∀ k, k ≠ Counter.checksDropped → t.ctr.get k = w.ctr.get k) ∧
         s.keeps t [.set, .spell, .line, .comp, .ctr, .ret, .image] ∧ s.imageFollows t))

/-- The readers follow the directory (R157, R158, R163, R165). A table sealed under the selection of its kind becomes
active, told by TABLE_ACTIVE before the answer; an active table that is dropped, or reopened where it is not
protected, is active no longer. A change of the key map ends a typematic repeat; a change of the lexicon is followed
by the Spelling Unit, which without one looks nothing up. In WHEEL_WAIT each of these commands, and RESTART TABLES,
makes the mechanism judge the wheel condition again with the directory it leaves (R10), after any TABLE_ACTIVE; the
answer of a command comes last, that of RESTART TABLES first. (That what TABLE_OPEN and TABLE_DROP let the mechanism
judge again is told before their ANSWER, which no rule orders, is the model's choice, log entry 17.) (That a repeat
goes on where no key map was active before either is the model's choice, log entry 73.) -/
def Obligations.ReadersFollowTheDirectory : Prop :=
  ∀ s : State, s.quiet → s.sealedOnce →
    let reply (code : Byte) (o : CmdOutcome) (data : List Byte) (r : ReturnLine) : ReturnLine :=
      { r with reports := r.reports ++ [.answer code o data], reserved := r.reserved - 1 }
    let rejudges (c : Instr) (u : State) (answered : ReturnLine → ReturnLine) : Prop :=
      let j := u.judged
      ∃ t, exec c s = .next t ∧ t.tab = u.tab ∧ t.seq = j.seq ∧ t.drv = j.drv ∧ t.ret = answered j.ret ∧
        (∀ k, k ≠ Counter.checksDropped → t.ctr.get k = j.ctr.get k) ∧ t.disp.window = j.disp.window ∧
        t.intake = (if t.active .keyMap = s.active .keyMap then s.intake else { s.intake with timer := none }) ∧
        plain t.line.entries = plain j.line.entries ∧ t.line = { s.line with entries := t.line.entries } ∧
        plainRecs t.comp.recs = plainRecs s.comp.recs ∧
        t.comp = { s.comp with recs := t.comp.recs } ∧ t.spell.users = s.spell.users ∧
        s.keeps t [.slots, .sealing, .intake, .spell, .line, .comp, .seq, .drv, .ret, .ctr, .window, .image] ∧
        s.imageFollows t
    let follows (k : TableKind) (t : State) : Prop := s.imageFollows t ∧
      (k = .wheelMap → s.keeps t [.slots, .sealing, .ret, .ctr, .image]) ∧
      (k = .keyMap → t.intake = { s.intake with timer := none } ∧
        s.keeps t [.slots, .sealing, .intake, .ret, .ctr, .image]) ∧
      (k = .lexicon → t.spell.users = s.spell.users ∧ t.spell.marks = s.spell.marks ∧
        plain t.line.entries = plain s.line.entries ∧ plainRecs t.comp.recs = plainRecs s.comp.recs ∧
        s.keeps t [.slots, .sealing, .spell, .line, .comp, .ret, .ctr, .image])
    (∀ e : Seal, runsInside s.tab.slots = true → s.sealFollows → s.tab.sealing = some e →
      let d := slotAt s.tab.slots e.slot
      let check := tableCheck (slotBytes s.tab.mem d)
      check = e.check → validateTable s.tab.mem d = none → d.state = .opened →
      let after := setAt (s.tab.slots.map (fun f =>
          if f.state = .sealed ∧ f.kind = d.kind ∧ f.key = d.key then Slot.emptySlot else f)) e.slot
        { d with state := .sealed, written := [], guarded := e.guarded, check := check }
      let p := { s with tab := { s.tab with slots := after, sealing := none } }
      (s.seq.state = .wheelWait → rejudges .sealComplete
        (if d.key = s.selection d.kind then p.event (.tableActive d.kind d.key e.slot) else p)
        (reply 0x05 .done (twoBytes check.toNat))) ∧
      (d.key = s.selection d.kind → s.seq.state ≠ .wheelWait →
      let w := s.event (.tableActive d.kind d.key e.slot)
      ∃ t, exec .sealComplete s = .next t ∧ t.active d.kind = some e.slot ∧ t.tab.sealing = none ∧
        t.ret = { w.ret with
          reports := w.ret.reports ++ [.answer 0x05 .done (twoBytes check.toNat)], reserved := s.ret.reserved - 1 } ∧
        (∀ k, k ≠ Counter.checksDropped → t.ctr.get k = w.ctr.get k) ∧ follows d.kind t)) ∧
    (s.commandReady → s.seq.state = .wheelWait →
      let held := { s with ret := { s.ret with reserved := s.ret.reserved + 1 } }
      rejudges .restartTables { s with
        tab := { s.tab with slots := List.replicate 12 Slot.emptySlot }, ret := s.ret.answered 0x11 .done [] } (fun r => r) ∧
      ∀ slot : Byte,
        let i := slot.toNat
        let d := slotAt s.tab.slots i
        let made (after : Slot) : State := { held with tab := { s.tab with slots := setAt s.tab.slots i after } }
        i < 12 →
        rejudges (.tableDrop [slot]) (made Slot.emptySlot) (reply 0x06 .done [byteOf d.state.num]) ∧
        (¬(d.state = .sealed ∧ d.guarded = true) →
          ∀ (kind key hi lo : Byte) (k : TableKind) (first : Nat), kind.toNat = k.num →
          key.toNat ≤ k.maxKey → 0 < ofTwoBytes hi lo → ofTwoBytes hi lo ≤ 4096 →
          lowestFit (occupied (setAt s.tab.slots i Slot.emptySlot)) (ofTwoBytes hi lo) = some first →
          rejudges (.tableOpen [slot, kind, key, hi, lo])
            (made ⟨.opened, k, key.toNat, first, ofTwoBytes hi lo, List.replicate (ofTwoBytes hi lo) false, false, 0⟩)
            (reply 0x03 .done (twoBytes first)))) ∧
    (s.commandReady → s.seq.state ≠ .wheelWait → ∀ slot : Byte,
      let i := slot.toNat
      let d := slotAt s.tab.slots i
      i < 12 → d.state = .sealed → d.key = s.selection d.kind →
      let leaves (c : Instr) (after : Slot) (ret : ReturnLine) : Prop :=
        ∃ t, exec c s = .next t ∧ t.tab.slots = setAt s.tab.slots i after ∧ t.active d.kind = none ∧ t.ret = ret ∧
          (∀ k, k ≠ Counter.checksDropped → t.ctr.get k = s.ctr.get k) ∧ follows d.kind t ∧
          (d.kind = .lexicon → t.spell.engine = none ∧ t.spell.checkq = [])
      leaves (.tableDrop [slot]) Slot.emptySlot (s.ret.answered 0x06 .done [byteOf SlotState.sealed.num]) ∧
      (d.guarded = false → ∀ (kind key hi lo : Byte) (k : TableKind) (first : Nat), kind.toNat = k.num →
        key.toNat ≤ k.maxKey → 0 < ofTwoBytes hi lo → ofTwoBytes hi lo ≤ 4096 →
        lowestFit (occupied (setAt s.tab.slots i Slot.emptySlot)) (ofTwoBytes hi lo) = some first →
        leaves (.tableOpen [slot, kind, key, hi, lo])
          ⟨.opened, k, key.toNat, first, ofTwoBytes hi lo, List.replicate (ofTwoBytes hi lo) false, false, 0⟩
          (s.ret.answered 0x03 .done (twoBytes first))))

/-! ### Key Intake and the Composer -/

/-- KEY_PRESS and KEY_RELEASE (R14 to R17): what comes of the event at the head of the key queue. A release takes its
key out of the held keys, and ends the repeat of that key. A press of key 96 or above has no effect; a press without
an active key map is discarded, counted and signalled; any other is looked up in the current layer of the map (CODE
before SHIFT before NORMAL), entered as held and acted on by its entry, a character, dead character or other
function being offered and left at the head. A press that comes to the head ends a repeat in progress.
TYPEMATIC_COUNTDOWN_EXPIRY and TYPEMATIC_PERIODIC_EXPIRY (R19): the expiry of the timer that runs makes a repeat
unless one is pending, and the periodic timer runs on; without such a timer there is nothing to expire. What the
Composer takes (R16, R19): a pending repeat before the press at the head, which leaves the timer as it runs; a press
taken leaves the key queue, and where it is repeatable and its key still held its countdown starts. (That no countdown starts,
the timer standing as it is, where a loss of LOCKED has let go of the key meanwhile is the model's choice, log entry
38; R19 starts it on the taking.) -/
def Obligations.KeyEventsAreResolvedAndRepeated : Prop :=
  (∀ (s : State) (b : Byte) (rest : List Byte), s.resetHeld = false → s.keyq.queue = b :: rest →
     let key := b.toNat % 128
     let popped : KeyQueue := { s.keyq with queue := rest }
     let others := s.intake.held.filter (fun h => h.1 ≠ key)
     (128 ≤ b.toNat → exec .keyRelease s = .next { s with
       keyq := popped
       intake := { s.intake with held := others, timer := s.intake.timer.filter (fun t => t.key ≠ key) } }) ∧
     (b.toNat < 128 → s.intake.offered = none →
       (96 ≤ key → exec .keyPress s = .next { s with keyq := popped }) ∧
       (key < 96 → s.activeBase .keyMap = none → exec .keyPress s = .next (State.signal { s with
         keyq := popped
         intake := { s.intake with timer := none }
         ctr := s.ctr.raise .noKeymap 1 } .refused)) ∧
       ∀ (base : Nat) (layer : Layer) (e : KeyEntry), key < 96 → s.activeBase .keyMap = some base →
         layer = (if s.intake.holds .code then Layer.code
           else if s.intake.holds .shift || s.intake.shiftLock then Layer.shift else Layer.normal) →
         e = keyEntryAt s.tab.mem base layer key →
         let pressed : Intake := { s.intake with held := others ++ [(key, e)], timer := none }
         let taken (k : Intake) : Prop := exec .keyPress s = .next { s with keyq := popped, intake := k }
         let offers (a : KeyAction) (r : Bool) : Prop :=
           exec .keyPress s = .next { s with intake := { pressed with offered := some ⟨key, a, r⟩ } }
         (e = .none → taken pressed) ∧
         (∀ r, e = .func .shift r → taken { pressed with shiftLock := false }) ∧
         (∀ r, e = .func .code r → taken pressed) ∧
         (∀ r, e = .func .shiftLock r → taken { pressed with shiftLock := !s.intake.shiftLock }) ∧
         (∀ c r, e = .char c r → offers (.char c) r) ∧
         (∀ c, e = .dead c → offers (.dead c) false) ∧
         (∀ f r, e = .func f r → f ≠ .shift → f ≠ .code → f ≠ .shiftLock → offers (.func f) r))) ∧
  (∀ (s : State) (key : Nat) (a : KeyAction), s.resetHeld = false →
     let repeated := { s with intake := { s.intake with
       pendingRepeat := some (s.intake.pendingRepeat.getD a), timer := some ⟨key, a, true⟩ } }
     (s.intake.timer = some ⟨key, a, false⟩ →
       exec .typematicCountdownExpiry s = .next repeated ∧ exec .typematicPeriodicExpiry s = .next s) ∧
     (s.intake.timer = some ⟨key, a, true⟩ →
       exec .typematicPeriodicExpiry s = .next repeated ∧ exec .typematicCountdownExpiry s = .next s) ∧
     (s.intake.timer = none →
       exec .typematicCountdownExpiry s = .next s ∧ exec .typematicPeriodicExpiry s = .next s)) ∧
  ∀ s : State,
    (∀ a, s.intake.pendingRepeat = some a → s.selected = some a ∧
      s.dropSelected = { s with intake := { s.intake with pendingRepeat := none } }) ∧
    (∀ o, s.intake.pendingRepeat = none → s.intake.offered = some o → s.selected = some o.action ∧
      s.dropSelected = { s with
        keyq := { s.keyq with queue := s.keyq.queue.tail }
        intake := { s.intake with
          offered := none
          timer := if o.rep = true ∧ (∃ h ∈ s.intake.held, h.1 = o.key) then some ⟨o.key, o.action, false⟩
            else s.intake.timer } }) ∧
    (s.intake.pendingRepeat = none → s.intake.offered = none → s.selected = none ∧ s.dropSelected = s)

/-- CHARACTER_KEY_ACTION, DEAD_KEY_ACTION and SPACE in DIRECT (R29 to R31, R33, R66, R93). A character within its
limit, with room for its strikes, is taken: its orders join the print queue, an entry joins the line record, the
position advances, and a mechanism that is IDLE starts; the first one near the margin sounds the bell and is told.
Where the record holds 200 entries the oldest leaves first, its orders lose their reference and the dropped count
rises (R89). Without room it waits. Beyond its limit it is refused, and so are a character in PS pitch without a
wheel map and an ABSENT code, which is counted. (A spelling check may drop another, so CHECKS_DROPPED is left
open. That MECH_STATE RUNNING is queued before HOT_ZONE, and the advance 0 of a DEAD character without a wheel
map, are the model's choices, log entries 18 and 50.) -/
def Obligations.DirectCharactersArePlaced : Prop :=
  ∀ (s : State) (i : Instr) (a : KeyAction) (code : Byte) (isDead : Bool),
    (i = .characterKeyAction ∧ a = .char code ∧ isDead = false ∨
      i = .deadKeyAction ∧ a = .dead code ∧ isDead = true ∨
      i = .space ∧ (a = .func .space ∨ a = .char 0x20) ∧ code = 0x20 ∧ isDead = false) →
    s.turnOf a → s.comp.source = .localKeys → s.comp.mode = .direct →
    let kind : EntryKind := if isDead then .dead else if code = 0x20 then .space else .char
    let p := s.comp.logical
    let adv := s.advance code isDead
    let orders := (s.directStrikes code isDead s.comp.bold s.comp.underline).filter (fun k => k.pos ≤ 1559)
    let past := ((s.directStrikes code isDead s.comp.bold s.comp.underline).filter (fun k => 1559 < k.pos)).length
    let limit := if s.comp.flags.marginReleased then 1560 else s.comp.right
    let isAbsent := kind ≠ .space ∧ s.wheelEntry code = some .absent
    let full := 200 ≤ s.line.entries.length
    let kept : LineRecord := if full then
      { s.line with entries := s.line.entries.tail, dropped := min 65535 (s.line.dropped + 1) } else s.line
    let queue := if full then s.seq.queue.map (fun o =>
      if o.ref = s.line.entries.head?.map Entry.seqNum then o.dropRef else o) else s.seq.queue
    (isAbsent → ∃ t, exec i s = .next t ∧ s.tookKey t a ∧ t.ctr = s.ctr.raise .unprintable 1 ∧
      t.comp = { s.comp with override := false } ∧ t.line = { s.line with run := none } ∧
      t.disp.beeper = (s.signal .refused).disp.beeper ∧
      s.keeps t [.keyq, .intake, .comp, .line, .ctr, .beeper, .image] ∧ s.imageFollows t) ∧
    (s.comp.pitch = .ps → s.active .wheelMap = none → ∃ t, exec i s = .next t ∧ s.refusedKey t a) ∧
    (¬isAbsent → ¬s.noWidth → limit < p + adv → ∃ t, exec i s = .next t ∧ s.refusedKey t a) ∧
    (¬isAbsent → ¬s.noWidth → p + adv ≤ limit → 64 < s.seq.queue.length + orders.length →
      exec i s = .next (s.waitsKey .room)) ∧
    (¬isAbsent → ¬s.noWidth → p + adv ≤ limit → s.seq.queue.length + orders.length ≤ 64 →
      (full → (s.line.entries.map Entry.seqNum).Nodup) → (s.seq.state = .idle → s.seq.queue = []) →
      let entry : Entry := ⟨s.line.nextSeq, code, kind, p, adv, strikeRecords s.seq.nextStrike orders, 0, false, none⟩
      let u := State.kick { s with
        line := { kept with entries := kept.entries ++ [entry], nextSeq := s.line.nextSeq + 1 }
        seq := { s.seq with
          queue := queue ++ strikeOrders (some s.line.nextSeq) s.seq.nextStrike orders
          nextStrike := s.seq.nextStrike + BitVec.ofNat 16 orders.length }
        ctr := if past = 0 then s.ctr else s.ctr.raise .pastTravel past }
      let bell := kind ≠ .space ∧ s.comp.right ≤ p + 60 ∧ s.comp.flags.hotZone = false
      let v := if bell then State.event (u.signal .bell) (.hotZone p) else u
      ∃ t, exec i s = .next t ∧ s.tookKey t a ∧ t.seq = v.seq ∧ t.ret = v.ret ∧ t.drv = v.drv ∧
        t.disp.beeper = v.disp.beeper ∧ (∀ k, k ≠ Counter.checksDropped → t.ctr.get k = v.ctr.get k) ∧
        plain t.line.entries = plain v.line.entries ∧ t.line.nextSeq = v.line.nextSeq ∧ t.line.dropped = kept.dropped ∧
        t.comp = { s.comp with
          logical := p + adv, override := false
          flags := if bell then { s.comp.flags with hotZone := true } else s.comp.flags } ∧
        s.keeps t [.keyq, .intake, .comp, .line, .seq, .ret, .ctr, .drv, .spell, .window, .beeper, .image] ∧
        s.imageFollows t)

/-- Insertions in LINE (R39, R46): CHARACTER_KEY_ACTION, DEAD_KEY_ACTION, SPACE and TAB put their record in at the
cursor when the composition stays within the line and its 200 records; the logical position is the cursor's place, and
the first CHAR or DEAD record near the margin sounds the bell and is told (R33). A TAB that does not fit is refused. A
character is refused without a wheel map, and so is an ABSENT code, which is counted. One that overflows is refused
with the cursor before the end, with AUTO_RETURN OFF, with no break, or with a TAB in the carried part; otherwise the
line wraps (R43): it waits for the outgoing line, or, stated here with HOLD_ON_MISS OFF, what stands before the break
is released, and the character goes in at the end of the carried part, or is refused where it overflows even there.
(That SPACE records at the end may take the cursor's place past 1560 is the model's choice, log entry 74.) -/
def Obligations.LineInsertsAtTheCursor : Prop :=
  (∀ (s : State) (i : Instr) (a : KeyAction) (c : CompRec),
    (∃ code : Byte, ∃ isDead : Bool,
      (i = .characterKeyAction ∧ a = .char code ∧ isDead = false ∨
        i = .deadKeyAction ∧ a = .dead code ∧ isDead = true ∨
        i = .space ∧ (a = .func .space ∨ a = .char 0x20) ∧ code = 0x20 ∧ isDead = false) ∧
      (s.active .wheelMap).isSome ∧ (isDead = false → code = 0x20 ∨ s.wheelEntry code ≠ some .absent) ∧
      (isDead = true → s.wheelEntry code ≠ some .absent) ∧
      c = ⟨code, if isDead then .dead else if code = 0x20 then .space else .char, s.comp.bold, s.comp.underline,
        s.advance code isDead, none⟩) ∨
    (i = .tab ∧ a = .func .tab ∧ c = ⟨0x09, .tab, s.comp.bold, s.comp.underline, 0, none⟩) →
    s.turnOf a → s.comp.source = .localKeys → s.comp.mode = .line → s.comp.cursor ≤ s.comp.recs.length →
    let recs := s.comp.recs.take s.comp.cursor ++ [c] ++ s.comp.recs.drop s.comp.cursor
    let u := { s with comp := { s.comp with recs := recs, cursor := s.comp.cursor + 1 } }
    (s.comp.recs.length < 200 → u.fits recs = true →
      let p := u.placeOf s.comp.cursor
      let bell := (c.kind = .char ∨ c.kind = .dead) ∧ s.comp.right ≤ p + 60 ∧ s.comp.flags.hotZone = false
      let v := if bell then State.event (s.signal .bell) (.hotZone p) else s
      ∃ t, exec i s = .next t ∧ s.tookKey t a ∧ t.ret = v.ret ∧ t.disp.beeper = v.disp.beeper ∧
        (∀ k, k ≠ Counter.checksDropped → t.ctr.get k = v.ctr.get k) ∧ plainRecs t.comp.recs = plainRecs recs ∧
        t.comp = { s.comp with
          recs := t.comp.recs, cursor := s.comp.cursor + 1, logical := u.cursorPosition, override := false
          flags := if bell then { s.comp.flags with hotZone := true } else s.comp.flags } ∧
        s.keeps t [.keyq, .intake, .comp, .line, .ret, .ctr, .spell, .window, .beeper, .image] ∧ s.imageFollows t) ∧
    (c.kind = .tab → (200 ≤ s.comp.recs.length ∨ u.fits recs = false) → ∃ t, exec i s = .next t ∧ s.refusedKey t a)) ∧
  ∀ (s : State) (i : Instr) (a : KeyAction) (code : Byte) (isDead : Bool),
    (i = .characterKeyAction ∧ a = .char code ∧ isDead = false ∨
      i = .deadKeyAction ∧ a = .dead code ∧ isDead = true ∨
      i = .space ∧ (a = .func .space ∨ a = .char 0x20) ∧ code = 0x20 ∧ isDead = false) →
    s.turnOf a → s.comp.source = .localKeys → s.comp.mode = .line → s.comp.cursor ≤ s.comp.recs.length →
    let c : CompRec := ⟨code, if isDead then .dead else if code = 0x20 then .space else .char, s.comp.bold,
      s.comp.underline, s.advance code isDead, none⟩
    let recs := s.comp.recs.take s.comp.cursor ++ [c] ++ s.comp.recs.drop s.comp.cursor
    let isAbsent := c.kind ≠ .space ∧ s.wheelEntry code = some .absent
    let overflows := 200 ≤ s.comp.recs.length ∨ s.natural recs ≠ none ∧ s.fits recs = false
    let isRefused : Prop := ∃ t, exec i s = .next t ∧ s.refusedKey t a
    (s.active .wheelMap = none → isRefused) ∧
    (isAbsent → ∃ t, exec i s = .next t ∧ s.tookKey t a ∧ t.ctr = s.ctr.raise .unprintable 1 ∧
      t.comp = { s.comp with override := false } ∧ t.line = { s.line with run := none } ∧
      t.disp.beeper = (s.signal .refused).disp.beeper ∧
      s.keeps t [.keyq, .intake, .comp, .line, .ctr, .beeper, .image] ∧ s.imageFollows t) ∧
    (s.active .wheelMap ≠ none → ¬isAbsent →
      (s.comp.recs.length < 200 → s.natural recs = none → isRefused) ∧
      (overflows → (s.comp.cursor ≠ s.comp.recs.length ∨ s.set.autoReturn = false) → isRefused) ∧
      (overflows → s.comp.cursor = s.comp.recs.length → s.set.autoReturn = true →
        ((∀ l d r, s.comp.recs = l ++ d :: r → d.kind = .space → ∀ b ∈ l, b.kind = .space) → isRefused) ∧
        ∀ (released spaces carried : List CompRec) (b : CompRec), s.comp.recs = released ++ spaces ++ carried →
          released.getLast? = some b → b.kind ≠ .space → spaces ≠ [] → (∀ d ∈ spaces, d.kind = .space) →
          (∀ d ∈ carried, d.kind ≠ .space) →
          ((∃ d ∈ carried, d.kind = .tab) → isRefused) ∧
          ((∀ d ∈ carried, d.kind ≠ .tab) →
            (s.comp.outgoing.isSome → exec i s = .next (s.waitsKey .outgoing)) ∧
            (s.comp.outgoing = none → s.set.holdOnMiss = false →
              let laid := s.applyChoice s.comp.choice released ((s.natural released).getD [])
              let inserted := carried.length < 200 ∧ s.fits (carried ++ [c]) = true
              let now := if inserted then carried ++ [c] else carried
              let u := { s with comp := { s.comp with recs := now, cursor := now.length } }
              let p := u.placeOf carried.length
              let bell := inserted ∧ c.kind ≠ .space ∧ s.comp.right ≤ p + 60
              let v := (match laid.abandoned with
                | some (n, x) => s.event (.justifyAbandoned n x)
                | none => s).raise .lines
              let w := if bell then State.event (v.signal .bell) (.hotZone p)
                else if inserted then v else v.signal .refused
              ∃ t, exec i s = .next t ∧ s.tookKey t a ∧ plainRecs t.comp.recs = plainRecs now ∧
                t.comp = { s.comp with
                  outgoing := some ⟨s.placementsFrom released 0 laid.placed, s.comp.left, s.set.lineSpacing⟩
                  recs := t.comp.recs, cursor := now.length, choice := s.set.justify, logical := u.cursorPosition
                  flags := if bell then { LineFlags.clear with hotZone := true } else .clear, override := false } ∧
                t.line = { s.line with run := none } ∧ t.ret = w.ret ∧ t.disp.beeper = w.disp.beeper ∧
                (∀ k, k ≠ Counter.checksDropped → t.ctr.get k = w.ctr.get k) ∧ t.spell.users = s.spell.users ∧
                s.keeps t [.keyq, .intake, .comp, .line, .ret, .ctr, .spell, .window, .beeper, .image] ∧
                s.imageFollows t))))

/-- Editing in LINE (R40). BACKSPACE and CORRECT delete the record before the cursor, WORD_CORRECT back to the start
of the word or one TAB, LINE_CORRECT the whole composition, where what is left keeps within the line, and otherwise
the key is refused; CURSOR_LEFT, CURSOR_RIGHT and RELOCATE move the cursor. The logical position is the cursor's
place. At an end, or with nothing to delete, the key is refused, and so are CURSOR_LEFT and CURSOR_RIGHT in DIRECT
(R37). (Deletions that are carried out are stated with no line setting pending.) (That SPACE records at the end may
take the cursor's place past 1560 is the model's choice, log entry 74.) -/
def Obligations.LineEditsAtTheCursor : Prop :=
  (∀ (s : State) (i : Instr) (f : Func), (i = .cursorLeft ∧ f = .cursorLeft ∨ i = .cursorRight ∧ f = .cursorRight) →
    s.turnOf (.func f) → s.comp.source = .localKeys → s.comp.mode = .direct →
    ∃ t, exec i s = .next t ∧ s.refusedKey t (.func f)) ∧
  ∀ (s : State) (i : Instr) (a : KeyAction) (paper : Bool), rowOf paper a = some i →
    s.turnOf a → s.comp.source = .localKeys → s.comp.mode = .line → s.comp.cursor ≤ s.comp.recs.length →
    let cuts (recs : List CompRec) (n : Nat) : Prop :=
      let u := { s with comp := { s.comp with recs := recs, cursor := n } }
      (s.comp.later = .none → u.fits recs = true →
      ∃ t, exec i s = .next t ∧ s.tookKey t a ∧ plainRecs t.comp.recs = plainRecs recs ∧
        t.comp = { s.comp with
          recs := t.comp.recs, cursor := n, logical := u.cursorPosition, override := false } ∧
        (∀ k, k ≠ Counter.checksDropped → t.ctr.get k = s.ctr.get k) ∧
        s.keeps t [.keyq, .intake, .comp, .line, .ctr, .spell, .window, .image] ∧ s.imageFollows t) ∧
      (u.fits recs = false → ∃ t, exec i s = .next t ∧ s.refusedKey t a)
    let goes (n : Nat) : Prop :=
      let u := { s with comp := { s.comp with cursor := n } }
      ∃ t, exec i s = .next t ∧ s.tookKey t a ∧
        t.comp = { s.comp with cursor := n, logical := u.cursorPosition, override := false } ∧
        s.keeps t [.keyq, .intake, .comp, .line, .window, .image] ∧ s.imageFollows t
    ((a = .func .backspace ∨ a = .func .correct) → 0 < s.comp.cursor →
      cuts (s.comp.recs.take (s.comp.cursor - 1) ++ s.comp.recs.drop s.comp.cursor) (s.comp.cursor - 1)) ∧
    (a = .func .wordCorrect → 0 < s.comp.cursor →
      let n := wordCut (s.comp.recs.take s.comp.cursor)
      cuts (s.comp.recs.take n ++ s.comp.recs.drop s.comp.cursor) n) ∧
    (a = .func .lineCorrect → s.comp.recs ≠ [] → cuts [] 0) ∧
    (a = .func .cursorLeft → 0 < s.comp.cursor → goes (s.comp.cursor - 1)) ∧
    (a = .func .cursorRight → s.comp.cursor < s.comp.recs.length → goes (s.comp.cursor + 1)) ∧
    (a = .func .relocate → goes s.comp.recs.length) ∧
    ((a = .func .backspace ∨ a = .func .correct ∨ a = .func .wordCorrect ∨ a = .func .cursorLeft) → s.comp.cursor = 0 →
      ∃ t, exec i s = .next t ∧ s.refusedKey t a) ∧
    (a = .func .lineCorrect → s.comp.recs = [] → ∃ t, exec i s = .next t ∧ s.refusedKey t a) ∧
    (a = .func .cursorRight → s.comp.cursor = s.comp.recs.length → ∃ t, exec i s = .next t ∧ s.refusedKey t a)

/-- The line ends of DIRECT (R34, R26, R95, R113): RETURN, CR, LF, FF and the paper keys. With room for their orders
they empty the line record, whose orders stay queued without their entries, clear the line flags, put the pending
line settings in force, append their orders and set the logical position; RETURN and CR count a line. The words of
the line leave the table but for those still being looked up. Without room the item waits. In LINE a paper key
(R37) waits while there is an outgoing line and then for room, appends its INDEX and leaves the composition and
the line record alone. (That a line end with an empty line record reaches the line boundary too is the model's
choice, log entry 34.) -/
def Obligations.DirectLineEndsCloseTheLine : Prop :=
  (∀ (s : State) (i : Instr) (key : Option KeyAction) (orders : Nat → List Order) (returns : Bool),
    s.comp.modeInEffect = .direct →
    (i = .returnKey ∧ key = some (.func .returnKey) ∧ s.comp.source = .localKeys ∧ returns = true ∧
        orders = (fun l => [.move l, .index s.set.lineSpacing]) ∨
      i = .paperUp ∧ key = some (.func .paperUp) ∧ returns = false ∧ orders = (fun _ => [.index s.set.lineSpacing]) ∨
      i = .paperDown ∧ key = some (.func .paperDown) ∧ returns = false ∧
        orders = (fun _ => [.index (-(s.set.lineSpacing : Int))]) ∨
      i = .halfUp ∧ key = some (.func .halfUp) ∧ returns = false ∧ orders = (fun _ => [.index 1]) ∨
      i = .halfDown ∧ key = some (.func .halfDown) ∧ returns = false ∧ orders = (fun _ => [.index (-1)]) ∨
      i = .remoteCr ∧ key = none ∧ (∃ rest, s.textTurn 0x0D rest) ∧ returns = true ∧ orders = (fun l => [.move l]) ∨
      i = .remoteLf ∧ key = none ∧ (∃ rest, s.textTurn 0x0A rest) ∧ returns = false ∧
        orders = (fun _ => [.index s.set.lineSpacing]) ∨
      i = .remoteFf ∧ key = none ∧ (∃ rest, s.textTurn 0x0C rest) ∧ returns = false ∧ orders = (fun _ => [.indexPage])) →
    (∀ a, key = some a → s.turnOf a) →
    let c := s.comp.applyPending s.set.justify
    let n := (orders c.left).length
    (64 < s.seq.queue.length + n →
      exec i s = .next (if key.isSome then s.waitsKey .room else s.waitsText .room)) ∧
    (s.seq.queue.length + n ≤ 64 →
      let u := State.kick { s with
        line := { s.line with entries := [], dropped := 0 }
        seq := { s.seq with queue := s.seq.queue.map Order.dropRef ++ orders c.left } }
      ∃ t, exec i s = .next t ∧ t.seq = u.seq ∧ t.ret = u.ret ∧ t.drv = u.drv ∧
        (∀ k, k ≠ Counter.checksDropped → t.ctr.get k = (if returns then u.ctr.raise .lines 1 else u.ctr).get k) ∧
        t.line.entries = [] ∧ t.line.dropped = 0 ∧ t.line.nextSeq = s.line.nextSeq ∧
        (∀ w ∈ t.spell.words, w.detached = true) ∧ t.spell.marks = [] ∧ t.spell.users = s.spell.users ∧
        t.comp = { c with
          flags := .clear
          logical := if returns then c.left else c.logical
          override := if key = none ∨ i = .returnKey then s.comp.override else false
          textWait := none } ∧
        t.disp.window = 0 ∧
        (∀ a, key = some a → t.keyq = s.dropSelected.keyq ∧ t.intake = s.dropSelected.intake ∧ t.txt = s.txt) ∧
        (key = none → t.keyq = s.keyq ∧ t.intake = s.intake ∧ s.tookText t s.txt.queue.tail) ∧
        s.keeps t [.keyq, .intake, .txt, .comp, .line, .seq, .ret, .ctr, .drv, .spell, .window, .image] ∧
        s.imageFollows t)) ∧
  ∀ (s : State) (i : Instr) (f : Func) (count : Int),
    (i, f, count) ∈ [(Instr.paperUp, Func.paperUp, (s.set.lineSpacing : Int)),
      (.paperDown, .paperDown, -(s.set.lineSpacing : Int)), (.halfUp, .halfUp, 1), (.halfDown, .halfDown, -1)] →
    s.turnOf (.func f) → s.comp.source = .localKeys → s.comp.mode = .line →
    (s.comp.outgoing.isSome → exec i s = .next (s.waitsKey .outgoing)) ∧
    (s.comp.outgoing = none → 64 ≤ s.seq.queue.length → exec i s = .next (s.waitsKey .room)) ∧
    (s.comp.outgoing = none → s.seq.queue.length < 64 → (s.seq.state = .idle → s.seq.queue = []) →
      let u := State.kick { s with seq := { s.seq with queue := s.seq.queue ++ [.index count] } }
      ∃ t, exec i s = .next t ∧ s.tookKey t (.func f) ∧ t.seq = u.seq ∧ t.ret = u.ret ∧ t.drv = u.drv ∧ t.ctr = u.ctr ∧
        t.comp = { s.comp with override := false } ∧ t.line = { s.line with run := none } ∧
        s.keeps t [.keyq, .intake, .comp, .line, .seq, .ret, .drv, .ctr, .image] ∧ s.imageFollows t)

/-- BACKSPACE and remote BS (R35), TAB and remote HT (R46), MARGIN_RELEASE (R31, in LINE refused, R37) and the codes that
have no action (R36), in DIRECT: the step back stops at 0, the tab goes to the next stop up to the right margin, both
leave a break mark after the newest entry of the word text (R109), and nothing is queued; at 0 the step back has no
effect. With no stop a TAB is refused and an HT is counted, as are the other codes. (That a LIFTING entry after that one
gets no mark, and that a discarded code, and an HT without a stop, asks for no REFUSED signal, are the model's
choices, log entries 68 and 49.) -/
def Obligations.DirectPositionKeysMoveThePosition : Prop :=
  (∀ s : State, s.turnOf (.func .marginRelease) → s.comp.modeInEffect = .line →
    ∃ t, exec .marginRelease s = .next t ∧ s.refusedKey t (.func .marginRelease)) ∧
  ∀ s : State, s.comp.modeInEffect = .direct →
    let back := s.comp.pitch.advance.getD
      (((lastWhere (fun e => e.adv ≠ 0 && e.pos + e.adv = s.comp.logical) s.line.entries).map Entry.adv).getD
        (s.spaceWidth.getD 12))
    let stop := nextStop s.comp.tabs s.comp.logical s.comp.right
    let marked : List Word := match lastWhere (fun e => e.state ≠ .lifting) s.line.entries with
      | none => s.spell.marks
      | some e => if e.seqNum ∈ s.spell.marks then s.spell.marks else s.spell.marks ++ [e.seqNum]
    let backMarked := if s.comp.logical = 0 then s.spell.marks else marked
    let moved (t : State) (x : Nat) (marks : List Word) (override : Bool) : Prop :=
      t.spell.marks = marks ∧ t.comp = { s.comp with logical := x, override := override } ∧ plain t.line.entries = plain s.line.entries ∧
        t.line.nextSeq = s.line.nextSeq ∧ t.line.dropped = s.line.dropped ∧
        (∀ k, k ≠ Counter.checksDropped → t.ctr.get k = s.ctr.get k)
    let byKey (i : Instr) (a : KeyAction) (x : Nat) (marks : List Word) : Prop := ∃ t, exec i s = .next t ∧ s.tookKey t a ∧
      moved t x marks false ∧ s.keeps t [.keyq, .intake, .comp, .line, .ctr, .spell, .image] ∧ s.imageFollows t
    let byText (i : Instr) (rest : List Byte) (x : Nat) (marks : List Word) : Prop := ∃ t, exec i s = .next t ∧ s.tookText t rest ∧
      moved t x marks s.comp.override ∧ s.keeps t [.txt, .comp, .line, .ctr, .spell, .image] ∧ s.imageFollows t
    let counts (i : Instr) (rest : List Byte) : Prop := ∃ t, exec i s = .next t ∧ s.tookText t rest ∧
      t.ctr = s.ctr.raise .unmappedControls 1 ∧ s.keeps t [.txt, .ctr, .image] ∧ s.imageFollows t
    (s.comp.source = .localKeys →
      (s.turnOf (.func .backspace) → byKey .backspace (.func .backspace) (s.comp.logical - back) backMarked) ∧
      (s.turnOf (.func .tab) → (∀ t, stop = some t → byKey .tab (.func .tab) t.pos marked) ∧
        (stop = none → ∃ t, exec .tab s = .next t ∧ s.refusedKey t (.func .tab))) ∧
      (s.turnOf (.func .marginRelease) → ∃ t, exec .marginRelease s = .next t ∧ s.tookKey t (.func .marginRelease) ∧
        t.comp = { s.comp with flags := { s.comp.flags with marginReleased := true }, override := false } ∧
        s.keeps t [.keyq, .intake, .comp, .line, .image] ∧ s.imageFollows t)) ∧
    ∀ rest,
      (s.textTurn 0x08 rest → byText .remoteBs rest (s.comp.logical - back) backMarked) ∧
      (s.textTurn 0x09 rest → (∀ t, stop = some t → byText .remoteHt rest t.pos marked) ∧
        (stop = none → counts .remoteHt rest)) ∧
      ∀ code : Byte, code.toNat < 0x20 → code ≠ 0x0D → code ≠ 0x0A → code ≠ 0x0C → code ≠ 0x08 → code ≠ 0x09 →
        s.textTurn code rest → counts .unmappedControl rest

/-- MARGIN_LEFT, MARGIN_RIGHT, PITCH_CYCLE, MODE_TOGGLE and SOURCE_TOGGLE (R26, R27, R37). At a line boundary the new
value goes into force at once with all that is pending; elsewhere it is entered in the pending line settings, or the
pending entry is removed when the value is the one in force. A margin out of its range or inconsistent with the other
as it will stand is refused. -/
def Obligations.LineSettingKeysWaitForTheBoundary : Prop :=
  ∀ s : State,
    let p := s.comp.later
    let x := s.comp.logical
    let enters (i : Instr) (f : Func) (inForce : Prop) (entered removed : PendingLine) : Prop :=
      s.turnOf (.func f) → (s.comp.source = .localKeys ∨ f = .sourceToggle) →
      ∃ t, exec i s = .next t ∧ s.tookKey t (.func f) ∧ plain t.line.entries = plain s.line.entries ∧
        (s.atBoundary = true →
          t.comp = { ({ s.comp with later := entered } : Composer).applyPending s.set.justify with override := false } ∧
          t.disp.window = 0) ∧
        (s.atBoundary = false → t.disp.window = s.disp.window ∧
          (inForce → t.comp = { s.comp with later := removed, override := false }) ∧
          (¬inForce → t.comp = { s.comp with later := entered, override := false })) ∧
        (∀ k, k ≠ Counter.checksDropped → t.ctr.get k = s.ctr.get k) ∧
        s.keeps t [.keyq, .intake, .comp, .line, .ctr, .spell, .window, .image] ∧ s.imageFollows t
    let refuses (i : Instr) (f : Func) : Prop := s.turnOf (.func f) → s.comp.source = .localKeys →
      ∃ t, exec i s = .next t ∧ s.refusedKey t (.func f)
    (x ≤ 1439 → x + 120 ≤ p.right.getD s.comp.right →
      enters .marginLeft .marginLeft (x = s.comp.left) { p with left := some x } { p with left := none }) ∧
    (1439 < x ∨ p.right.getD s.comp.right < x + 120 → refuses .marginLeft .marginLeft) ∧
    (x ≤ 1559 → p.left.getD s.comp.left + 120 ≤ x →
      enters .marginRight .marginRight (x = s.comp.right) { p with right := some x } { p with right := none }) ∧
    (1559 < x ∨ x < p.left.getD s.comp.left + 120 → refuses .marginRight .marginRight) ∧
    (∀ v w : Pitch, p.pitch.getD s.comp.pitch = v →
      (v, w) ∈ [(Pitch.p10, Pitch.p12), (.p12, .p15), (.p15, .ps), (.ps, .p10)] →
      enters .pitchCycle .pitchCycle (w = s.comp.pitch) { p with pitch := some w } { p with pitch := none }) ∧
    (∀ v w : Mode, p.mode.getD s.comp.mode = v → v ≠ w →
      enters .modeToggle .modeToggle (w = s.comp.mode) { p with mode := some w } { p with mode := none }) ∧
    ∀ v w : Source, p.source.getD s.comp.source = v → v ≠ w →
      enters .sourceToggle .sourceToggle (w = s.comp.source) { p with source := some w } { p with source := none }

/-- TAB_SET, DECIMAL_TAB_SET and TAB_CLEAR (R44), at the logical position: the stop is added, its decimal flag set or
cleared, or it is removed, where the composition stays within its limits; otherwise the key is refused, and so it is
beyond 1559, with 24 stops standing, or with no stop to clear. JUSTIFY_CYCLE, SPELL_TOGGLE, BOLD_TOGGLE and
UNDERLINE_TOGGLE (R37, R38, R124) and PAUSE_KEY (R83, R84). The justify choice of a composition goes round, and is
refused in DIRECT; the attributes and SPELL are inverted, SPELL OFF ending the checking of words and SPELL ON leaving
none dropped (R117; how is the model's choice, log entry 56); the PAUSE key pauses at once or asks for a pause, and in
PAUSED resumes, unless the paper is out, the head order starting as TheHeadOrderStarts says (`runQueue`). (That SPACE
records at the end may take the cursor's place past 1560 is the model's choice, log entry 74.) -/
def Obligations.TabKeysTogglesAndThePauseKey : Prop :=
  (∀ s : State, s.comp.source = .localKeys →
     let x := s.comp.logical
     let moved (u : State) : Nat := if s.comp.mode = .line then u.cursorPosition else x
     let refuses (i : Instr) (f : Func) : Prop := ∃ t, exec i s = .next t ∧ s.refusedKey t (.func f)
     let changes (i : Instr) (f : Func) (tabs : List TabStop) : Prop :=
       let u := { s with comp := { s.comp with tabs := tabs } }
       (u.fits s.comp.recs = true → ∃ t, exec i s = .next t ∧ s.tookKey t (.func f) ∧
         t.comp = { s.comp with tabs := tabs, logical := moved u, override := false } ∧
         s.keeps t [.keyq, .intake, .comp, .line, .image] ∧ s.imageFollows t) ∧
       (u.fits s.comp.recs = false → refuses i f)
     (∀ (i : Instr) (f : Func) (dec : Bool),
       (i = .tabSet ∧ f = .tabSet ∧ dec = false ∨ i = .decimalTabSet ∧ f = .decimalTabSet ∧ dec = true) →
       s.turnOf (.func f) →
       (1559 < x → refuses i f) ∧
       (x ≤ 1559 → (∀ u ∈ s.comp.tabs, u.pos ≠ x) → 24 ≤ s.comp.tabs.length → refuses i f) ∧
       (x ≤ 1559 → ((∃ u ∈ s.comp.tabs, u.pos = x) ∨ s.comp.tabs.length < 24) →
         changes i f (addStop s.comp.tabs ⟨x, dec⟩))) ∧
     (s.turnOf (.func .tabClear) →
       ((1559 < x ∨ ∀ u ∈ s.comp.tabs, u.pos ≠ x) → refuses .tabClear .tabClear) ∧
       (x ≤ 1559 → (∃ u ∈ s.comp.tabs, u.pos = x) →
         changes .tabClear .tabClear (s.comp.tabs.filter (fun u => u.pos ≠ x))))) ∧
  (∀ s : State, s.quiet →
     let turn (f : Func) : Prop := s.selected = some (.func f)
     (turn .justifyCycle → s.comp.source = .localKeys →
       (s.comp.mode = .direct → ∃ t, exec .justifyCycle s = .next t ∧ s.refusedKey t (.func .justifyCycle)) ∧
       ∀ w, s.comp.mode = .line → (s.comp.choice, w) ∈
           [(Justify.ragged, Justify.justify), (.justify, .center), (.center, .flushRight), (.flushRight, .ragged)] →
         ∃ t, exec .justifyCycle s = .next t ∧ s.tookKey t (.func .justifyCycle) ∧
           t.comp = { s.comp with choice := w, override := false } ∧
           s.keeps t [.keyq, .intake, .comp, .line, .image] ∧ s.imageFollows t) ∧
     (turn .boldToggle → s.comp.source = .localKeys → ∃ t, exec .boldToggle s = .next t ∧
       s.tookKey t (.func .boldToggle) ∧ t.comp = { s.comp with bold := !s.comp.bold, override := false } ∧
       s.keeps t [.keyq, .intake, .comp, .line, .image] ∧ s.imageFollows t) ∧
     (turn .underlineToggle → s.comp.source = .localKeys → ∃ t, exec .underlineToggle s = .next t ∧
       s.tookKey t (.func .underlineToggle) ∧ t.comp = { s.comp with underline := !s.comp.underline, override := false } ∧
       s.keeps t [.keyq, .intake, .comp, .line, .image] ∧ s.imageFollows t) ∧
     (turn .spellToggle → s.comp.source = .localKeys → ∃ t, exec .spellToggle s = .next t ∧
       s.tookKey t (.func .spellToggle) ∧ t.set = { s.set with spell := !s.set.spell } ∧
       t.spell.users = s.spell.users ∧ t.spell.nextWord = s.spell.nextWord ∧ t.spell.marks = s.spell.marks ∧
       (s.set.spell = true → t.spell.engine = none ∧ t.spell.checkq = [] ∧ t.spell.sweep = none ∧ t.ctr = s.ctr ∧
         ∀ w ∈ t.spell.words, w.verdict ≠ .pending) ∧
       (s.set.spell = false → ∀ w ∈ t.spell.words, w.verdict ≠ .skipped .dropped) ∧
       (∀ k, k ≠ Counter.checksDropped → t.ctr.get k = s.ctr.get k) ∧
       s.keeps t [.keyq, .intake, .comp, .line, .set, .spell, .ctr, .image] ∧ s.imageFollows t) ∧
     ∀ paper : Bool, turn .pause →
       let pauses (u : State) : Prop := ∃ t, exec (.pauseKey paper) s = .next t ∧ s.tookKey t (.func .pause) ∧
         t.seq = u.seq ∧ t.drv = u.drv ∧ t.ctr = u.ctr ∧ t.ret = u.ret ∧
         s.keeps t [.keyq, .intake, .comp, .line, .seq, .drv, .ctr, .ret, .image] ∧ s.imageFollows t
       let enters (st : MechState) (r : Reason) : State := State.event { s with
         seq := { s.seq with state := st, reason := r, pauseReq := none }, drv := { s.drv with rotTest := none } }
         (.mechState st r)
       (s.seq.state = .idle ∨ s.seq.state = .running ∧ s.seq.flight = none →
         pauses (enters .paused (s.seq.pauseReq.getD .key).reason)) ∧
       (s.seq.state ≠ .idle → s.seq.state ≠ .paused → ¬(s.seq.state = .running ∧ s.seq.flight = none) →
         pauses { s with seq := { s.seq with pauseReq := some (s.seq.pauseReq.getD .key) } }) ∧
       (s.seq.state = .paused → s.seq.reason = .paper → paper = false →
         ∃ t, exec (.pauseKey paper) s = .next t ∧ s.refusedKey t (.func .pause)) ∧
       (s.seq.state = .paused → (s.seq.reason = .paper → paper = true) → s.seq.pauseReq = none →
         (s.seq.queue = [] → pauses (enters .idle .none)) ∧
         (s.seq.queue ≠ [] →
           let u := (s.changedTo .running .none).runQueue
           ∃ t, exec (.pauseKey paper) s = .next t ∧ s.tookKey t (.func .pause) ∧
             t.comp = { u.comp with override := false } ∧ t.line = { u.line with run := none } ∧
             u.keeps t [.keyq, .intake, .comp, .line, .image] ∧ u.imageFollows t)))

/-- ACCEPT_WORD and ADD_WORD (R127, R128) and LOOKUP_COMPLETE (R119, R120). A target word that is MISS becomes
ACCEPTED, any other is refused. A target of 2 to 24 letters without a digit joins the user words unless it is listed
or the list holds 64. A lookup that completes counts a check and gives its PENDING word of the same generation the
verdict KNOWN or MISS, a MISS being counted, signalled and told; a result for another generation is discarded; the
next word is then looked up. (The lookup is stated while no recheck sweep runs. That its place stands at the start of
the bucket until it completes is the model's choice, log entry 57.) (Which of two words that bear one wrapped number
is meant is the model's choice, log entry 66.) -/
def Obligations.WordKeysAndLookupsGiveVerdicts : Prop :=
  (∀ s : State, s.comp.source = .localKeys →
    (s.turnOf (.func .acceptWord) →
      (∀ w, s.targetWord = some w → w.verdict = .miss →
        ∃ t, exec .acceptWord s = .next t ∧ s.tookKey t (.func .acceptWord) ∧
          t.spell = Spelling.purge { s.spell with
            words := s.spell.words.map (fun v => if v.num = w.num then { v with verdict := .accepted } else v) } ∧
          s.keeps t [.keyq, .intake, .comp, .line, .spell, .image] ∧ s.imageFollows t) ∧
      ((∀ w, s.targetWord = some w → w.verdict ≠ .miss) →
        ∃ t, exec .acceptWord s = .next t ∧ s.refusedKey t (.func .acceptWord))) ∧
    (s.turnOf (.func .addWord) →
      (s.targetWord = none → ∃ t, exec .addWord s = .next t ∧ s.refusedKey t (.func .addWord)) ∧
      ∀ w, s.targetWord = some w →
        let isWord := w.digit = false ∧ 2 ≤ w.length ∧ w.length ≤ 24
        (¬isWord ∨ (w.letters ∉ s.spell.users ∧ 64 ≤ s.spell.users.length) →
          ∃ t, exec .addWord s = .next t ∧ s.refusedKey t (.func .addWord)) ∧
        (isWord → w.letters ∈ s.spell.users → ∃ t, exec .addWord s = .next t ∧ s.tookKey t (.func .addWord) ∧
          s.keeps t [.keyq, .intake, .comp, .line, .image] ∧ s.imageFollows t) ∧
        (isWord → w.letters ∉ s.spell.users → s.spell.users.length < 64 →
          ∃ t, exec .addWord s = .next t ∧ s.tookKey t (.func .addWord) ∧
            t.spell.users = s.spell.users ++ [w.letters] ∧ t.spell.nextWord = s.spell.nextWord ∧
            (∀ k, k ≠ Counter.checksDropped → t.ctr.get k = s.ctr.get k) ∧
            s.keeps t [.keyq, .intake, .comp, .line, .spell, .ctr, .image] ∧ s.imageFollows t))) ∧
  ∀ (s : State) (l : Lookup) (base : Nat), s.quiet → s.spell.engine = some l → s.spell.sweep = none →
    s.activeBase .lexicon = some base → l.place = bucketStart s.tab.mem base l.letters →
    let found := (scanLexicon s.tab.mem base l.letters).1
    let checked := { s with ctr := s.ctr.raise .checks 1 }
    let missed (w : SpellWord) := State.event (State.signal { checked with ctr := checked.ctr.raise .misses 1 } .miss)
      (.spellMiss w.num w.letters)
    let judged (v : Verdict) : Spelling := Spelling.purge { s.spell with
      engine := none
      words := s.spell.words.map (fun u => if u.num = l.word then { u with verdict := v } else u) }
    let goesOn (p : Spelling) (u : State) : Prop := ∃ t, exec .lookupComplete s = .next t ∧
      t.spell = { p with
        engine := (takeLookup p.words s.lookupStart p.checkq).1, checkq := (takeLookup p.words s.lookupStart p.checkq).2 } ∧
      t.ctr = u.ctr ∧ t.ret = u.ret ∧ t.disp.beeper = u.disp.beeper ∧
      s.keeps t [.spell, .ctr, .ret, .beeper, .image] ∧ s.imageFollows t
    (∀ w, s.spell.words.find? (fun u => u.num = l.word) = some w → w.gen = l.gen → w.verdict = .pending →
      (found = true → goesOn (judged .known) checked) ∧ (found = false → goesOn (judged .miss) (missed w))) ∧
    ((∀ w, s.spell.words.find? (fun u => u.num = l.word) = some w → ¬(w.gen = l.gen ∧ w.verdict = .pending)) →
      goesOn { s.spell with engine := none } checked)

/-- CORRECT, WORD_CORRECT, LINE_CORRECT and RELOCATE in DIRECT (R96 to R100, R102 to R105). The target is the newest
entry that is not LIFTING. A QUEUED one, or one without strikes, is cancelled with its orders and the position goes
back to it; an INKED one of the wheel identified is lifted by LIFT orders, newest strike first, where there is room;
one of another wheel, or none, refuses the key with its event; one IN_FLIGHT makes the key wait. A word run and a
line run begin with the same step, which ends them where nothing is left to correct. RELOCATE appends a MOVE to the
end of the typed line. (Cancelling is stated with no line setting pending.) -/
def Obligations.CorrectionKeysTakeBackTheNewestEntry : Prop :=
  ∀ s : State, s.comp.source = .localKeys → s.comp.mode = .direct → s.line.run = none →
    (s.line.entries.map Entry.seqNum).Nodup →
    (∀ (i : Instr) (f : Func) (phase : Option RunPhase),
      (i = .correct ∧ f = .correct ∧ phase = none ∨ i = .wordCorrect ∧ f = .wordCorrect ∧ phase = some .word ∨
        i = .lineCorrect ∧ f = .lineCorrect ∧ phase = some .all) →
    let refuses (r : CorrectReason) : Prop := ∃ t, exec i s = .next t ∧ s.tookKey t (.func f) ∧
      t.comp = { s.comp with override := false } ∧ t.line = s.line ∧
      t.ret = (s.event (.correctRefused r)).ret ∧ t.ctr = (s.event (.correctRefused r)).ctr ∧
      t.disp.beeper = (s.signal .refused).disp.beeper ∧
      s.keeps t [.keyq, .intake, .comp, .line, .ret, .ctr, .beeper, .image] ∧ s.imageFollows t
    (s.turnOf (.func f) →
      ((∀ e ∈ s.line.entries, e.state = .lifting) →
        refuses (if 0 < s.line.dropped then .notInMemory else .nothing)) ∧
      ∀ (older newer : List Entry) (e : Entry), s.line.entries = older ++ e :: newer →
        (∀ n ∈ newer, n.state = .lifting) →
        let others := s.seq.queue.filter (fun o => o.ref ≠ some e.seqNum)
        let lifts := e.strikes.reverse.filterMap (fun k => k.status.printedAs.map (fun q =>
          Order.lift q.1 q.2.1 k.pos (min 15 (q.2.2 + s.set.correctionOffset)) (some e.seqNum)))
        let wrongWheel := ∃ k ∈ e.strikes, ∃ p w l, k.status = .printed p w l ∧ w ≠ s.seq.wheelCode
        let ends := phase = none ∨ (phase = some .word ∧ e.kind ≠ .space ∧
            ∃ d, (older.filter (fun d => d.state ≠ .lifting)).getLast? = some d ∧ d.kind = .space) ∨
          (phase.isSome ∧ ∀ d ∈ older, d.state = .lifting)
        (e.state = .inFlight → exec i s = .next (State.waitsKey { s with line := { s.line with
          run := phase.map (fun p => ⟨if p = .word ∧ e.kind = .space then .spaces else p, false⟩) } } .inFlight)) ∧
        (e.state = .inked → wrongWheel → refuses .wrongWheel) ∧
        (e.state = .queued ∨ e.state = .inked ∧ e.strikes = [] → ends → s.comp.later = .none →
          ∃ t, exec i s = .next t ∧ s.tookKey t (.func f) ∧
            plain t.line.entries = plain (s.line.entries.filter (fun d => d.seqNum ≠ e.seqNum)) ∧
            t.line.dropped = s.line.dropped ∧ t.line.nextSeq = s.line.nextSeq ∧
            t.comp = { s.comp with logical := e.pos, override := false } ∧ t.seq = s.seq.withQueue others ∧
            (∀ k, k ≠ Counter.checksDropped → t.ctr.get k = s.ctr.get k) ∧
            s.keeps t [.keyq, .intake, .comp, .line, .seq, .spell, .ctr, .window, .image] ∧ s.imageFollows t) ∧
        (e.state = .inked → e.strikes ≠ [] → ¬wrongWheel → 64 < others.length + lifts.length → phase = none →
          exec i s = .next (s.waitsKey .room)) ∧
        (e.state = .inked → e.strikes ≠ [] → ¬wrongWheel → others.length + lifts.length ≤ 64 → ends →
          (s.seq.state = .idle → s.seq.queue = []) →
          let u := State.kick { s with
            line := { s.line with entries := s.line.entries.map (fun d => if d.seqNum = e.seqNum then
              { d with
                strikes := d.strikes.filter (fun k => k.status ≠ .waiting)
                outstanding := lifts.length, liftSkipped := false } else d) }
            seq := { s.seq.withQueue others with queue := others ++ lifts } }
          ∃ t, exec i s = .next t ∧ s.tookKey t (.func f) ∧ plain t.line.entries = plain u.line.entries ∧
            t.line.dropped = s.line.dropped ∧ t.line.nextSeq = s.line.nextSeq ∧
            t.comp = { s.comp with logical := e.pos, override := false } ∧ t.seq = u.seq ∧ t.drv = u.drv ∧
            t.ret = u.ret ∧ (∀ k, k ≠ Counter.checksDropped → t.ctr.get k = u.ctr.get k) ∧
            s.keeps t [.keyq, .intake, .comp, .line, .seq, .spell, .drv, .ret, .ctr, .window, .image] ∧
            s.imageFollows t))) ∧
    (s.turnOf (.func .relocate) →
      let x := ((lastWhere (fun e => e.state ≠ .lifting) s.line.entries).map (fun e => e.pos + e.adv)).getD s.comp.left
      (64 ≤ s.seq.queue.length → exec .relocate s = .next (s.waitsKey .room)) ∧
      (s.seq.queue.length < 64 → (s.seq.state = .idle → s.seq.queue = []) →
        let u := State.kick { s with seq := { s.seq with queue := s.seq.queue ++ [.move (min 1559 x)] } }
        ∃ t, exec .relocate s = .next t ∧ s.tookKey t (.func .relocate) ∧ t.seq = u.seq ∧ t.drv = u.drv ∧
          t.ret = u.ret ∧ t.ctr = u.ctr ∧ t.comp = { s.comp with logical := x, override := false } ∧
          s.keeps t [.keyq, .intake, .comp, .line, .seq, .drv, .ret, .ctr, .image] ∧ s.imageFollows t))

/-- Items that wait (R28). A key action that waits is evaluated again in the step in which what it waits on changes,
as its row evaluates it in the state which that step leaves, and otherwise waits on; so is a remote character. After
RESTART MECH carried out every item that waits is evaluated so, whatever it waits on.
Where both wait the key action comes first (R23), and the character follows in the state that this leaves, whether the
key action was evaluated or waits on. A character whose turn it is while another key action is ready waits on nothing
and is evaluated by its row later (the model's choice, log entry 19); one whose source a line boundary has ended waits
on nothing. The step is one by which the mechanism, a lookup or the outgoing line goes on, or a command; the ANSWER
of a command follows the records of the items it releases (the model's choice, log entry 17). -/
def Obligations.WaitingItemsAreEvaluatedAgain : Prop :=
  ∀ (i : Instr) (s u : State), s.resetHeld = false →
    (goesOnByItself i = true ∨ i = .sealComplete ∧ 0 < s.ret.reserved ∨
      (payloadOf i).isSome ∧ i ≠ .restartLink ∧ i ≠ .restartText ∧ i ≠ .restartAll) →
    exec i { s with comp := { s.comp with keyWait := none, textWait := none } } = .next u →
    let becomes (v : State) : Prop := ∃ t, exec i s = .next t ∧ t = { v with ret := t.ret } ∧
      (goesOnByItself i = true → t = v)
    let fires (c : WaitCause) : Prop := i = .restartMech ∧ s.ret.hasFree = true ∨ s.causeChanged u c
    (∀ a c row, s.selected = some a → rowOf false a = some row → s.comp.keyWait = some c → s.comp.textWait = none →
      (fires c → ∀ v, exec row u = .next v → becomes v) ∧
      (¬fires c → exec i s = .next { u with comp := { u.comp with keyWait := some c } })) ∧
    (∀ c code rest, s.comp.keyWait = none → s.txt.queue = code :: rest →
      s.comp.source = .remoteText → s.comp.textWait = some c →
      (u.comp.source = .localKeys → exec i s = .next u) ∧
      (u.comp.source = .remoteText →
        (fires c → u.keyReady = true → exec i s = .next u) ∧
        (fires c → u.keyReady = false → ∀ v, exec (textRowOf code) u = .next v → becomes v) ∧
        (¬fires c → exec i s = .next { u with comp := { u.comp with textWait := some c } }))) ∧
    ∀ a c row d code rest, s.selected = some a → rowOf false a = some row → s.comp.keyWait = some c →
      s.txt.queue = code :: rest → s.comp.source = .remoteText → s.comp.textWait = some d →
      ∀ w, (fires c ∧ exec row u = .next w ∨
          ¬fires c ∧ w = { u with comp := { u.comp with keyWait := some c } }) →
        let changed := fires d ∨ s.causeChanged w d
        (u.comp.source = .localKeys ∨ w.comp.source = .localKeys → becomes w) ∧
        (u.comp.source = .remoteText → w.comp.source = .remoteText →
          (changed → w.keyReady = true → becomes w) ∧
          (changed → w.keyReady = false → ∀ v, exec (textRowOf code) w = .next v → becomes v) ∧
          (¬changed → becomes { w with comp := { w.comp with textWait := some d } }))

/-- REMOTE_PRINTABLE_CHAR (R29, R30, R32). In PS without a wheel map the character waits. Within the right margin it is
placed with BOLD and UNDERLINE off, as a key's is; an ABSENT code moves the position on, is counted and is told once a
line. Past the margin with AUTO_RETURN OFF it is refused: discarded, signalled, counted and told once a line; with
AUTO_RETURN ON it waits for two places, then the line ends as RETURN ends it, a space is discarded, and another character
is taken from the new line. In REMOTE source every key action but PAUSE, the paper keys and SOURCE_TOGGLE is refused
(R23). (The order of the records queued in one step, the hot-zone check of an ABSENT code, and that such a code and a
discarded space ask for no REFUSED signal are the model's choices, log entries 18, 35 and 49.) -/
def Obligations.RemoteCharactersArePlaced : Prop :=
  (∀ (s : State) (code : Byte) (rest : List Byte), s.textTurn code rest → 32 ≤ code.toNat →
    let kind : EntryKind := if code = 0x20 then .space else .char
    let p := s.comp.logical
    let adv := s.advance code false
    let orders := (s.directStrikes code false false false).filter (fun k => k.pos ≤ 1559)
    let past := ((s.directStrikes code false false false).filter (fun k => 1559 < k.pos)).length
    let isAbsent := code ≠ 0x20 ∧ s.wheelEntry code = some .absent
    let near := s.comp.right ≤ p + 60 ∧ s.comp.flags.hotZone = false
    let full := 200 ≤ s.line.entries.length
    let kept : LineRecord := if full then
      { s.line with entries := s.line.entries.tail, dropped := min 65535 (s.line.dropped + 1) } else s.line
    let queue := if full then s.seq.queue.map (fun o =>
      if o.ref = s.line.entries.head?.map Entry.seqNum then o.dropRef else o) else s.seq.queue
    (s.noWidth → exec .remotePrintableChar s = .next (s.waitsText .wheelMap)) ∧
    (¬s.noWidth → s.comp.right < p + adv → s.set.autoReturn = false →
      let v := State.raise s .textOverruns
      let w := if s.comp.flags.pastMargin then v else v.event .textPastMargin
      ∃ t, exec .remotePrintableChar s = .next t ∧ s.tookText t rest ∧ t.ret = w.ret ∧ t.ctr = w.ctr ∧
        t.comp = { s.comp with flags := { s.comp.flags with pastMargin := true } } ∧
        t.disp.beeper = (s.signal .refused).disp.beeper ∧
        s.keeps t [.txt, .comp, .ret, .ctr, .beeper, .image] ∧ s.imageFollows t) ∧
    (¬s.noWidth → s.comp.right < p + adv → s.set.autoReturn = true → 62 < s.seq.queue.length →
      exec .remotePrintableChar s = .next (s.waitsText .room)) ∧
    (¬s.noWidth → s.comp.right < p + adv → s.set.autoReturn = true → s.seq.queue.length ≤ 62 →
      let u := s.lineEnd .full
      (code = 0x20 → exec .remotePrintableChar s = .next (State.formImage { u with
        txt := { s.txt with queue := rest, unsent := s.txt.unsent + 1 } })) ∧
      (code ≠ 0x20 → u.comp.source = .remoteText → u.comp.logical + u.advance code false ≤ u.comp.right →
        exec .remotePrintableChar s = exec .remotePrintableChar u)) ∧
    (¬s.noWidth → p + adv ≤ s.comp.right → isAbsent →
      let a := State.raise s .unprintable
      let b := if s.comp.flags.unprintableReported then a else a.event (.unprintable code)
      let v := if near then State.event (b.signal .bell) (.hotZone p) else b
      ∃ t, exec .remotePrintableChar s = .next t ∧ s.tookText t rest ∧ t.ret = v.ret ∧ t.ctr = v.ctr ∧
        t.disp.beeper = v.disp.beeper ∧
        t.comp = { s.comp with
          logical := p + adv
          flags := { s.comp.flags with
            unprintableReported := true, hotZone := if near then true else s.comp.flags.hotZone } } ∧
        s.keeps t [.txt, .comp, .ret, .ctr, .beeper, .image] ∧ s.imageFollows t) ∧
    (¬s.noWidth → p + adv ≤ s.comp.right → ¬isAbsent → 64 < s.seq.queue.length + orders.length →
      exec .remotePrintableChar s = .next (s.waitsText .room)) ∧
    (¬s.noWidth → p + adv ≤ s.comp.right → ¬isAbsent → s.seq.queue.length + orders.length ≤ 64 →
      (full → (s.line.entries.map Entry.seqNum).Nodup) → (s.seq.state = .idle → s.seq.queue = []) →
      let entry : Entry := ⟨s.line.nextSeq, code, kind, p, adv, strikeRecords s.seq.nextStrike orders, 0, false, none⟩
      let u := State.kick { s with
        line := { kept with entries := kept.entries ++ [entry], nextSeq := s.line.nextSeq + 1 }
        seq := { s.seq with
          queue := queue ++ strikeOrders (some s.line.nextSeq) s.seq.nextStrike orders
          nextStrike := s.seq.nextStrike + BitVec.ofNat 16 orders.length }
        ctr := if past = 0 then s.ctr else s.ctr.raise .pastTravel past }
      let bell := code ≠ 0x20 ∧ near
      let v := if bell then State.event (u.signal .bell) (.hotZone p) else u
      ∃ t, exec .remotePrintableChar s = .next t ∧ s.tookText t rest ∧ t.seq = v.seq ∧ t.ret = v.ret ∧ t.drv = v.drv ∧
        t.disp.beeper = v.disp.beeper ∧ (∀ k, k ≠ Counter.checksDropped → t.ctr.get k = v.ctr.get k) ∧
        plain t.line.entries = plain v.line.entries ∧ t.line.nextSeq = v.line.nextSeq ∧ t.line.dropped = kept.dropped ∧
        t.comp = { s.comp with
          logical := p + adv, flags := if bell then { s.comp.flags with hotZone := true } else s.comp.flags } ∧
        s.keeps t [.txt, .comp, .line, .seq, .ret, .ctr, .drv, .spell, .window, .beeper, .image] ∧ s.imageFollows t)) ∧
  ∀ (s : State) (i : Instr) (a : KeyAction) (paper : Bool), rowOf paper a = some i → s.turnOf a →
    s.comp.source = .remoteText → a ∉ [KeyAction.func .pause, .func .paperUp, .func .paperDown, .func .halfUp,
      .func .halfDown, .func .sourceToggle] → ∃ t, exec i s = .next t ∧ s.refusedKey t a

/-- RETURN in LINE (R41), OUTGOING_PLACEMENT_APPENDED and OUTGOING_LINE_END (R42). A release waits for the outgoing
line; with HOLD_ON_MISS ON it waits while a word of the composition is PENDING, and is refused while one is MISS, told
by RELEASE_HELD, with the cursor after the first such word and the override set, which releases at the next RETURN
(R129). It lays the composition out into a new outgoing line with the margin and line spacing of the moment, counts a
line and leaves a fresh composition; the line record stands. The placements then enter the print queue in turn, each
when its orders fit, and after the last the MOVE and the INDEX together; the line ends, and the line boundary is
reached if the composition is empty. What does not fit changes nothing. (HOLD_ON_MISS is stated with the words
complete and no check left to do.) (That SPACE records at the end may take the cursor's place past 1560 is the model's
choice, log entry 74.) -/
def Obligations.ReleasesBecomeTheOutgoingLine : Prop :=
  (∀ s : State, s.turnOf (.func .returnKey) → s.comp.source = .localKeys → s.comp.mode = .line →
    (s.comp.outgoing.isSome → exec .returnKey s = .next (s.waitsKey .outgoing)) ∧
    let judged := s.spell.words.filter (fun w => w.detached = false ∧ w.last < s.comp.recs.length)
    let settled := (∀ w ∈ judged, w.complete = true) ∧ s.spell.sweep = none ∧
      (s.spell.engine.isSome ∨ s.spell.checkq = [])
    let misses := judged.filter (fun w => w.verdict = .miss)
    (s.comp.outgoing = none → s.set.holdOnMiss = true → s.comp.override = false → settled →
      ((∃ w ∈ judged, w.verdict = .pending) → exec .returnKey s = .next (s.waitsKey .verdict)) ∧
      ((∀ w ∈ judged, w.verdict ≠ .pending) → ∀ w ∈ misses, (∀ v ∈ misses, v ≠ w → w.first < v.first) →
        let u := { s with comp := { s.comp with cursor := w.last + 1 } }
        let e := s.event (.releaseHeld w.num misses.length)
        ∃ t, exec .returnKey s = .next t ∧ t.keyq = s.dropSelected.keyq ∧ t.intake = s.dropSelected.intake ∧
          t.comp = { s.comp with cursor := w.last + 1, logical := u.cursorPosition, override := true } ∧
          t.line = { s.line with run := none } ∧ t.ret = e.ret ∧ t.ctr = e.ctr ∧
          t.disp.beeper = (s.signal .refused).disp.beeper ∧
          s.keeps t [.keyq, .intake, .comp, .line, .ret, .ctr, .window, .beeper, .image] ∧ s.imageFollows t)) ∧
    (s.comp.outgoing = none → (s.set.holdOnMiss = false ∨ s.comp.override = true ∨
        settled ∧ ∀ w ∈ judged, w.verdict ≠ .pending ∧ w.verdict ≠ .miss) →
      let laid := s.applyChoice s.comp.choice s.comp.recs ((s.natural s.comp.recs).getD [])
      ∃ t, exec .returnKey s = .next t ∧ t.keyq = s.dropSelected.keyq ∧ t.intake = s.dropSelected.intake ∧
        t.comp = { s.comp with
          outgoing := some ⟨s.placementsFrom s.comp.recs 0 laid.placed, s.comp.left, s.set.lineSpacing⟩
          recs := [], cursor := 0, choice := s.set.justify, flags := .clear, override := false
          logical := s.comp.left } ∧
        (laid.abandoned = none → t.ret = s.ret ∧
          ∀ k, k ≠ Counter.checksDropped → t.ctr.get k = (s.ctr.raise .lines 1).get k) ∧
        (∀ n x, laid.abandoned = some (n, x) → t.ret = (s.event (.justifyAbandoned n x)).ret) ∧
        t.line = { s.line with run := none } ∧ t.spell.users = s.spell.users ∧
        s.keeps t [.keyq, .intake, .comp, .line, .ret, .ctr, .spell, .window, .image] ∧ s.imageFollows t)) ∧
  ∀ (s : State) (left spacing : Nat), s.quiet → (s.seq.state = .idle → s.seq.queue = []) →
    (∀ (m : Placement) (rest : List Placement), s.comp.outgoing = some ⟨m :: rest, left, spacing⟩ →
      let orders := m.strikes.filter (fun k => k.pos ≤ 1559)
      let past := (m.strikes.filter (fun k => 1559 < k.pos)).length
      (64 < s.seq.queue.length + orders.length → exec .outgoingPlacementAppended s = .next s.formImage) ∧
      (s.seq.queue.length + orders.length ≤ 64 →
        let u := State.kick { s with
          seq := { s.seq with
            queue := s.seq.queue ++ strikeOrders none s.seq.nextStrike orders
            nextStrike := s.seq.nextStrike + BitVec.ofNat 16 orders.length }
          ctr := if past = 0 then s.ctr else s.ctr.raise .pastTravel past }
        ∃ t, exec .outgoingPlacementAppended s = .next t ∧ t.seq = u.seq ∧ t.ret = u.ret ∧ t.drv = u.drv ∧ t.ctr = u.ctr ∧
          t.comp = { s.comp with outgoing := some ⟨rest, left, spacing⟩ } ∧
          s.keeps t [.comp, .seq, .ret, .drv, .ctr, .image] ∧ s.imageFollows t)) ∧
    (s.comp.outgoing = some ⟨[], left, spacing⟩ →
      (62 < s.seq.queue.length → exec .outgoingLineEnd s = .next s.formImage) ∧
      (s.seq.queue.length ≤ 62 → s.comp.source = .localKeys → s.comp.mode = .line →
        let u := State.kick { s with seq := { s.seq with queue := s.seq.queue ++ [.move left, .index spacing] } }
        let c := { s.comp with outgoing := none }
        ∃ t, exec .outgoingLineEnd s = .next t ∧ t.seq = u.seq ∧ t.ret = u.ret ∧ t.drv = u.drv ∧
          (∀ k, k ≠ Counter.checksDropped → t.ctr.get k = u.ctr.get k) ∧
          (s.comp.recs = [] → t.comp = c.applyPending s.set.justify ∧ t.disp.window = 0) ∧
          (s.comp.recs ≠ [] → t.comp = c ∧ t.disp.window = s.disp.window) ∧
          plain t.line.entries = plain s.line.entries ∧
          s.keeps t [.comp, .line, .seq, .ret, .drv, .ctr, .spell, .window, .image] ∧ s.imageFollows t))

/-! ### The mechanism -/

/-- POSITION_COMPLETE and HEAT_DECAY_TICK (R74 to R76). At the end of the POSITION phase of a STRIKE or LIFT the petal,
the carriage and the lift stand as the order needs them, and the OVERCURRENT record of each channel that moved is no
longer present (R146). The pulse begins when H plus the level is at most 255, and H rises by the level; otherwise
the order waits and HEAT_WAITS counts it once. The decay timer lowers H by 1 and makes a waiting order's check
again. (That the OVERCURRENT records of the three motions are cleared together, at POSITION_COMPLETE, is the model's
choice, log entry 26.) -/
def Obligations.StrikesPassTheHeatCheck : Prop :=
  (∀ (s : State) (o : Order) (rest : List Order) (petal level us : Nat), s.quiet → s.seq.queue = o :: rest →
    s.seq.flight = some (.position petal level us) → (s.seq.liftTarget = none ∨ s.seq.liftTarget = some o.liftPos) →
    let d1 := if s.seq.petal = some petal then s.drv.faults else cleared s.drv.faults .overcurrent .wheel
    let d2 := if s.seq.carriage = some o.pos then d1 else cleared d1 .overcurrent .carriage
    let d3 := if s.seq.liftTarget = none then d2 else cleared d2 .overcurrent .lift
    let q := { s.seq with petal := some petal, carriage := some o.pos, lift := some o.liftPos, liftTarget := none }
    (s.seq.heat + level ≤ 255 → exec .positionComplete s = .next (State.formImage { s with
      seq := { q with flight := some (.pulse petal level (200 + 25 * level)), heat := s.seq.heat + level }
      drv := { s.drv with faults := d3 } })) ∧
    (255 < s.seq.heat + level → exec .positionComplete s = .next (State.formImage { s with
      seq := { q with flight := some (.heatWait petal level), heatCounted := true }
      drv := { s.drv with faults := d3 }
      ctr := if s.seq.heatCounted then s.ctr else s.ctr.raise .heatWaits 1 }))) ∧
  ∀ s : State, s.resetHeld = false →
    ((∀ petal level, s.seq.flight ≠ some (.heatWait petal level)) →
      exec .heatDecayTick s = .next { s with seq := { s.seq with heat := s.seq.heat - 1 } }) ∧
    ∀ petal level, s.seq.flight = some (.heatWait petal level) →
      (s.seq.heat - 1 + level ≤ 255 → exec .heatDecayTick s = .next { s with seq := { s.seq with
        flight := some (.pulse petal level (200 + 25 * level)), heat := s.seq.heat - 1 + level } }) ∧
      (255 < s.seq.heat - 1 + level → exec .heatDecayTick s = .next { s with
        seq := { s.seq with heat := s.seq.heat - 1, heatCounted := true }
        ctr := if s.seq.heatCounted then s.ctr else s.ctr.raise .heatWaits 1 })

/-- HAMMER_PULSE_COMPLETE, RECOVER_COMPLETE, MOVE_COMPLETE and INDEX_COMPLETE (R75, R77, R80 to R82, R94, R101, R146).
A pulse that completes is counted and RECOVER of 3 ms begins. Each order that completes leaves the queue and the next
one starts: a STRIKE's record becomes PRINTED with the petal, the wheel and the level; a LIFT takes one from its
entry's outstanding orders and the last removes the entry, or leaves it INKED where one was skipped; a MOVE leaves the
carriage at its position; an INDEX moves v modulo the page, PAGE to 0, and without paper the mechanism pauses for
PAPER. (That `liftSkipped` is no once the entry is INKED again is the model's choice, log entry 60.) (Which of two
entries that bear one wrapped number is meant is the model's choice, log entry 66.) -/
def Obligations.OrdersCompleteAndLeaveTheQueue : Prop :=
  ∀ (s : State) (o : Order) (rest : List Order), s.quiet → s.seq.queue = o :: rest →
    (∀ petal level us, s.seq.flight = some (.pulse petal level us) → s.seq.coverStop = false →
      exec .hammerPulseComplete s = .next (State.formImage { s with
        seq := { s.seq with flight := some (.recover petal level 3000) }
        drv := { s.drv with faults := cleared s.drv.faults .overcurrent .hammer }
        ctr := s.ctr.raise (if o.liftPos = .tape then .lifts else .strikes) 1 })) ∧
    (∀ petal level us, s.seq.flight = some (.recover petal level us) →
      (∀ code p role ref num, o = .strike code p role ref num →
        exec .recoverComplete s = .next (State.formImage (State.runQueue { s with
          seq := s.seq.popped
          line := { s.line with
            entries := strikeSet s.line.entries ref num (fun _ => .printed petal s.seq.wheelCode level) } }))) ∧
      (∀ pt w p l, o = .lift pt w p l none →
        exec .recoverComplete s = .next (State.formImage (State.runQueue { s with seq := s.seq.popped }))) ∧
      (∀ pt w p l n e, o = .lift pt w p l (some n) → s.line.entries.find? (fun d => d.seqNum = n) = some e →
        let change (f : Entry) : List Entry := s.line.entries.map (fun d => if d.seqNum = n then f else d)
        (1 < e.outstanding → exec .recoverComplete s = .next (State.formImage (State.runQueue { s with
          seq := s.seq.popped
          line := { s.line with entries := change { e with outstanding := e.outstanding - 1 } } }))) ∧
        (e.outstanding = 1 → e.liftSkipped →
          exec .recoverComplete s = .next (State.formImage (State.runQueue (State.textChanged s.atBoundary { s with
            seq := s.seq.popped
            line := { s.line with entries := change { e with outstanding := 0, liftSkipped := false } } })))) ∧
        (e.outstanding = 1 → e.liftSkipped = false →
          exec .recoverComplete s = .next (State.formImage (State.runQueue (State.textChanged s.atBoundary { s with
            seq := { s.seq.popped with queue := rest.map (fun r => if r.ref = some n then r.dropRef else r) }
            line := { s.line with entries := s.line.entries.filter (fun d => d.seqNum ≠ n) } })))))) ∧
    (∀ us p, s.seq.flight = some (.moving us) → o = .move p →
      exec .moveComplete s = .next (State.formImage (State.runQueue { s with
        seq := { s.seq.popped with carriage := some p }
        drv := { s.drv with faults := cleared s.drv.faults .overcurrent .carriage } }))) ∧
    ∀ k us v, s.seq.flight = some (.indexing k us) →
      ((∃ c, o = .index c ∧ v = ((s.seq.paperPos + c) % (2 * s.set.pageLength : Nat)).toNat) ∨
        o = .indexPage ∧ v = 0) →
      let u := { s with
        seq := { s.seq.popped with paperPos := v }
        drv := { s.drv with faults := cleared s.drv.faults .overcurrent .paper } }
      exec (.indexComplete true) s = .next (State.formImage u.runQueue) ∧
      (s.seq.state = .running → exec (.indexComplete false) s = .next (State.formImage
        (State.changedTo { u with seq := { u.seq with pauseReq := none } } .paused .paper)))

/-- The head order starts as soon as no order is in flight (R72, R73, R74, R78, R80, R81, R83). A pause request takes
the mechanism to PAUSED, an empty queue to IDLE. A STRIKE waits in WHEEL_WAIT under a failing wheel condition; with a
petal its POSITION phase starts for the longest of its three motions; without one it is skipped and counted. A LIFT of
the wheel identified starts, of another is skipped with its event and taken from its entry's outstanding orders
(R101). A MOVE to another place and an INDEX start their motions, a MOVE to where the carriage stands completes at
once. (Six whole milliseconds for a lift motion under way, and the place 0 of a carriage or petal not known and the
motion of a lift not known, are the model's choices, log entries 10 and 25, and so is `liftSkipped` no for an entry
that is INKED again, log entry 60.) (Which of two entries that bear one wrapped number is meant is the model's choice,
log entry 66.) -/
def Obligations.TheHeadOrderStarts : Prop :=
  ∀ s : State, s.seq.state = .running → s.seq.flight = none →
    (∀ r, s.seq.pauseReq = some r → s.runQueue =
      State.changedTo { s with seq := { s.seq with pauseReq := none } } .paused (if r = .key then .key else .command)) ∧
    (s.seq.pauseReq = none →
      (s.seq.queue = [] → s.runQueue = s.changedTo .idle .none) ∧
      ∀ o rest, s.seq.queue = o :: rest →
        let mismatch := s.set.expectedWheel ≠ 0 ∧ s.set.expectedWheel ≠ s.seq.wheelCode
        let starts (petal level : Nat) : Sequencer := { s.seq with
          flight := some (.position petal level (max (wheelMicros (wheelSteps (s.seq.petal.getD 0) petal))
            (max (carriageMicros (Machine.dist (s.seq.carriage.getD 0) o.pos))
              (if s.seq.liftTarget = none ∧ s.seq.lift = some o.liftPos then 0 else 6000))))
          liftTarget := if s.seq.liftTarget.isSome then s.seq.liftTarget
            else if s.seq.lift = some o.liftPos then none else some o.liftPos }
        (∀ code p role ref num, o = .strike code p role ref num →
          (mismatch → s.runQueue = State.event (s.changedTo .wheelWait .mismatch)
            (.wheelMismatch s.set.expectedWheel s.seq.wheelCode)) ∧
          (¬mismatch → s.active .wheelMap = none →
            s.runQueue = State.event (s.changedTo .wheelWait .noMap) (.wheelNoMap s.seq.wheelCode)) ∧
          (¬mismatch → s.active .wheelMap ≠ none →
            (∀ petal cls adv under, s.wheelEntry code = some (.petal petal cls adv under) →
              s.runQueue = { s with
                seq := starts petal (hammerLevel cls s.set.impression s.set.ribbon)
                line := { s.line with
                  entries := strikeSet s.line.entries ref num (fun k => if k = .waiting then .inFlight else k) } }) ∧
            ((∀ petal cls adv under, s.wheelEntry code ≠ some (.petal petal cls adv under)) →
              s.runQueue = State.runQueue { s with
                seq := s.seq.popped
                ctr := s.ctr.raise .unprintable 1
                line := { s.line with entries := strikeSet s.line.entries ref num (fun _ => .skipped) } }))) ∧
        (∀ petal wheel p level ref, o = .lift petal wheel p level ref →
          (wheel = s.seq.wheelCode → s.runQueue = { s with seq := starts petal level }) ∧
          (wheel ≠ s.seq.wheelCode →
            let e := State.event { s with seq := s.seq.popped } (.correctRefused .wrongWheel)
            (ref = none → s.runQueue = e.runQueue) ∧
            ∀ n d, ref = some n → s.line.entries.find? (fun f => f.seqNum = n) = some d →
              let becomes (f : Entry) : State := { e with line := { s.line with
                entries := s.line.entries.map (fun g => if g.seqNum = n then f else g) } }
              (1 < d.outstanding → s.runQueue =
                (becomes { d with outstanding := d.outstanding - 1, liftSkipped := true }).runQueue) ∧
              (d.outstanding = 1 → s.runQueue =
                (State.textChanged s.atBoundary (becomes { d with outstanding := 0, liftSkipped := false })).runQueue))) ∧
        (∀ p, o = .move p →
          (s.seq.carriage = some p → s.runQueue = State.runQueue { s with seq := s.seq.popped }) ∧
          (s.seq.carriage ≠ some p → s.runQueue = { s with seq := { s.seq with
            flight := some (.moving (carriageMicros (Machine.dist (s.seq.carriage.getD 0) p))) } })) ∧
        (∀ c, o = .index c → s.runQueue = { s with seq := { s.seq with
          flight := some (.indexing c.natAbs (5000 + 4000 * c.natAbs)) } }) ∧
        (o = .indexPage →
          let k := 2 * s.set.pageLength - s.seq.paperPos % (2 * s.set.pageLength)
          s.runQueue = { s with seq := { s.seq with flight := some (.indexing k (5000 + 4000 * k)) } }))

/-- LIFT_MOTION_COMPLETE and LIFT_REST_TIMER_EXPIRY (R74, R79, R145, R146). A lift motion that completes leaves the lift
where it went, goes on to where the order in POSITION needs it, and lets a deferred rotation test start. The rest
timer sends the lift to REST, abandoning a test, unless a STRIKE or LIFT is in flight, the lift is at REST or moving,
or the mechanism is HALTED. -/
def Obligations.TheLiftMovesAndRests : Prop :=
  (∀ (s : State) (d : LiftPos), s.quiet → s.seq.liftTarget = some d →
    let v (next : Option LiftPos) : State := { s with
      seq := { s.seq with lift := some d, liftTarget := next }
      drv := { s.drv with
        faults := cleared s.drv.faults .overcurrent .lift
        rotTest := if s.drv.rotTest = some .deferred then some .running else s.drv.rotTest } }
    (∀ petal level us o rest, s.seq.flight = some (.position petal level us) → s.seq.queue = o :: rest →
      exec .liftMotionComplete s = .next (State.formImage (v (if o.liftPos = d then none else some o.liftPos)))) ∧
    ((∀ petal level us, s.seq.flight ≠ some (.position petal level us)) →
      exec .liftMotionComplete s = .next (State.formImage (v none)))) ∧
  ∀ s : State, s.resetHeld = false →
    let striking := ∃ petal level, s.seq.flight = some (.heatWait petal level) ∨
      ∃ us, s.seq.flight = some (.position petal level us) ∨ s.seq.flight = some (.pulse petal level us) ∨
        s.seq.flight = some (.recover petal level us)
    let stays := striking ∨ s.seq.lift = some .rest ∨ s.seq.liftTarget ≠ none ∨ s.seq.state = .halted
    (stays → exec .liftRestTimerExpiry s = .next s) ∧
    (¬stays → exec .liftRestTimerExpiry s = .next { s with
      seq := { s.seq with liftTarget := some .rest }, drv := { s.drv with rotTest := none } })

/-- COVER_OPEN and COVER_CLOSE (R85, R86, R69). Opening stops what has not begun a pulse: the mechanism enters
COVER_OPEN, an order in POSITION, in HEAT_WAIT, a MOVE or an INDEX stays at the head and leaves flight, and a pause in
force becomes a request; an INDEX keeps the half-lines not yet moved and a PAGE stays one, and either is removed when
its whole count has moved. A pulse begun runs on, and at its end the order, STRIKE or LIFT, completes and COVER_OPEN
is entered; in RECOVER that happens at once. A homing is abandoned. HALTED stays. Closing starts homing from
COVER_OPEN and is remembered elsewhere. (That a closing before the pulse's end is merely remembered, that the lift's
own motion stops with the others, HEAT_WAITS counted once for an order that was stopped, and the count of a PAGE
stopped after the page length changed are the model's choices, log entries 15, 28, 32 and 51, and so is that an INDEX
whose whole count has moved is complete without the paper sensor read, log entry 31, and `liftSkipped` no for an entry
that is INKED again, log entry 60.) (Which of two entries that bear one wrapped number is meant is the model's choice,
log entry 66.) (That an INDEX stopped after its whole count is no successful drive of PAPER is the model's choice, log
entry 70.) -/
def Obligations.TheCoverStopsAndHomes : Prop :=
  ∀ s : State, s.quiet →
    let opened := { s with coverOpen := true }
    let lift := if s.seq.liftTarget = none then s.seq.lift else none
    let enters (u : State) : State :=
      State.changedTo { u with seq := { u.seq with lift := lift, liftTarget := none } } .coverOpen .none
    let completes (c : Instr) (phase : Nat → Nat → Nat → Flight) (stop : Bool) (u : Order → State) : Prop :=
      ∀ petal level us o rest, s.seq.queue = o :: rest → s.seq.flight = some (phase petal level us) →
        let out := { u o with seq := { s.seq.popped with coverStop := stop } }
        (∀ code p role ref num, o = .strike code p role ref num →
          exec c s = .next (State.formImage (enters { out with line := { s.line with
            entries := strikeSet s.line.entries ref num (fun _ => .printed petal s.seq.wheelCode level) } }))) ∧
        (∀ pt w p l, o = .lift pt w p l none → exec c s = .next (State.formImage (enters out))) ∧
        (∀ pt w p l n e, o = .lift pt w p l (some n) → s.line.entries.find? (fun d => d.seqNum = n) = some e →
          let change (f : Entry) : List Entry := s.line.entries.map (fun d => if d.seqNum = n then f else d)
          (1 < e.outstanding → exec c s = .next (State.formImage (enters { out with
            line := { s.line with entries := change { e with outstanding := e.outstanding - 1 } } }))) ∧
          (e.outstanding = 1 → e.liftSkipped →
            exec c s = .next (State.formImage (enters (State.textChanged s.atBoundary { out with
              line := { s.line with entries := change { e with outstanding := 0, liftSkipped := false } } })))) ∧
          (e.outstanding = 1 → e.liftSkipped = false →
            exec c s = .next (State.formImage (enters (State.textChanged s.atBoundary { out with
              seq := { out.seq with queue := rest.map (fun r => if r.ref = some n then r.dropRef else r) }
              line := { s.line with entries := s.line.entries.filter (fun d => d.seqNum ≠ n) } })))))
    let stopped (q : Sequencer) (t : State) : Prop :=
      exec .coverOpen s = .next t ∧ t.seq = { q with state := .coverOpen, reason := .none } ∧
        t.ret = (s.event (.mechState .coverOpen .none)).ret ∧ t.ctr = (s.event (.mechState .coverOpen .none)).ctr ∧
        t.drv = { s.drv with rotTest := none } ∧ t.coverOpen = true ∧
        s.keeps t [.coverOpen, .free, .seq, .drv, .line, .ret, .ctr, .image] ∧ s.imageFollows t
    (s.coverOpen = true → exec .coverOpen s = .next s.formImage) ∧
    (s.coverOpen = false →
      (s.seq.state = .halted ∨ s.seq.state = .coverOpen → exec .coverOpen s = .next (State.formImage opened)) ∧
      (s.seq.state ∈ [.idle, .paused, .wheelWait, .unhomed] ∨ s.seq.state = .running ∧ s.seq.flight = none →
        exec .coverOpen s = .next (State.formImage (enters
          { opened with seq := { s.seq with pauseReq := s.seq.pauseKept } }))) ∧
      (s.seq.state = .homing → ∀ h, s.seq.homing = some h → ∃ t c p,
        stopped { s.seq with homing := none, carriage := c, petal := p, lift := lift, liftTarget := none } t ∧
          t.line = s.line ∧ (h ≠ .home → (∀ x, h ≠ .ret x) → c = s.seq.carriage) ∧
          (h ≠ .index → (∀ l, h ≠ .ident l) → p = s.seq.petal)) ∧
      (s.seq.state = .running → ∀ o rest, s.seq.queue = o :: rest →
        let q := { s.seq with flight := none, coverStop := false, lift := lift, liftTarget := none }
        let back (t : State) : Prop :=
          (∀ code p role ref num, o = .strike code p role ref num → t.line = { s.line with
            entries := strikeSet s.line.entries ref num (fun k => if k = .inFlight then .waiting else k) }) ∧
          ((∀ code p role ref num, o ≠ .strike code p role ref num) → t.line = s.line)
        (∀ petal level us, s.seq.flight = some (.position petal level us) → ∃ t c p,
          stopped { q with carriage := c, petal := p } t ∧ back t ∧
            (∀ a, s.seq.carriage = some a → ∃ b, c = some b ∧ min a o.pos ≤ b ∧ b ≤ max a o.pos)) ∧
        (∀ petal level, s.seq.flight = some (.heatWait petal level) → ∃ t, stopped q t ∧ back t) ∧
        (∀ us p, s.seq.flight = some (.moving us) → o = .move p → ∃ t c, stopped { q with carriage := c } t ∧
          t.line = s.line ∧ (∀ a, s.seq.carriage = some a → ∃ b, c = some b ∧ min a p ≤ b ∧ b ≤ max a p)) ∧
        (∀ k us c, s.seq.flight = some (.indexing k us) → o = .index c → k = c.natAbs → c ≠ 0 →
          ∃ (t : State) (m : Nat), 0 < m ∧ m ≤ k ∧ t.line = s.line ∧
            let d : Int := if 0 < c then m else -(m : Int)
            stopped { q with
              paperPos := ((s.seq.paperPos + d) % (2 * s.set.pageLength : Nat)).toNat
              queue := if m = k then rest else .index (c - d) :: rest
              heatCounted := if m = k then false else s.seq.heatCounted } t) ∧
        (∀ k us, s.seq.flight = some (.indexing k us) → o = .indexPage → 0 < k →
          ∃ (t : State) (m : Nat), 0 < m ∧ m ≤ k ∧ t.line = s.line ∧
            stopped { q with
              paperPos := (s.seq.paperPos + m) % (2 * s.set.pageLength)
              queue := if m = k then rest else .indexPage :: rest
              heatCounted := if m = k then false else s.seq.heatCounted } t) ∧
        (∀ petal level us, s.seq.flight = some (.pulse petal level us) → exec .coverOpen s = .next (State.formImage
          { opened with seq := { s.seq with coverStop := true } }))) ∧
      (s.seq.state = .running → completes .coverOpen .recover s.seq.coverStop (fun _ => opened))) ∧
    (s.coverOpen = true → s.seq.state = .running → s.seq.coverStop = true →
      completes .hammerPulseComplete .pulse false (fun o => { s with
        drv := { s.drv with faults := cleared s.drv.faults .overcurrent .hammer }
        ctr := s.ctr.raise (if o.liftPos = .tape then .lifts else .strikes) 1 })) ∧
    (s.seq.state ≠ .coverOpen → exec .coverClose s = .next (State.formImage { s with coverOpen := false })) ∧
    (s.seq.state = .coverOpen → s.seq.homing = none → exec .coverClose s = .next (State.formImage (State.changedTo { s with
      coverOpen := false
      seq := { s.seq with
        homing := some .home
        liftTarget := if s.seq.liftTarget.isSome then s.seq.liftTarget
          else if s.seq.lift = some .rest then none else some .rest } } .homing .none)))

/-- The steps of homing (R6, R7, R70, R71, R147). HOME_SENSOR_SEEN puts the carriage at 0 and clears HOME_NOT_FOUND,
and the return to the logical position in DIRECT or the left margin in LINE, at most 1559, follows unless it is 0;
HOMING_RETURN_COMPLETE leaves the carriage there; INDEX_MARK_SEEN makes the petal known and clears WHEEL_INDEX_LOST;
IDENTIFICATION_READ takes reads until two in a row are equal, which identify the wheel, or four have been taken, which
give 0; EVENT WHEEL_IDENTIFIED is queued, then TABLE_ACTIVE for a map newly active, and the tests follow. (That the
wheel's OVERCURRENT record is cleared at the index mark and at the end of identification is the model's choice, log
entry 26.) (That homing step 1 is a drive of CARRIAGE wherever the carriage stands is the model's choice, log entry
71.) -/
def Obligations.HomingPlacesTheMechanism : Prop :=
  ∀ s : State, s.quiet →
    (s.seq.homing = some .home →
      let x := min 1559 (if s.comp.source = .localKeys ∧ s.comp.mode = .line then s.comp.left else s.comp.logical)
      exec .homeSensorSeen s = .next (State.formImage { s with
        seq := { s.seq with carriage := some 0, homing := some (if x = 0 then .index else .ret x) }
        drv := { s.drv with
          faults := cleared (cleared s.drv.faults .overcurrent .carriage) .homeNotFound .carriage } })) ∧
    (∀ x, s.seq.homing = some (.ret x) → exec .homingReturnComplete s = .next (State.formImage { s with
      seq := { s.seq with carriage := some x, homing := some .index }
      drv := { s.drv with faults := cleared s.drv.faults .overcurrent .carriage } })) ∧
    (s.seq.homing = some .index → ∃ p < 96, exec .indexMarkSeen s = .next (State.formImage { s with
      seq := { s.seq with petal := some p, homing := some (.ident []) }
      drv := { s.drv with
        faults := cleared (cleared s.drv.faults .overcurrent .wheel) .wheelIndexLost .wheel } })) ∧
    ∀ (reads : List Nat) (code : BitVec 6), s.seq.homing = some (.ident reads) →
      let goesOn := exec (.identificationRead code) s = .next (State.formImage
        { s with seq := { s.seq with homing := some (.ident (reads ++ [code.toNat])) } })
      let identifies (c : Nat) : Prop :=
        let u := State.event { s with
          seq := { s.seq with wheelCode := c, homing := some (.test .carriage) }
          drv := { s.drv with faults := cleared s.drv.faults .overcurrent .wheel } } (.wheelIdentified c)
        ((u.active .wheelMap = none ∨ u.active .wheelMap = s.active .wheelMap) →
          exec (.identificationRead code) s = .next u.formImage) ∧
        ∀ i, u.active .wheelMap = some i → s.active .wheelMap ≠ some i →
          exec (.identificationRead code) s = .next (State.formImage (u.event (.tableActive .wheelMap c i)))
      (reads = [] → goesOn) ∧
      (reads.getLast? = some code.toNat → identifies code.toNat) ∧
      (∀ a, reads.getLast? = some a → a ≠ code.toNat →
        (reads.length ≠ 3 → goesOn) ∧ (reads.length = 3 → identifies 0))

/-- A fault is listed (R148): a record present counts again, one no longer present is present again and told, a new
one is appended and told while fewer than 8 are held, and counted otherwise. HOME_NOT_FOUND, WHEEL_INDEX_LOST and
OVERCURRENT (R70, R71, R87, R146, R147, R149). The two faults of homing abandon it: masked HALT the mechanism is
HALTED with the kind as reason, masked REPORT it is UNHOMED. OVERCURRENT on a channel that is driven always halts: a
pulse that it cuts does not count and its order, STRIKE or LIFT, stays at the head, no longer in flight, with H kept;
so does an order whose carriage, wheel, lift or paper motion it cuts, an INDEX with the half-lines not yet moved; a
homing is abandoned; a lift motion leaves the lift's position unknown. On a channel that is not driven it does
nothing. (The unknown carriage and petal, and the lift motion that goes on under REPORT, are the model's choices, log
entry 29, and so are the INDEX or PAGE that is complete when it is cut after its whole count and the place of such a
PAGE, log entries 31 and 51; the place where a motion cut short stands is a free value, log entry 5.) (Which of two
entries that bear one wrapped number is meant is the model's choice, log entry 66.) (That CARRIAGE is driven through
the whole of homing step 1 is the model's choice, log entry 71.) -/
def Obligations.FaultsAreListedAndStopTheMechanism : Prop :=
  (∀ (s : State) (k : FaultKind) (ch : Channel),
     (∀ r, s.drv.faults.find? (fun f => f.kind = k && f.ch = ch) = some r →
       let u := { s with drv := { s.drv with faults := s.drv.faults.map (fun f =>
         if f.kind = k ∧ f.ch = ch then { f with occ := min 255 (r.occ + 1), isPresent := true } else f) } }
       s.raiseFault k ch = if r.isPresent then u else u.event (.faultRaised k ch (min 255 (r.occ + 1)))) ∧
     ((∀ f ∈ s.drv.faults, ¬(f.kind = k ∧ f.ch = ch)) →
       (s.drv.faults.length < 8 → s.raiseFault k ch = State.event
         { s with drv := { s.drv with faults := s.drv.faults ++ [⟨k, ch, 1, true⟩] } } (.faultRaised k ch 1)) ∧
       (8 ≤ s.drv.faults.length → s.raiseFault k ch = { s with ctr := s.ctr.raise .faultsUnlisted 1 }))) ∧
  (∀ s : State, s.quiet →
     let lift := if s.seq.liftTarget = none then s.seq.lift else none
     (s.seq.state = .homing → s.seq.flight = none → s.seq.coverStop = false →
       (s.seq.homing = some .home →
         let f := State.raiseFault { s with seq := { s.seq with carriage := none } } .homeNotFound .carriage
         (s.set.maskHomeNotFound = .halt → exec .homeNotFound s = .next (State.formImage (State.changedTo
           { f with seq := { f.seq with homing := none, lift := lift, liftTarget := none } }
           .halted (.fault .homeNotFound)))) ∧
         (s.set.maskHomeNotFound = .report → exec .homeNotFound s = .next (State.formImage (State.changedTo
           { f with seq := { f.seq with homing := none } } .unhomed .none)))) ∧
       (s.seq.homing = some .index →
         let f := State.raiseFault { s with seq := { s.seq with petal := none } } .wheelIndexLost .wheel
         (s.set.maskIndexLost = .halt → exec .wheelIndexLost s = .next (State.formImage (State.changedTo
           { f with seq := { f.seq with homing := none, lift := lift, liftTarget := none } }
           .halted (.fault .wheelIndexLost)))) ∧
         (s.set.maskIndexLost = .report → exec .wheelIndexLost s = .next (State.formImage (State.changedTo
           { f with seq := { f.seq with homing := none } } .unhomed .none))))) ∧
     (∀ ch, s.driveState ch ≠ .driving → exec (.overcurrent ch) s = .next s.formImage) ∧
     let cuts (ch : Channel) (q : Sequencer) (t : State) : Prop :=
       let f := s.raiseFault .overcurrent ch
       let v := f.event (.mechState .halted (.fault .overcurrent))
       exec (.overcurrent ch) s = .next t ∧
         t.seq = { q with state := .halted, reason := .fault .overcurrent, pauseReq := s.seq.pauseKept } ∧
         t.ret = v.ret ∧ t.ctr = v.ctr ∧ t.drv = { f.drv with rotTest := none } ∧
         s.keeps t [.free, .seq, .drv, .line, .ret, .ctr, .image] ∧ s.imageFollows t
     let q := { s.seq with flight := none, homing := none, coverStop := false, lift := lift, liftTarget := none }
     let between (a : Option Nat) (b : Nat) (c : Option Nat) : Prop :=
       (a = none → c = none) ∧ ∀ x, a = some x → ∃ y, c = some y ∧ min x b ≤ y ∧ y ≤ max x b
     (s.seq.state = .running → s.seq.homing = none → ∀ o rest, s.seq.queue = o :: rest →
       let back (t : State) : Prop :=
         (∀ code p role ref num, o = .strike code p role ref num → t.line = { s.line with
           entries := strikeSet s.line.entries ref num (fun k => if k = .inFlight then .waiting else k) }) ∧
         ((∀ code p role ref num, o ≠ .strike code p role ref num) → t.line = s.line)
       (∀ petal level us, s.seq.flight = some (.pulse petal level us) → ∃ t, cuts .hammer q t ∧ back t) ∧
       (∀ petal level us ch, s.seq.flight = some (.position petal level us) →
         (ch = .carriage ∧ s.seq.carriage ≠ some o.pos ∨ ch = .wheel ∧ s.seq.petal ≠ some petal ∨
           ch = .lift ∧ s.seq.liftTarget.isSome) →
         ∃ t c p, cuts ch { q with carriage := c, petal := p } t ∧ back t ∧ between s.seq.carriage o.pos c) ∧
       (∀ us p ch, s.seq.flight = some (.moving us) → o = .move p →
         (ch = .carriage ∨ ch = .lift ∧ s.seq.liftTarget.isSome) →
         ∃ t c, cuts ch { q with carriage := c } t ∧ t.line = s.line ∧ between s.seq.carriage p c) ∧
       (∀ k us ch, s.seq.flight = some (.indexing k us) → (ch = .paper ∨ ch = .lift ∧ s.seq.liftTarget.isSome) →
         (∀ c, o = .index c → k = c.natAbs → c ≠ 0 → ∃ (t : State) (m : Nat), 0 < m ∧ m ≤ k ∧ t.line = s.line ∧
           let d : Int := if 0 < c then m else -(m : Int)
           cuts ch { q with
             paperPos := ((s.seq.paperPos + d) % (2 * s.set.pageLength : Nat)).toNat
             queue := if m = k then rest else .index (c - d) :: rest
             heatCounted := if m = k then false else s.seq.heatCounted } t) ∧
         (o = .indexPage → 0 < k → ∃ (t : State) (m : Nat), 0 < m ∧ m ≤ k ∧ t.line = s.line ∧
           cuts ch { q with
             paperPos := (s.seq.paperPos + m) % (2 * s.set.pageLength)
             queue := if m = k then rest else .indexPage :: rest
             heatCounted := if m = k then false else s.seq.heatCounted } t))) ∧
     (s.seq.state = .homing → s.seq.flight = none → ∀ h ch, s.seq.homing = some h →
       (ch = .carriage ∧ (h = .home ∨ ∃ x, h = .ret x) ∨ ch = .wheel ∧ (h = .index ∨ ∃ l, h = .ident l) ∨
         ch = .lift ∧ s.seq.liftTarget.isSome) →
       ∃ t c p, cuts ch { q with carriage := c, petal := p } t ∧ t.line = s.line ∧
         (h ≠ .home → (∀ x, h ≠ .ret x) → c = s.seq.carriage) ∧
         (h ≠ .index → (∀ l, h ≠ .ident l) → p = s.seq.petal)) ∧
     (s.seq.state ≠ .homing → s.seq.state ≠ .halted → s.seq.flight = none → s.seq.homing = none →
       s.seq.liftTarget.isSome → ∃ t, cuts .lift q t ∧ t.line = s.line))

/-- ROTATION_TIMER_EXPIRY and OFF_STATE_TEST_COMPLETE (R71, R143 to R145, R149). In IDLE or HALTED the timer starts a
test, at once or, while a channel is driven, deferred. The result is recorded and, in rotation, the rotation moves on:
a pass clears OPEN_LOAD of the channel, a failure raises it, and masked HALT it halts. In homing the next channel's
test follows and after PAPER homing ends: in WHEEL_WAIT under a failing condition, else PAUSED by a request, else
RUNNING with orders, else IDLE. -/
def Obligations.OffStateTestsRunInHomingAndRotation : Prop :=
  (∀ s : State, s.resetHeld = false →
    let rests := (s.seq.state = .idle ∨ s.seq.state = .halted) ∧ s.drv.rotTest = none
    (¬rests → exec .rotationTimerExpiry s = .next s) ∧
    (rests → (∃ ch, s.driveState ch = .driving) →
      exec .rotationTimerExpiry s = .next { s with drv := { s.drv with rotTest := some .deferred } }) ∧
    (rests → (∀ ch, s.driveState ch ≠ .driving) →
      exec .rotationTimerExpiry s = .next { s with drv := { s.drv with rotTest := some .running } })) ∧
  ∀ (s : State) (ch : Channel), s.quiet → s.seq.flight = none → s.seq.coverStop = false →
    let lift := if s.seq.liftTarget = none then s.seq.lift else none
    let passed (d : Drives) : Drives := { d with
      results := d.results.put ch .pass, faults := cleared d.faults .openLoad ch }
    let failed (d : Drives) : Drives := { d with results := d.results.put ch .fail }
    (s.seq.homing = none → s.drv.rotTest = some .running → s.drv.rotation = ch →
      let d := { s.drv with rotation := nextChannel ch, rotTest := none }
      let f := State.raiseFault { s with drv := failed d } .openLoad ch
      exec (.offStateTestComplete true) s = .next (State.formImage { s with drv := passed d }) ∧
      (s.set.maskOpenLoad = .report ∨ s.seq.state = .halted →
        exec (.offStateTestComplete false) s = .next f.formImage) ∧
      (s.set.maskOpenLoad = .halt → s.seq.state = .idle →
        exec (.offStateTestComplete false) s = .next (State.formImage (State.changedTo
          { f with seq := { s.seq with lift := lift, liftTarget := none } } .halted (.fault .openLoad))))) ∧
    (s.seq.state = .homing → s.seq.homing = some (.test ch) →
      let p := { s with drv := passed s.drv }
      let f := State.raiseFault { s with drv := failed s.drv } .openLoad ch
      (s.set.maskOpenLoad = .halt → exec (.offStateTestComplete false) s = .next (State.formImage (State.changedTo
        { f with seq := { s.seq with homing := none, lift := lift, liftTarget := none } } .halted (.fault .openLoad)))) ∧
      ∀ u pass, (pass = true ∧ u = p ∨ pass = false ∧ u = f ∧ s.set.maskOpenLoad = .report) →
        (ch ≠ .paper → exec (.offStateTestComplete pass) s = .next (State.formImage
          { u with seq := { s.seq with homing := some (.test (nextChannel ch)) } })) ∧
        (ch = .paper →
          let e := { u with seq := { s.seq with homing := none } }
          let mismatch := s.set.expectedWheel ≠ 0 ∧ s.set.expectedWheel ≠ s.seq.wheelCode
          let ready := ¬mismatch ∧ s.active .wheelMap ≠ none
          (mismatch → exec (.offStateTestComplete pass) s = .next (State.formImage (State.event
            (e.changedTo .wheelWait .mismatch) (.wheelMismatch s.set.expectedWheel s.seq.wheelCode)))) ∧
          (¬mismatch → s.active .wheelMap = none → exec (.offStateTestComplete pass) s = .next (State.formImage
            (State.event (e.changedTo .wheelWait .noMap) (.wheelNoMap s.seq.wheelCode)))) ∧
          (ready → ∀ r, s.seq.pauseReq = some r → exec (.offStateTestComplete pass) s = .next (State.formImage
            (State.changedTo { e with seq := { e.seq with pauseReq := none } } .paused
              (if r = .key then .key else .command)))) ∧
          (ready → s.seq.pauseReq = none → s.seq.queue = [] → exec (.offStateTestComplete pass) s = .next
            (State.formImage (e.changedTo .idle .none))) ∧
          (ready → s.seq.pauseReq = none → s.seq.queue ≠ [] → exec (.offStateTestComplete pass) s = .next
            (State.formImage (e.changedTo .running .none).runQueue))))

/-! ### The return line and the beeper -/

/-- RETURN_BLOCK_SENT (R175, R177, R178). After the first block of a display pair the second goes out. Otherwise the
arbiter takes the waiting image once 4 blocks have gone out since the last pair, else a CREDIT of all the unsent
credit if there is any or a restatement is due, else the head record of the report queue, else the waiting image, else
the line rests. Every choice but a display pair raises the count, up to 4. -/
def Obligations.TheArbiterChoosesByPriority : Prop :=
  ∀ s : State, s.resetHeld = false →
    let shows (im : Image) : Prop := exec .returnBlockSent s = .next { s with
      ret := { s.ret with sending := some (.displayFirst im), arbCount := 0 }
      disp := { s.disp with slot := none, lastSent := some im } }
    (∀ im, s.ret.sending = some (.displayFirst im) →
      exec .returnBlockSent s = .next { s with ret := { s.ret with sending := some (.displaySecond im) } }) ∧
    ((∀ im, s.ret.sending ≠ some (.displayFirst im)) →
      let due := s.disp.slot.isSome ∧ s.ret.arbCount = 4
      let credit := 0 < s.txt.unsent ∨ s.txt.restate = true
      (∀ im, s.disp.slot = some im → s.ret.arbCount = 4 → shows im) ∧
      (¬due → credit → exec .returnBlockSent s = .next { s with
        ret := { s.ret with
          sending := some (.credit s.txt.unsent s.txt.restate), arbCount := min 4 (s.ret.arbCount + 1) }
        txt := { s.txt with balance := s.txt.balance + s.txt.unsent, unsent := 0, restate := false } }) ∧
      (∀ r rest, ¬due → ¬credit → s.ret.reports = r :: rest → exec .returnBlockSent s = .next { s with
        ret := { s.ret with sending := some (.report r), reports := rest, arbCount := min 4 (s.ret.arbCount + 1) } }) ∧
      (∀ im, ¬due → ¬credit → s.ret.reports = [] → s.disp.slot = some im → shows im) ∧
      (¬credit → s.ret.reports = [] → s.disp.slot = none →
        exec .returnBlockSent s = .next { s with ret := { s.ret with sending := none } }))

/-- The beeper (R138 to R140). A signal starts where the beeper is IDLE, and is dropped where a pattern sounds, but that
MISS cuts off REFUSED; with BEEPER OFF every signal is dropped. BEEPER_INTERVAL_EXPIRY ends REFUSED and BELL, and
takes MISS through its tone, its silence and its second tone. The first expiry after a cut-off is that of the REFUSED,
which has no effect, or one of MISS (R139): a free value, drawn there (log entries 5 and 58). -/
def Obligations.TheBeeperSoundsItsPatterns : Prop :=
  (∀ (s : State) (p : Pattern),
    (s.set.beeper = false → s.signal p = s) ∧
    (s.set.beeper = true → s.disp.beeper = none →
      s.signal p = { s with disp := { s.disp with beeper := some ⟨p, 0, false⟩ } }) ∧
    ∀ b, s.set.beeper = true → s.disp.beeper = some b →
      s.signal p = if b.pattern = .refused ∧ p = .miss
        then { s with disp := { s.disp with beeper := some ⟨.miss, 0, true⟩ } } else s) ∧
  ∀ s : State, s.resetHeld = false →
    let becomes (b : Option Sounding) (tone : Bool) : Prop := ∃ t, exec .beeperIntervalExpiry s = .next t ∧
      t = { s with disp := { s.disp with beeper := b } } ∧ t.disp.tone = tone
    (s.disp.beeper = none → becomes none false) ∧
    (∀ n, s.disp.beeper = some ⟨.refused, n, false⟩ ∨ s.disp.beeper = some ⟨.bell, n, false⟩ → becomes none false) ∧
    (s.disp.beeper = some ⟨.miss, 0, true⟩ → ∃ t, exec .beeperIntervalExpiry s = .next t ∧
      ((t = { s with disp := { s.disp with beeper := some ⟨.miss, 0, false⟩ }, free := s.free + 1 } ∧ t.disp.tone = true) ∨
       (t = { s with disp := { s.disp with beeper := some ⟨.miss, 1, false⟩ }, free := s.free + 1 } ∧ t.disp.tone = false))) ∧
    (s.disp.beeper = some ⟨.miss, 0, false⟩ → becomes (some ⟨.miss, 1, false⟩) false) ∧
    (s.disp.beeper = some ⟨.miss, 1, false⟩ → becomes (some ⟨.miss, 2, false⟩) true) ∧
    (s.disp.beeper = some ⟨.miss, 2, false⟩ → becomes none false)

/-! ### What every step keeps -/

/-- The machine right after reset meets every property that a step is to keep. -/
def Obligations.ResetMeetsEveryInvariant : Prop :=
  let s := State.reset
  s.creditWhole ∧ s.heatBounded ∧ s.strikesInTravel ∧ s.tab.mem.wf = true ∧ s.directoryWhole ∧ s.sealFollows ∧ s.sealedOnce ∧
    s.reportsBounded ∧ s.windowAligned ∧ s.imageCurrent ∧ s.listsBounded

/-- The occupied places of the remote text queue, the unsent credit and the credit balance always make 96 (R174). -/
def Obligations.CreditSumIsKept : Prop :=
  ∀ s t : State, s.creditWhole → step s = .next t → t.creditWhole

/-- H never exceeds 255 (R76), and every strike queued or recorded stands at a position from 0 to 1559, so that every
hammer pulse fires within the travel (R54, R65, R75). -/
def Obligations.HeatAndTravelBoundsAreKept : Prop :=
  ∀ s t : State, s.heatBounded → s.strikesInTravel → step s = .next t → t.heatBounded ∧ t.strikesInTravel

/-- Table memory keeps its canonical form (log entry 8), the directory stays whole (every run in use has a segment, lies
in the memory and shares none with another, and a seal works on an OPEN slot), the figure of a seal in progress is the
table check of the bytes it has read, and of each kind and key at most one table is SEALED (R154, R155, R160 to
R162). -/
def Obligations.TableStoreStaysWhole : Prop :=
  ∀ s t : State, s.tab.mem.wf = true → s.directoryWhole → s.sealFollows → s.sealedOnce → step s = .next t →
    t.tab.mem.wf = true ∧ t.directoryWhole ∧ t.sealFollows ∧ t.sealedOnce

/-- The report queue keeps to its 24 places, at most 22 of them EVENTs, and a place is reserved exactly while a seal runs
(R176, R177). -/
def Obligations.ReportQueueBoundsAreKept : Prop :=
  ∀ s t : State, s.reportsBounded → step s = .next t → t.reportsBounded

/-- The current image shows the state and waits in the slot unless it was the last one sent, with DISPLAY OFF the slot is
empty, and the window starts at a multiple of 8 (R133, R136, R137). -/
def Obligations.DisplayImageIsKeptCurrent : Prop :=
  ∀ s t : State, s.windowAligned → s.imageCurrent → step s = .next t → t.windowAligned ∧ t.imageCurrent

/-- Every queue and list keeps to its places, and the tab stops stay in order, each position once (R39, R44, R66, R89,
R111, R117, R126, R148, R171, R173). -/
def Obligations.QueuesAndListsKeepTheirPlaces : Prop :=
  ∀ s t : State, s.listsBounded → step s = .next t → t.listsBounded
end

