-- ==== Sys2Proof/Laws/State.lean ====
section
/-! SUPPORT. The small lemmas of the shared operations: what an event, an answer, a raised counter, a signal and
the image do to each field they touch, and what the end of a step is when no item waits. Updates written as
records need no lemma: a projection of one reduces by `simp` alone. -/

namespace Sys2Proof.Machine

/-! ### The report queue (R176, R177) -/

theorem ReturnLine.hasFree_iff (r : ReturnLine) : r.hasFree = true ↔ r.reports.length + r.reserved < reportPlaces := by
  unfold ReturnLine.hasFree ReturnLine.fill
  exact decide_eq_true_iff

/-- An EVENT that finds its place is appended with the lost flag, and the flag is cleared (R177). -/
theorem State.event_of_takes {s : State} {e : Event} (h : s.ret.takesEvent = true) :
    s.event e = { s with ret := s.ret.told e } := by
  simp [State.event, h, ReturnLine.told]

/-- An EVENT that finds no place is dropped and counted, and the lost flag is set (R177). -/
theorem State.event_of_full {s : State} {e : Event} (h : s.ret.takesEvent = false) :
    s.event e = { s with ret := { s.ret with lost := true }, ctr := s.ctr.raise .eventsLost 1 } := by
  simp [State.event, h]

/-- An ANSWER into its reserved place leaves the reservations as they were before the command (R176). -/
@[simp] theorem State.reserve_answer (s : State) (code : Byte) (o : CmdOutcome) (data : List Byte) :
    s.reserve.answer code o data = { s with ret := s.ret.answered code o data } := by
  simp [State.reserve, State.answer, ReturnLine.answered]

@[simp] theorem ReturnLine.answered_reports (r : ReturnLine) (c : Byte) (o : CmdOutcome) (d : List Byte) :
    (r.answered c o d).reports = r.reports ++ [.answer c o d] := rfl

@[simp] theorem ReturnLine.answered_reserved (r : ReturnLine) (c : Byte) (o : CmdOutcome) (d : List Byte) :
    (r.answered c o d).reserved = r.reserved := rfl

@[simp] theorem ReturnLine.answered_lost (r : ReturnLine) (c : Byte) (o : CmdOutcome) (d : List Byte) :
    (r.answered c o d).lost = r.lost := rfl

@[simp] theorem ReturnLine.told_lost (r : ReturnLine) (e : Event) : (r.told e).lost = false := rfl

@[simp] theorem ReturnLine.told_reports (r : ReturnLine) (e : Event) :
    (r.told e).reports = r.reports ++ [.event e r.lost] := rfl

@[simp] theorem ReturnLine.told_reserved (r : ReturnLine) (e : Event) : (r.told e).reserved = r.reserved := rfl

/-! ### Counters (R185) -/

@[simp] theorem State.raise_ctr (s : State) (k : Counter) (n : Nat) : (s.raise k n).ctr = s.ctr.raise k n := rfl

/-- A counter reads as it was put. -/
@[simp] theorem Counters.get_put_self (c : Counters) (k : Counter) (v : Nat) : (c.put k v).get k = v := by
  cases k <;> rfl

/-- Putting one counter leaves the others. -/
theorem Counters.get_put_of_ne (c : Counters) {k j : Counter} (h : j ≠ k) (v : Nat) :
    (c.put k v).get j = c.get j := by
  cases k <;> cases j <;> first | rfl | exact absurd rfl h

/-! ### Table memory (R154) -/

/-- The whole memory reads an unlisted byte as the unwritten one. -/
@[simp] theorem Memory.read_nil (x : Nat) : Memory.read [] x = unwrittenByte := rfl

/-- A byte just written is read back. -/
theorem Memory.read_write_self (m : Memory) (x : Nat) (v : Byte) (h : m.wf = true) :
    (m.write x v).read x = v := by
  induction m with
  | nil => by_cases hv : v = unwrittenByte <;> simp [Memory.write, Memory.read, hv]
  | cons c m ih =>
    obtain ⟨a, b⟩ := c
    have htail : Memory.wf m = true := by
      cases m with
      | nil => rfl
      | cons c' m' => obtain ⟨a', b'⟩ := c'; simp [Memory.wf] at h; exact h.2
    have hgt : ∀ m' : Memory, Memory.wf ((a, b) :: m') = true → m'.read a = unwrittenByte := by
      intro m'
      suffices hs : ∀ (m' : Memory) (a₀ : Nat) (b₀ : Byte), a ≤ a₀ → Memory.wf ((a₀, b₀) :: m') = true →
          m'.read a = unwrittenByte from hs m' a b (Nat.le_refl a)
      intro m'
      induction m' with
      | nil => intros; rfl
      | cons d m'' ih' =>
        obtain ⟨a', b'⟩ := d
        intro a₀ b₀ hle hw
        simp [Memory.wf] at hw
        have hne : a' ≠ a := by omega
        simp only [Memory.read, hne, if_false]
        exact ih' a' b' (by omega) hw.2
    simp only [Memory.write]
    split
    · rename_i hlt
      have hne : a ≠ x := by omega
      simp only [Memory.read, hne, if_false]
      exact ih htail
    · split
      · rename_i hax
        subst hax
        split
        · rename_i hv; subst hv; exact hgt m h
        · simp [Memory.read]
      · split
        · rename_i hlt hne hv
          subst hv
          have hax : x < a := by omega
          suffices hs : ∀ (m' : Memory), Memory.wf m' = true → (∀ c ∈ m'.head?, x < c.1) → m'.read x = unwrittenByte from
            hs ((a, b) :: m) h (by simpa using hax)
          intro m'
          induction m' with
          | nil => intros; rfl
          | cons d m'' ih' =>
            obtain ⟨a', b'⟩ := d
            intro hw hx
            have hx' : x < a' := by simpa using hx
            have hne' : a' ≠ x := by omega
            simp only [Memory.read, hne', if_false]
            cases m'' with
            | nil => rfl
            | cons e m3 =>
              obtain ⟨a2, b2⟩ := e
              simp [Memory.wf] at hw
              exact ih' hw.2 (by simp; omega)
        · simp [Memory.read]

/-- A write leaves every other byte. -/
theorem Memory.read_write_of_ne (m : Memory) (x y : Nat) (v : Byte) (h : y ≠ x) :
    (m.write x v).read y = m.read y := by
  induction m with
  | nil => by_cases hv : v = unwrittenByte <;> simp [Memory.write, Memory.read, hv]; intro h'; exact absurd h'.symm h
  | cons c m ih =>
    obtain ⟨a, b⟩ := c
    simp only [Memory.write]
    split
    · simp only [Memory.read]; split <;> simp_all
    · split
      · rename_i hax
        subst hax
        split
        · simp only [Memory.read]; split
          · rename_i hay; exact absurd hay.symm h
          · rfl
        · simp only [Memory.read]
          rw [if_neg (fun hay => h hay.symm), if_neg (fun hay => h hay.symm)]
      · split
        · rfl
        · rename_i hne' hv
          have hxy : ¬x = y := fun hxy => h hxy.symm
          show (if x = y then v else Memory.read ((a, b) :: m) y) = _
          rw [if_neg hxy]

/-- A write inside the memory keeps the canonical form. -/
theorem Memory.wf_write (m : Memory) (x : Nat) (v : Byte) (hx : x < tableBytes) (h : m.wf = true) :
    (m.write x v).wf = true := by
  induction m with
  | nil => by_cases hv : v = unwrittenByte <;> simp [Memory.write, Memory.wf, hv, hx]
  | cons c m ih =>
    obtain ⟨a, b⟩ := c
    cases m with
    | nil =>
      simp only [Memory.write]
      simp [Memory.wf] at h
      (repeat' split) <;> simp_all [Memory.wf]
      omega
    | cons d m' =>
      obtain ⟨a', b'⟩ := d
      have h0 := h
      simp only [Memory.wf, Bool.and_eq_true, decide_eq_true_eq] at h
      have ih' := ih h.2
      simp only [Memory.write] at ih' ⊢
      (repeat' split) <;> simp_all [Memory.wf] <;> first
        | omega
        | (cases m' with
          | nil => simp_all [Memory.wf]; omega
          | cons e m3 => obtain ⟨a2, b2⟩ := e; simp_all [Memory.wf]; omega)

/-- Writes inside the memory keep the canonical form. -/
theorem Memory.wf_writeBytes (vs : List Byte) (m : Memory) (x : Nat) (hx : x + vs.length ≤ tableBytes)
    (h : m.wf = true) : (m.writeBytes x vs).wf = true := by
  induction vs generalizing m x with
  | nil => exact h
  | cons v vs ih =>
    simp only [List.length_cons] at hx
    exact ih (m.write x v) (x + 1) (by omega) (Memory.wf_write m x v (by omega) h)

/-- Bytes outside those written are read as before. -/
theorem Memory.read_writeBytes_outside (vs : List Byte) (m : Memory) (x y : Nat)
    (h : y < x ∨ x + vs.length ≤ y) : (m.writeBytes x vs).read y = m.read y := by
  induction vs generalizing m x with
  | nil => rfl
  | cons v vs ih =>
    simp only [List.length_cons] at h
    rw [Memory.writeBytes, ih (m.write x v) (x + 1) (by omega), Memory.read_write_of_ne m x y v (by omega)]

/-- A signal changes no more of the Display Unit than the beeper (R139). -/
@[simp] theorem State.signal_disp (s : State) (p : Pattern) :
    (s.signal p).disp.window = s.disp.window ∧ (s.signal p).disp.current = s.disp.current ∧
      (s.signal p).disp.slot = s.disp.slot ∧ (s.signal p).disp.lastSent = s.disp.lastSent := by
  unfold State.signal
  (repeat' split) <;> simp

/-- Forming an image leaves the window, the image last sent and the beeper (R136). -/
@[simp] theorem State.formImage_disp (s : State) :
    s.formImage.disp.window = s.disp.window ∧ s.formImage.disp.lastSent = s.disp.lastSent ∧
      s.formImage.disp.beeper = s.disp.beeper := by
  unfold State.formImage
  split <;> simp

/-- The window tests change no more of the Display Unit than the window (R133). -/
@[simp] theorem State.moveWindow_disp (s : State) :
    s.moveWindow.disp.current = s.disp.current ∧ s.moveWindow.disp.slot = s.disp.slot ∧
      s.moveWindow.disp.lastSent = s.disp.lastSent ∧ s.moveWindow.disp.beeper = s.disp.beeper := ⟨rfl, rfl, rfl, rfl⟩

/-! ### The end of a step (R28, R136) -/

/-- With no item waiting, the end of a step is the new image alone. -/
theorem State.settle_of_quiet {s pre : State} (hk : s.comp.keyWait = none) (ht : s.comp.textWait = none) (anew : Bool) :
    s.settle pre anew = s.formImage := by
  have h1 (p : State) (b : Bool) : p.settleKey s b = s := by simp [State.settleKey, hk]
  have h2 : pre.settleText s s anew = s := by simp [State.settleText, ht]
  simp only [State.settle, h1, h2]

/-- Forming an image changes the current image and the slot alone. -/
theorem State.formImage_same (s : State) (p : Part) (h : p ≠ .image) : s.same s.formImage p := by
  cases p <;> simp_all [State.same, State.formImage] <;> split <;> rfl

/-- The image of a state does not read the Display Unit but for its window. -/
theorem State.image_formImage (s : State) : s.formImage.image = s.image := by
  unfold State.formImage
  split <;> rfl

/-- After forming it, the image is that of the state. -/
theorem State.imageFollows_formImage {s t : State} (h1 : t.disp.current = s.disp.current)
    (h2 : t.disp.slot = s.disp.slot) : s.imageFollows t.formImage := by
  unfold State.imageFollows
  rw [State.image_formImage]
  unfold State.formImage
  split <;> simp_all

/-- Queuing an ANSWER and forming the image commute: the image reads nothing of the report queue. -/
theorem State.answer_formImage (s : State) (code : Byte) (o : CmdOutcome) (data : List Byte) :
    s.formImage.answer code o data = (s.answer code o data).formImage := by
  unfold State.formImage State.answer
  by_cases h : s.set.display = true
  · rw [if_pos h, if_pos h]; rfl
  · rw [if_neg h, if_neg h]

/-- A step outside a held reset input runs. -/
theorem live_of_running {s : State} (h : s.resetHeld = false) (f : State → State) : live s f = .next (f s) := by
  simp [live, h]

/-- A step that works on table memory runs when the directory is whole. -/
theorem liveTables_of_running {s : State} (h : s.resetHeld = false) (hr : runsInside s.tab.slots = true)
    (f : State → State) : liveTables s f = .next (f s) := by
  simp [liveTables, live, h, hr]

/-! ### Command intake (R176) -/

/-- A command taken with no seal in progress is carried out with its answer's place reserved. -/
theorem State.takeControl_of_ready {s : State} (h : s.commandReady) (code : Byte) (params : List Byte) (paper : Bool) :
    live s (fun s => s.takeControl code params paper) = .next (s.reserve.command code params paper) := by
  obtain ⟨h1, h2, h3⟩ := h
  rw [live_of_running h1]
  simp [State.takeControl, h2, h3]

theorem State.command_set (s : State) (p : List Byte) (q : Bool) : s.command 1 p q = s.cmdSet p := rfl

theorem State.command_query (s : State) (p : List Byte) (q : Bool) : s.command 2 p q = s.cmdQuery p := rfl

theorem State.command_tableOpen (s : State) (p : List Byte) (q : Bool) : s.command 3 p q = s.cmdTableOpen p := rfl

theorem State.command_tableWrite (s : State) (p : List Byte) (q : Bool) : s.command 4 p q = s.cmdTableWrite p := rfl

theorem State.command_tableSeal (s : State) (p : List Byte) (q : Bool) : s.command 5 p q = s.cmdTableSeal p := rfl

theorem State.command_tableDrop (s : State) (p : List Byte) (q : Bool) : s.command 6 p q = s.cmdTableDrop p := rfl

theorem State.command_tabAdd (s : State) (p : List Byte) (q : Bool) : s.command 7 p q = s.cmdTabAdd p := rfl

theorem State.command_tabRemove (s : State) (p : List Byte) (q : Bool) : s.command 8 p q = s.cmdTabRemove p := rfl

theorem State.command_tabsClear (s : State) (p : List Byte) (q : Bool) : s.command 9 p q = s.cmdTabsClear p := rfl

theorem State.command_userAdd (s : State) (p : List Byte) (q : Bool) : s.command 10 p q = s.cmdUserAdd p := rfl

theorem State.command_userRemove (s : State) (p : List Byte) (q : Bool) : s.command 11 p q = s.cmdUserRemove p := rfl

theorem State.command_pause (s : State) (p : List Byte) (q : Bool) : s.command 12 p q = s.cmdPause p := rfl

theorem State.command_resume (s : State) (p : List Byte) (q : Bool) : s.command 13 p q = s.cmdResume q p := rfl

theorem State.command_ackFault (s : State) (p : List Byte) (q : Bool) : s.command 14 p q = s.cmdAckFault p := rfl

theorem State.command_restate (s : State) (p : List Byte) (q : Bool) : s.command 15 p q = s.cmdRestate p := rfl

theorem State.command_clear (s : State) (p : List Byte) (q : Bool) : s.command 16 p q = s.cmdClear p := rfl

theorem State.command_restart (s : State) (p : List Byte) (q : Bool) : s.command 17 p q = s.cmdRestart p := rfl

/-- A seal whose figure follows the bytes it has read computes the table check of the whole run (R161). -/
theorem Seal.tableCheck_eq {s : State} {e : Seal} (h : s.sealFollows) (he : s.tab.sealing = some e) :
    e.tableCheck s.tab.mem (slotAt s.tab.slots e.slot) =
      Machine.tableCheck (slotBytes s.tab.mem (slotAt s.tab.slots e.slot)) := by
  rw [Seal.tableCheck, h e he, Machine.tableCheck, Machine.tableCheck, ← List.foldl_append, List.take_append_drop]

/-- A seal that has just started follows (R160). -/
theorem State.sealFollows_start {s : State} {e : Seal} (he : s.tab.sealing = some e) (hp : e.progress = 0)
    (hf : e.figure = 0) : s.sealFollows := by
  intro f h
  cases he.symm.trans h
  simp [hp, hf, tableCheck]

/-- What the expiry of a beeper interval can do (R138, R139): it changes the beeper, and the count of free values where
a pattern was cut off. -/
theorem State.nextInterval_eq (s : State) : ∃ b n,
    s.nextInterval = { s with disp := { s.disp with beeper := b }, free := n } ∧
      (n = s.free ∨ n = s.free + 1 ∧ ∃ c, s.disp.beeper = some c ∧ c.cutOff = true) := by
  unfold State.nextInterval
  split
  · exact ⟨_, s.free, rfl, .inl rfl⟩
  · split
    · exact ⟨_, _, rfl, .inr ⟨rfl, _, ‹_›, ‹_›⟩⟩
    · exact ⟨_, s.free, rfl, .inl rfl⟩

/-- A carried word keeps its verdict and its generation, and is not complete by a release request (R114). -/
theorem SpellWord.carried_eq (p : Spelling) (w : SpellWord) :
    w.carried p = { w with complete := w.complete && !decide (p.requested = some w.num) } := by
  unfold SpellWord.carried
  split <;> simp_all

end Sys2Proof.Machine
end

