-- ==== Sys2Proof/Laws/Frames.lean ====
section
/-! SUPPORT. The frame of each shared operation, said once: the fields of State that the operation never touches,
whatever it is given. They are simp lemmas, so that a claim about a field steps over every operation that leaves
it alone without unfolding it. -/

namespace Sys2Proof.Machine

/-- A property of both branches holds of a choice between them. -/
theorem ite_holds {α : Type} (P : α → Prop) {c : Prop} [Decidable c] {a b : α} (ha : P a) (hb : P b) :
    P (if c then a else b) := by split <;> assumption

/-- The state of a release request, carried out or not. -/
def Release.state : Release → State
  | .done s => s
  | .wait s _ => s
  | .refused s => s

theorem Release.state_of_done {r : Release} {s : State} (h : r = .done s) : s = r.state := by subst h; rfl

theorem Release.state_of_wait {r : Release} {s : State} {c : WaitCause} (h : r = .wait s c) : s = r.state := by
  subst h; rfl

theorem Release.state_of_refused {r : Release} {s : State} (h : r = .refused s) : s = r.state := by subst h; rfl

@[simp] theorem State.popKey_frame (s : State) :
    (State.popKey s).pending = s.pending ∧
    (State.popKey s).resetHeld = s.resetHeld ∧
    (State.popKey s).coverOpen = s.coverOpen ∧
    (State.popKey s).free = s.free ∧
    (State.popKey s).rx = s.rx ∧
    (State.popKey s).txt = s.txt ∧
    (State.popKey s).ret = s.ret ∧
    (State.popKey s).set = s.set ∧
    (State.popKey s).ctr = s.ctr ∧
    (State.popKey s).tab = s.tab ∧
    (State.popKey s).intake = s.intake ∧
    (State.popKey s).comp = s.comp ∧
    (State.popKey s).seq = s.seq ∧
    (State.popKey s).drv = s.drv ∧
    (State.popKey s).line = s.line ∧
    (State.popKey s).spell = s.spell ∧
    (State.popKey s).disp = s.disp := by
  unfold State.popKey
  (try dsimp only)
  first | rfl | done | simp_all

@[simp] theorem State.dropSelected_frame (s : State) :
    (State.dropSelected s).pending = s.pending ∧
    (State.dropSelected s).resetHeld = s.resetHeld ∧
    (State.dropSelected s).coverOpen = s.coverOpen ∧
    (State.dropSelected s).free = s.free ∧
    (State.dropSelected s).rx = s.rx ∧
    (State.dropSelected s).txt = s.txt ∧
    (State.dropSelected s).ret = s.ret ∧
    (State.dropSelected s).set = s.set ∧
    (State.dropSelected s).ctr = s.ctr ∧
    (State.dropSelected s).tab = s.tab ∧
    (State.dropSelected s).comp = s.comp ∧
    (State.dropSelected s).seq = s.seq ∧
    (State.dropSelected s).drv = s.drv ∧
    (State.dropSelected s).line = s.line ∧
    (State.dropSelected s).spell = s.spell ∧
    (State.dropSelected s).disp = s.disp := by
  unfold State.dropSelected
  (try dsimp only)
  (repeat' split) <;> first | rfl | done | simp_all

@[simp] theorem State.takeKey_frame (s : State) (a : KeyAction) :
    (State.takeKey s a).pending = s.pending ∧
    (State.takeKey s a).resetHeld = s.resetHeld ∧
    (State.takeKey s a).coverOpen = s.coverOpen ∧
    (State.takeKey s a).free = s.free ∧
    (State.takeKey s a).rx = s.rx ∧
    (State.takeKey s a).txt = s.txt ∧
    (State.takeKey s a).ret = s.ret ∧
    (State.takeKey s a).set = s.set ∧
    (State.takeKey s a).ctr = s.ctr ∧
    (State.takeKey s a).tab = s.tab ∧
    (State.takeKey s a).seq = s.seq ∧
    (State.takeKey s a).drv = s.drv ∧
    (State.takeKey s a).spell = s.spell ∧
    (State.takeKey s a).disp = s.disp := by
  unfold State.takeKey
  (try dsimp only)
  first | rfl | done | simp_all

@[simp] theorem Eval.finishKey_frame (e : Eval) (a : KeyAction) :
    (Eval.finishKey e a).pending = e.state.pending ∧
    (Eval.finishKey e a).resetHeld = e.state.resetHeld ∧
    (Eval.finishKey e a).coverOpen = e.state.coverOpen ∧
    (Eval.finishKey e a).free = e.state.free ∧
    (Eval.finishKey e a).rx = e.state.rx ∧
    (Eval.finishKey e a).txt = e.state.txt ∧
    (Eval.finishKey e a).ret = e.state.ret ∧
    (Eval.finishKey e a).set = e.state.set ∧
    (Eval.finishKey e a).ctr = e.state.ctr ∧
    (Eval.finishKey e a).tab = e.state.tab ∧
    (Eval.finishKey e a).seq = e.state.seq ∧
    (Eval.finishKey e a).drv = e.state.drv ∧
    (Eval.finishKey e a).spell = e.state.spell ∧
    (Eval.finishKey e a).disp = e.state.disp := by
  unfold Eval.finishKey
  (try dsimp only)
  (repeat' split) <;> first | rfl | done | simp_all

@[simp] theorem State.takeText_frame (s : State) :
    (State.takeText s).pending = s.pending ∧
    (State.takeText s).resetHeld = s.resetHeld ∧
    (State.takeText s).coverOpen = s.coverOpen ∧
    (State.takeText s).free = s.free ∧
    (State.takeText s).rx = s.rx ∧
    (State.takeText s).keyq = s.keyq ∧
    (State.takeText s).ret = s.ret ∧
    (State.takeText s).set = s.set ∧
    (State.takeText s).ctr = s.ctr ∧
    (State.takeText s).tab = s.tab ∧
    (State.takeText s).intake = s.intake ∧
    (State.takeText s).seq = s.seq ∧
    (State.takeText s).drv = s.drv ∧
    (State.takeText s).line = s.line ∧
    (State.takeText s).spell = s.spell ∧
    (State.takeText s).disp = s.disp := by
  unfold State.takeText
  (try dsimp only)
  first | rfl | done | simp_all

@[simp] theorem Eval.finishText_frame (e : Eval) :
    (Eval.finishText e).pending = e.state.pending ∧
    (Eval.finishText e).resetHeld = e.state.resetHeld ∧
    (Eval.finishText e).coverOpen = e.state.coverOpen ∧
    (Eval.finishText e).free = e.state.free ∧
    (Eval.finishText e).rx = e.state.rx ∧
    (Eval.finishText e).keyq = e.state.keyq ∧
    (Eval.finishText e).ret = e.state.ret ∧
    (Eval.finishText e).set = e.state.set ∧
    (Eval.finishText e).ctr = e.state.ctr ∧
    (Eval.finishText e).tab = e.state.tab ∧
    (Eval.finishText e).intake = e.state.intake ∧
    (Eval.finishText e).seq = e.state.seq ∧
    (Eval.finishText e).drv = e.state.drv ∧
    (Eval.finishText e).line = e.state.line ∧
    (Eval.finishText e).spell = e.state.spell ∧
    (Eval.finishText e).disp = e.state.disp := by
  unfold Eval.finishText
  (try dsimp only)
  (repeat' split) <;> first | rfl | done | simp_all

@[simp] theorem State.signal_frame (s : State) (p : Pattern) :
    (State.signal s p).pending = s.pending ∧
    (State.signal s p).resetHeld = s.resetHeld ∧
    (State.signal s p).coverOpen = s.coverOpen ∧
    (State.signal s p).free = s.free ∧
    (State.signal s p).rx = s.rx ∧
    (State.signal s p).keyq = s.keyq ∧
    (State.signal s p).txt = s.txt ∧
    (State.signal s p).ret = s.ret ∧
    (State.signal s p).set = s.set ∧
    (State.signal s p).ctr = s.ctr ∧
    (State.signal s p).tab = s.tab ∧
    (State.signal s p).intake = s.intake ∧
    (State.signal s p).comp = s.comp ∧
    (State.signal s p).seq = s.seq ∧
    (State.signal s p).drv = s.drv ∧
    (State.signal s p).line = s.line ∧
    (State.signal s p).spell = s.spell := by
  unfold State.signal
  (try dsimp only)
  (repeat' split) <;> first | rfl | done | simp_all

@[simp] theorem Eval.refused_frame (s : State) :
    (Eval.refused s).state.pending = s.pending ∧
    (Eval.refused s).state.resetHeld = s.resetHeld ∧
    (Eval.refused s).state.coverOpen = s.coverOpen ∧
    (Eval.refused s).state.free = s.free ∧
    (Eval.refused s).state.rx = s.rx ∧
    (Eval.refused s).state.keyq = s.keyq ∧
    (Eval.refused s).state.txt = s.txt ∧
    (Eval.refused s).state.ret = s.ret ∧
    (Eval.refused s).state.set = s.set ∧
    (Eval.refused s).state.ctr = s.ctr ∧
    (Eval.refused s).state.tab = s.tab ∧
    (Eval.refused s).state.intake = s.intake ∧
    (Eval.refused s).state.comp = s.comp ∧
    (Eval.refused s).state.seq = s.seq ∧
    (Eval.refused s).state.drv = s.drv ∧
    (Eval.refused s).state.line = s.line ∧
    (Eval.refused s).state.spell = s.spell := by
  unfold Eval.refused
  (try dsimp only)
  first | rfl | done | simp_all

@[simp] theorem Eval.taken_frame (s : State) :
    (Eval.taken s).state.pending = s.pending ∧
    (Eval.taken s).state.resetHeld = s.resetHeld ∧
    (Eval.taken s).state.coverOpen = s.coverOpen ∧
    (Eval.taken s).state.free = s.free ∧
    (Eval.taken s).state.rx = s.rx ∧
    (Eval.taken s).state.keyq = s.keyq ∧
    (Eval.taken s).state.txt = s.txt ∧
    (Eval.taken s).state.ret = s.ret ∧
    (Eval.taken s).state.set = s.set ∧
    (Eval.taken s).state.ctr = s.ctr ∧
    (Eval.taken s).state.tab = s.tab ∧
    (Eval.taken s).state.intake = s.intake ∧
    (Eval.taken s).state.comp = s.comp ∧
    (Eval.taken s).state.seq = s.seq ∧
    (Eval.taken s).state.drv = s.drv ∧
    (Eval.taken s).state.line = s.line ∧
    (Eval.taken s).state.spell = s.spell ∧
    (Eval.taken s).state.disp = s.disp := by
  unfold Eval.taken
  (try dsimp only)
  first | rfl | done | simp_all

@[simp] theorem Eval.waits_frame (s : State) (c : WaitCause) :
    (Eval.waits s c).state.pending = s.pending ∧
    (Eval.waits s c).state.resetHeld = s.resetHeld ∧
    (Eval.waits s c).state.coverOpen = s.coverOpen ∧
    (Eval.waits s c).state.free = s.free ∧
    (Eval.waits s c).state.rx = s.rx ∧
    (Eval.waits s c).state.keyq = s.keyq ∧
    (Eval.waits s c).state.txt = s.txt ∧
    (Eval.waits s c).state.ret = s.ret ∧
    (Eval.waits s c).state.set = s.set ∧
    (Eval.waits s c).state.ctr = s.ctr ∧
    (Eval.waits s c).state.tab = s.tab ∧
    (Eval.waits s c).state.intake = s.intake ∧
    (Eval.waits s c).state.comp = s.comp ∧
    (Eval.waits s c).state.seq = s.seq ∧
    (Eval.waits s c).state.drv = s.drv ∧
    (Eval.waits s c).state.line = s.line ∧
    (Eval.waits s c).state.spell = s.spell ∧
    (Eval.waits s c).state.disp = s.disp := by
  unfold Eval.waits
  (try dsimp only)
  first | rfl | done | simp_all

@[simp] theorem State.reportStrike_frame (s : State) (ref : Option Word) (num : Word) (f : StrikeStatus → StrikeStatus) :
    (State.reportStrike s ref num f).pending = s.pending ∧
    (State.reportStrike s ref num f).resetHeld = s.resetHeld ∧
    (State.reportStrike s ref num f).coverOpen = s.coverOpen ∧
    (State.reportStrike s ref num f).free = s.free ∧
    (State.reportStrike s ref num f).rx = s.rx ∧
    (State.reportStrike s ref num f).keyq = s.keyq ∧
    (State.reportStrike s ref num f).txt = s.txt ∧
    (State.reportStrike s ref num f).ret = s.ret ∧
    (State.reportStrike s ref num f).set = s.set ∧
    (State.reportStrike s ref num f).ctr = s.ctr ∧
    (State.reportStrike s ref num f).tab = s.tab ∧
    (State.reportStrike s ref num f).intake = s.intake ∧
    (State.reportStrike s ref num f).comp = s.comp ∧
    (State.reportStrike s ref num f).seq = s.seq ∧
    (State.reportStrike s ref num f).drv = s.drv ∧
    (State.reportStrike s ref num f).spell = s.spell ∧
    (State.reportStrike s ref num f).disp = s.disp := by
  unfold State.reportStrike
  (repeat' split) <;> first | rfl | done | simp_all

@[simp] theorem State.reportLeftFlight_frame (s : State) (x : Order) :
    (State.reportLeftFlight s x).pending = s.pending ∧
    (State.reportLeftFlight s x).resetHeld = s.resetHeld ∧
    (State.reportLeftFlight s x).coverOpen = s.coverOpen ∧
    (State.reportLeftFlight s x).free = s.free ∧
    (State.reportLeftFlight s x).rx = s.rx ∧
    (State.reportLeftFlight s x).keyq = s.keyq ∧
    (State.reportLeftFlight s x).txt = s.txt ∧
    (State.reportLeftFlight s x).ret = s.ret ∧
    (State.reportLeftFlight s x).set = s.set ∧
    (State.reportLeftFlight s x).ctr = s.ctr ∧
    (State.reportLeftFlight s x).tab = s.tab ∧
    (State.reportLeftFlight s x).intake = s.intake ∧
    (State.reportLeftFlight s x).comp = s.comp ∧
    (State.reportLeftFlight s x).seq = s.seq ∧
    (State.reportLeftFlight s x).drv = s.drv ∧
    (State.reportLeftFlight s x).spell = s.spell ∧
    (State.reportLeftFlight s x).disp = s.disp := by
  unfold State.reportLeftFlight
  (repeat' split) <;> first | rfl | done | simp_all

@[simp] theorem State.drawReached_frame (s : State) (n : ℕ) :
    (State.drawReached s n).2.pending = s.pending ∧
    (State.drawReached s n).2.resetHeld = s.resetHeld ∧
    (State.drawReached s n).2.coverOpen = s.coverOpen ∧
    (State.drawReached s n).2.rx = s.rx ∧
    (State.drawReached s n).2.keyq = s.keyq ∧
    (State.drawReached s n).2.txt = s.txt ∧
    (State.drawReached s n).2.ret = s.ret ∧
    (State.drawReached s n).2.set = s.set ∧
    (State.drawReached s n).2.ctr = s.ctr ∧
    (State.drawReached s n).2.tab = s.tab ∧
    (State.drawReached s n).2.intake = s.intake ∧
    (State.drawReached s n).2.comp = s.comp ∧
    (State.drawReached s n).2.seq = s.seq ∧
    (State.drawReached s n).2.drv = s.drv ∧
    (State.drawReached s n).2.line = s.line ∧
    (State.drawReached s n).2.spell = s.spell ∧
    (State.drawReached s n).2.disp = s.disp := by
  unfold State.drawReached
  (try dsimp only)
  first | rfl | done | simp_all

@[simp] theorem State.stopCarriage_frame (s : State) (dest : ℕ) :
    (State.stopCarriage s dest).pending = s.pending ∧
    (State.stopCarriage s dest).resetHeld = s.resetHeld ∧
    (State.stopCarriage s dest).coverOpen = s.coverOpen ∧
    (State.stopCarriage s dest).rx = s.rx ∧
    (State.stopCarriage s dest).keyq = s.keyq ∧
    (State.stopCarriage s dest).txt = s.txt ∧
    (State.stopCarriage s dest).ret = s.ret ∧
    (State.stopCarriage s dest).set = s.set ∧
    (State.stopCarriage s dest).ctr = s.ctr ∧
    (State.stopCarriage s dest).tab = s.tab ∧
    (State.stopCarriage s dest).intake = s.intake ∧
    (State.stopCarriage s dest).comp = s.comp ∧
    (State.stopCarriage s dest).drv = s.drv ∧
    (State.stopCarriage s dest).line = s.line ∧
    (State.stopCarriage s dest).spell = s.spell ∧
    (State.stopCarriage s dest).disp = s.disp := by
  unfold State.stopCarriage
  (try dsimp only)
  (repeat' split) <;> first | rfl | done | simp_all [State.drawReached]

@[simp] theorem State.popOrder_frame (s : State) :
    (State.popOrder s).pending = s.pending ∧
    (State.popOrder s).resetHeld = s.resetHeld ∧
    (State.popOrder s).coverOpen = s.coverOpen ∧
    (State.popOrder s).free = s.free ∧
    (State.popOrder s).rx = s.rx ∧
    (State.popOrder s).keyq = s.keyq ∧
    (State.popOrder s).txt = s.txt ∧
    (State.popOrder s).ret = s.ret ∧
    (State.popOrder s).set = s.set ∧
    (State.popOrder s).ctr = s.ctr ∧
    (State.popOrder s).tab = s.tab ∧
    (State.popOrder s).intake = s.intake ∧
    (State.popOrder s).comp = s.comp ∧
    (State.popOrder s).drv = s.drv ∧
    (State.popOrder s).line = s.line ∧
    (State.popOrder s).spell = s.spell ∧
    (State.popOrder s).disp = s.disp := by
  unfold State.popOrder
  (try dsimp only)
  first | rfl | done | simp_all

@[simp] theorem State.stopPaper_frame (s : State) (k : ℕ) :
    (State.stopPaper s k).pending = s.pending ∧
    (State.stopPaper s k).resetHeld = s.resetHeld ∧
    (State.stopPaper s k).coverOpen = s.coverOpen ∧
    (State.stopPaper s k).rx = s.rx ∧
    (State.stopPaper s k).keyq = s.keyq ∧
    (State.stopPaper s k).txt = s.txt ∧
    (State.stopPaper s k).ret = s.ret ∧
    (State.stopPaper s k).set = s.set ∧
    (State.stopPaper s k).ctr = s.ctr ∧
    (State.stopPaper s k).tab = s.tab ∧
    (State.stopPaper s k).intake = s.intake ∧
    (State.stopPaper s k).comp = s.comp ∧
    (State.stopPaper s k).drv = s.drv ∧
    (State.stopPaper s k).line = s.line ∧
    (State.stopPaper s k).spell = s.spell ∧
    (State.stopPaper s k).disp = s.disp := by
  unfold State.stopPaper
  (try dsimp only)
  (repeat' split) <;> first | rfl | done | simp_all [State.drawReached]

@[simp] theorem State.stopWheel_frame (s : State) (dest : ℕ) :
    (State.stopWheel s dest).pending = s.pending ∧
    (State.stopWheel s dest).resetHeld = s.resetHeld ∧
    (State.stopWheel s dest).coverOpen = s.coverOpen ∧
    (State.stopWheel s dest).rx = s.rx ∧
    (State.stopWheel s dest).keyq = s.keyq ∧
    (State.stopWheel s dest).txt = s.txt ∧
    (State.stopWheel s dest).ret = s.ret ∧
    (State.stopWheel s dest).set = s.set ∧
    (State.stopWheel s dest).ctr = s.ctr ∧
    (State.stopWheel s dest).tab = s.tab ∧
    (State.stopWheel s dest).intake = s.intake ∧
    (State.stopWheel s dest).comp = s.comp ∧
    (State.stopWheel s dest).drv = s.drv ∧
    (State.stopWheel s dest).line = s.line ∧
    (State.stopWheel s dest).spell = s.spell ∧
    (State.stopWheel s dest).disp = s.disp := by
  unfold State.stopWheel
  (try dsimp only)
  (repeat' split) <;> first | rfl | done | simp_all [State.drawReached]

@[simp] theorem State.abandonFlight_frame (s : State) :
    (State.abandonFlight s).pending = s.pending ∧
    (State.abandonFlight s).resetHeld = s.resetHeld ∧
    (State.abandonFlight s).coverOpen = s.coverOpen ∧
    (State.abandonFlight s).rx = s.rx ∧
    (State.abandonFlight s).keyq = s.keyq ∧
    (State.abandonFlight s).txt = s.txt ∧
    (State.abandonFlight s).ret = s.ret ∧
    (State.abandonFlight s).set = s.set ∧
    (State.abandonFlight s).ctr = s.ctr ∧
    (State.abandonFlight s).tab = s.tab ∧
    (State.abandonFlight s).intake = s.intake ∧
    (State.abandonFlight s).comp = s.comp ∧
    (State.abandonFlight s).drv = s.drv ∧
    (State.abandonFlight s).spell = s.spell ∧
    (State.abandonFlight s).disp = s.disp := by
  unfold State.abandonFlight
  (try dsimp only)
  (repeat' split) <;> first | rfl | done | simp_all

@[simp] theorem State.stopLift_frame (s : State) :
    (State.stopLift s).pending = s.pending ∧
    (State.stopLift s).resetHeld = s.resetHeld ∧
    (State.stopLift s).coverOpen = s.coverOpen ∧
    (State.stopLift s).free = s.free ∧
    (State.stopLift s).rx = s.rx ∧
    (State.stopLift s).keyq = s.keyq ∧
    (State.stopLift s).txt = s.txt ∧
    (State.stopLift s).ret = s.ret ∧
    (State.stopLift s).set = s.set ∧
    (State.stopLift s).ctr = s.ctr ∧
    (State.stopLift s).tab = s.tab ∧
    (State.stopLift s).intake = s.intake ∧
    (State.stopLift s).comp = s.comp ∧
    (State.stopLift s).drv = s.drv ∧
    (State.stopLift s).line = s.line ∧
    (State.stopLift s).spell = s.spell ∧
    (State.stopLift s).disp = s.disp := by
  unfold State.stopLift
  (try dsimp only)
  (repeat' split) <;> first | rfl | done | simp_all

@[simp] theorem State.stopTurning_frame (s : State) :
    (State.stopTurning s).pending = s.pending ∧
    (State.stopTurning s).resetHeld = s.resetHeld ∧
    (State.stopTurning s).coverOpen = s.coverOpen ∧
    (State.stopTurning s).rx = s.rx ∧
    (State.stopTurning s).keyq = s.keyq ∧
    (State.stopTurning s).txt = s.txt ∧
    (State.stopTurning s).ret = s.ret ∧
    (State.stopTurning s).set = s.set ∧
    (State.stopTurning s).ctr = s.ctr ∧
    (State.stopTurning s).tab = s.tab ∧
    (State.stopTurning s).intake = s.intake ∧
    (State.stopTurning s).comp = s.comp ∧
    (State.stopTurning s).drv = s.drv ∧
    (State.stopTurning s).line = s.line ∧
    (State.stopTurning s).spell = s.spell ∧
    (State.stopTurning s).disp = s.disp := by
  unfold State.stopTurning
  (try dsimp only)
  (repeat' split) <;> first | rfl | done | simp_all [State.drawReached]

@[simp] theorem State.abandonHoming_frame (s : State) :
    (State.abandonHoming s).pending = s.pending ∧
    (State.abandonHoming s).resetHeld = s.resetHeld ∧
    (State.abandonHoming s).coverOpen = s.coverOpen ∧
    (State.abandonHoming s).rx = s.rx ∧
    (State.abandonHoming s).keyq = s.keyq ∧
    (State.abandonHoming s).txt = s.txt ∧
    (State.abandonHoming s).ret = s.ret ∧
    (State.abandonHoming s).set = s.set ∧
    (State.abandonHoming s).ctr = s.ctr ∧
    (State.abandonHoming s).tab = s.tab ∧
    (State.abandonHoming s).intake = s.intake ∧
    (State.abandonHoming s).comp = s.comp ∧
    (State.abandonHoming s).drv = s.drv ∧
    (State.abandonHoming s).line = s.line ∧
    (State.abandonHoming s).spell = s.spell ∧
    (State.abandonHoming s).disp = s.disp := by
  unfold State.abandonHoming
  (try dsimp only)
  (repeat' split) <;> first | rfl | done | simp_all

@[simp] theorem State.answer_frame (s : State) (code : Byte) (o : CmdOutcome) (data : List Byte) :
    (State.answer s code o data).pending = s.pending ∧
    (State.answer s code o data).resetHeld = s.resetHeld ∧
    (State.answer s code o data).coverOpen = s.coverOpen ∧
    (State.answer s code o data).free = s.free ∧
    (State.answer s code o data).rx = s.rx ∧
    (State.answer s code o data).keyq = s.keyq ∧
    (State.answer s code o data).txt = s.txt ∧
    (State.answer s code o data).set = s.set ∧
    (State.answer s code o data).ctr = s.ctr ∧
    (State.answer s code o data).tab = s.tab ∧
    (State.answer s code o data).intake = s.intake ∧
    (State.answer s code o data).comp = s.comp ∧
    (State.answer s code o data).seq = s.seq ∧
    (State.answer s code o data).drv = s.drv ∧
    (State.answer s code o data).line = s.line ∧
    (State.answer s code o data).spell = s.spell ∧
    (State.answer s code o data).disp = s.disp := by
  unfold State.answer
  (try dsimp only)
  first | rfl | done | simp_all

@[simp] theorem State.abortSeal_frame (s : State) :
    (State.abortSeal s).pending = s.pending ∧
    (State.abortSeal s).resetHeld = s.resetHeld ∧
    (State.abortSeal s).coverOpen = s.coverOpen ∧
    (State.abortSeal s).free = s.free ∧
    (State.abortSeal s).rx = s.rx ∧
    (State.abortSeal s).keyq = s.keyq ∧
    (State.abortSeal s).txt = s.txt ∧
    (State.abortSeal s).set = s.set ∧
    (State.abortSeal s).ctr = s.ctr ∧
    (State.abortSeal s).intake = s.intake ∧
    (State.abortSeal s).comp = s.comp ∧
    (State.abortSeal s).seq = s.seq ∧
    (State.abortSeal s).drv = s.drv ∧
    (State.abortSeal s).line = s.line ∧
    (State.abortSeal s).spell = s.spell ∧
    (State.abortSeal s).disp = s.disp := by
  unfold State.abortSeal
  (try dsimp only)
  (repeat' split) <;> first | rfl | done | simp_all

@[simp] theorem State.formImage_frame (s : State) :
    (State.formImage s).pending = s.pending ∧
    (State.formImage s).resetHeld = s.resetHeld ∧
    (State.formImage s).coverOpen = s.coverOpen ∧
    (State.formImage s).free = s.free ∧
    (State.formImage s).rx = s.rx ∧
    (State.formImage s).keyq = s.keyq ∧
    (State.formImage s).txt = s.txt ∧
    (State.formImage s).ret = s.ret ∧
    (State.formImage s).set = s.set ∧
    (State.formImage s).ctr = s.ctr ∧
    (State.formImage s).tab = s.tab ∧
    (State.formImage s).intake = s.intake ∧
    (State.formImage s).comp = s.comp ∧
    (State.formImage s).seq = s.seq ∧
    (State.formImage s).drv = s.drv ∧
    (State.formImage s).line = s.line ∧
    (State.formImage s).spell = s.spell := by
  unfold State.formImage
  (try dsimp only)
  (repeat' split) <;> first | rfl | done | simp_all

@[simp] theorem State.raise_frame (s : State) (k : Counter) (n : ℕ) :
    (State.raise s k n).pending = s.pending ∧
    (State.raise s k n).resetHeld = s.resetHeld ∧
    (State.raise s k n).coverOpen = s.coverOpen ∧
    (State.raise s k n).free = s.free ∧
    (State.raise s k n).rx = s.rx ∧
    (State.raise s k n).keyq = s.keyq ∧
    (State.raise s k n).txt = s.txt ∧
    (State.raise s k n).ret = s.ret ∧
    (State.raise s k n).set = s.set ∧
    (State.raise s k n).tab = s.tab ∧
    (State.raise s k n).intake = s.intake ∧
    (State.raise s k n).comp = s.comp ∧
    (State.raise s k n).seq = s.seq ∧
    (State.raise s k n).drv = s.drv ∧
    (State.raise s k n).line = s.line ∧
    (State.raise s k n).spell = s.spell ∧
    (State.raise s k n).disp = s.disp := by
  unfold State.raise
  (try dsimp only)
  first | rfl | done | simp_all

@[simp] theorem State.appendStrikes_frame (s : State) (ref : Option Word) (set : List Strike) :
    (State.appendStrikes s ref set).pending = s.pending ∧
    (State.appendStrikes s ref set).resetHeld = s.resetHeld ∧
    (State.appendStrikes s ref set).coverOpen = s.coverOpen ∧
    (State.appendStrikes s ref set).free = s.free ∧
    (State.appendStrikes s ref set).rx = s.rx ∧
    (State.appendStrikes s ref set).keyq = s.keyq ∧
    (State.appendStrikes s ref set).txt = s.txt ∧
    (State.appendStrikes s ref set).ret = s.ret ∧
    (State.appendStrikes s ref set).set = s.set ∧
    (State.appendStrikes s ref set).tab = s.tab ∧
    (State.appendStrikes s ref set).intake = s.intake ∧
    (State.appendStrikes s ref set).comp = s.comp ∧
    (State.appendStrikes s ref set).drv = s.drv ∧
    (State.appendStrikes s ref set).line = s.line ∧
    (State.appendStrikes s ref set).spell = s.spell ∧
    (State.appendStrikes s ref set).disp = s.disp := by
  unfold State.appendStrikes
  (try dsimp only)
  (repeat' split) <;> first | rfl | done | simp_all

@[simp] theorem State.removeEntry_frame (s : State) (n : Word) :
    (State.removeEntry s n).pending = s.pending ∧
    (State.removeEntry s n).resetHeld = s.resetHeld ∧
    (State.removeEntry s n).coverOpen = s.coverOpen ∧
    (State.removeEntry s n).free = s.free ∧
    (State.removeEntry s n).rx = s.rx ∧
    (State.removeEntry s n).keyq = s.keyq ∧
    (State.removeEntry s n).txt = s.txt ∧
    (State.removeEntry s n).ret = s.ret ∧
    (State.removeEntry s n).set = s.set ∧
    (State.removeEntry s n).ctr = s.ctr ∧
    (State.removeEntry s n).tab = s.tab ∧
    (State.removeEntry s n).intake = s.intake ∧
    (State.removeEntry s n).comp = s.comp ∧
    (State.removeEntry s n).drv = s.drv ∧
    (State.removeEntry s n).spell = s.spell ∧
    (State.removeEntry s n).disp = s.disp := by
  unfold State.removeEntry
  (try dsimp only)
  first | rfl | done | simp_all

@[simp] theorem State.dropOldestEntry_frame (s : State) :
    (State.dropOldestEntry s).pending = s.pending ∧
    (State.dropOldestEntry s).resetHeld = s.resetHeld ∧
    (State.dropOldestEntry s).coverOpen = s.coverOpen ∧
    (State.dropOldestEntry s).free = s.free ∧
    (State.dropOldestEntry s).rx = s.rx ∧
    (State.dropOldestEntry s).keyq = s.keyq ∧
    (State.dropOldestEntry s).txt = s.txt ∧
    (State.dropOldestEntry s).ret = s.ret ∧
    (State.dropOldestEntry s).set = s.set ∧
    (State.dropOldestEntry s).ctr = s.ctr ∧
    (State.dropOldestEntry s).tab = s.tab ∧
    (State.dropOldestEntry s).intake = s.intake ∧
    (State.dropOldestEntry s).comp = s.comp ∧
    (State.dropOldestEntry s).drv = s.drv ∧
    (State.dropOldestEntry s).spell = s.spell ∧
    (State.dropOldestEntry s).disp = s.disp := by
  unfold State.dropOldestEntry
  (try dsimp only)
  (repeat' split) <;> first | rfl | done | simp_all

@[simp] theorem State.appendEntry_frame (s : State) (code : Byte) (kind : EntryKind) (pos : ℕ) (adv : ℕ) (set : List Strike) :
    (State.appendEntry s code kind pos adv set).pending = s.pending ∧
    (State.appendEntry s code kind pos adv set).resetHeld = s.resetHeld ∧
    (State.appendEntry s code kind pos adv set).coverOpen = s.coverOpen ∧
    (State.appendEntry s code kind pos adv set).free = s.free ∧
    (State.appendEntry s code kind pos adv set).rx = s.rx ∧
    (State.appendEntry s code kind pos adv set).keyq = s.keyq ∧
    (State.appendEntry s code kind pos adv set).txt = s.txt ∧
    (State.appendEntry s code kind pos adv set).ret = s.ret ∧
    (State.appendEntry s code kind pos adv set).set = s.set ∧
    (State.appendEntry s code kind pos adv set).tab = s.tab ∧
    (State.appendEntry s code kind pos adv set).intake = s.intake ∧
    (State.appendEntry s code kind pos adv set).comp = s.comp ∧
    (State.appendEntry s code kind pos adv set).drv = s.drv ∧
    (State.appendEntry s code kind pos adv set).spell = s.spell ∧
    (State.appendEntry s code kind pos adv set).disp = s.disp := by
  unfold State.appendEntry
  (try dsimp only)
  first | rfl | done | simp_all

@[simp] theorem State.event_frame (s : State) (e : Event) :
    (State.event s e).pending = s.pending ∧
    (State.event s e).resetHeld = s.resetHeld ∧
    (State.event s e).coverOpen = s.coverOpen ∧
    (State.event s e).free = s.free ∧
    (State.event s e).rx = s.rx ∧
    (State.event s e).keyq = s.keyq ∧
    (State.event s e).txt = s.txt ∧
    (State.event s e).set = s.set ∧
    (State.event s e).tab = s.tab ∧
    (State.event s e).intake = s.intake ∧
    (State.event s e).comp = s.comp ∧
    (State.event s e).seq = s.seq ∧
    (State.event s e).drv = s.drv ∧
    (State.event s e).line = s.line ∧
    (State.event s e).spell = s.spell ∧
    (State.event s e).disp = s.disp := by
  unfold State.event
  (try dsimp only)
  (repeat' split) <;> first | rfl | done | simp_all

@[simp] theorem State.hotZoneCheck_frame (s : State) (p : ℕ) :
    (State.hotZoneCheck s p).pending = s.pending ∧
    (State.hotZoneCheck s p).resetHeld = s.resetHeld ∧
    (State.hotZoneCheck s p).coverOpen = s.coverOpen ∧
    (State.hotZoneCheck s p).free = s.free ∧
    (State.hotZoneCheck s p).rx = s.rx ∧
    (State.hotZoneCheck s p).keyq = s.keyq ∧
    (State.hotZoneCheck s p).txt = s.txt ∧
    (State.hotZoneCheck s p).set = s.set ∧
    (State.hotZoneCheck s p).tab = s.tab ∧
    (State.hotZoneCheck s p).intake = s.intake ∧
    (State.hotZoneCheck s p).seq = s.seq ∧
    (State.hotZoneCheck s p).drv = s.drv ∧
    (State.hotZoneCheck s p).line = s.line ∧
    (State.hotZoneCheck s p).spell = s.spell := by
  unfold State.hotZoneCheck
  (try dsimp only)
  (repeat' split) <;> first | rfl | done | simp_all

@[simp] theorem State.enter_frame (s : State) (st : MechState) (r : Reason) :
    (State.enter s st r).pending = s.pending ∧
    (State.enter s st r).resetHeld = s.resetHeld ∧
    (State.enter s st r).coverOpen = s.coverOpen ∧
    (State.enter s st r).free = s.free ∧
    (State.enter s st r).rx = s.rx ∧
    (State.enter s st r).keyq = s.keyq ∧
    (State.enter s st r).txt = s.txt ∧
    (State.enter s st r).set = s.set ∧
    (State.enter s st r).tab = s.tab ∧
    (State.enter s st r).intake = s.intake ∧
    (State.enter s st r).comp = s.comp ∧
    (State.enter s st r).line = s.line ∧
    (State.enter s st r).spell = s.spell ∧
    (State.enter s st r).disp = s.disp := by
  unfold State.enter
  (try dsimp only)
  (repeat' split) <;> first | rfl | done | simp_all

@[simp] theorem State.enterWheelWait_frame (s : State) (x : WheelCondition) :
    (State.enterWheelWait s x).pending = s.pending ∧
    (State.enterWheelWait s x).resetHeld = s.resetHeld ∧
    (State.enterWheelWait s x).coverOpen = s.coverOpen ∧
    (State.enterWheelWait s x).free = s.free ∧
    (State.enterWheelWait s x).rx = s.rx ∧
    (State.enterWheelWait s x).keyq = s.keyq ∧
    (State.enterWheelWait s x).txt = s.txt ∧
    (State.enterWheelWait s x).set = s.set ∧
    (State.enterWheelWait s x).tab = s.tab ∧
    (State.enterWheelWait s x).intake = s.intake ∧
    (State.enterWheelWait s x).comp = s.comp ∧
    (State.enterWheelWait s x).line = s.line ∧
    (State.enterWheelWait s x).spell = s.spell ∧
    (State.enterWheelWait s x).disp = s.disp := by
  unfold State.enterWheelWait
  (repeat' split) <;> first | rfl | done | simp_all

@[simp] theorem State.setVerdict_frame (s : State) (n : Word) (v : Verdict) :
    (State.setVerdict s n v).pending = s.pending ∧
    (State.setVerdict s n v).resetHeld = s.resetHeld ∧
    (State.setVerdict s n v).coverOpen = s.coverOpen ∧
    (State.setVerdict s n v).free = s.free ∧
    (State.setVerdict s n v).rx = s.rx ∧
    (State.setVerdict s n v).keyq = s.keyq ∧
    (State.setVerdict s n v).txt = s.txt ∧
    (State.setVerdict s n v).ret = s.ret ∧
    (State.setVerdict s n v).set = s.set ∧
    (State.setVerdict s n v).ctr = s.ctr ∧
    (State.setVerdict s n v).tab = s.tab ∧
    (State.setVerdict s n v).intake = s.intake ∧
    (State.setVerdict s n v).comp = s.comp ∧
    (State.setVerdict s n v).seq = s.seq ∧
    (State.setVerdict s n v).drv = s.drv ∧
    (State.setVerdict s n v).line = s.line ∧
    (State.setVerdict s n v).disp = s.disp := by
  unfold State.setVerdict
  (try dsimp only)
  first | rfl | done | simp_all

@[simp] theorem State.dropOldest_frame (s : State) :
    (State.dropOldest s).pending = s.pending ∧
    (State.dropOldest s).resetHeld = s.resetHeld ∧
    (State.dropOldest s).coverOpen = s.coverOpen ∧
    (State.dropOldest s).free = s.free ∧
    (State.dropOldest s).rx = s.rx ∧
    (State.dropOldest s).keyq = s.keyq ∧
    (State.dropOldest s).txt = s.txt ∧
    (State.dropOldest s).ret = s.ret ∧
    (State.dropOldest s).set = s.set ∧
    (State.dropOldest s).tab = s.tab ∧
    (State.dropOldest s).intake = s.intake ∧
    (State.dropOldest s).comp = s.comp ∧
    (State.dropOldest s).seq = s.seq ∧
    (State.dropOldest s).drv = s.drv ∧
    (State.dropOldest s).line = s.line ∧
    (State.dropOldest s).disp = s.disp := by
  unfold State.dropOldest
  (try dsimp only)
  (repeat' split) <;> first | rfl | done | simp_all

@[simp] theorem State.pumpEngine_frame (s : State) :
    (State.pumpEngine s).pending = s.pending ∧
    (State.pumpEngine s).resetHeld = s.resetHeld ∧
    (State.pumpEngine s).coverOpen = s.coverOpen ∧
    (State.pumpEngine s).free = s.free ∧
    (State.pumpEngine s).rx = s.rx ∧
    (State.pumpEngine s).keyq = s.keyq ∧
    (State.pumpEngine s).txt = s.txt ∧
    (State.pumpEngine s).ret = s.ret ∧
    (State.pumpEngine s).set = s.set ∧
    (State.pumpEngine s).ctr = s.ctr ∧
    (State.pumpEngine s).tab = s.tab ∧
    (State.pumpEngine s).intake = s.intake ∧
    (State.pumpEngine s).comp = s.comp ∧
    (State.pumpEngine s).seq = s.seq ∧
    (State.pumpEngine s).drv = s.drv ∧
    (State.pumpEngine s).line = s.line ∧
    (State.pumpEngine s).disp = s.disp := by
  unfold State.pumpEngine
  (try dsimp only)
  (repeat' split) <;> first | rfl | done | simp_all

@[simp] theorem State.appendCheck_frame (s : State) (n : Word) :
    (State.appendCheck s n).pending = s.pending ∧
    (State.appendCheck s n).resetHeld = s.resetHeld ∧
    (State.appendCheck s n).coverOpen = s.coverOpen ∧
    (State.appendCheck s n).free = s.free ∧
    (State.appendCheck s n).rx = s.rx ∧
    (State.appendCheck s n).keyq = s.keyq ∧
    (State.appendCheck s n).txt = s.txt ∧
    (State.appendCheck s n).ret = s.ret ∧
    (State.appendCheck s n).set = s.set ∧
    (State.appendCheck s n).tab = s.tab ∧
    (State.appendCheck s n).intake = s.intake ∧
    (State.appendCheck s n).comp = s.comp ∧
    (State.appendCheck s n).seq = s.seq ∧
    (State.appendCheck s n).drv = s.drv ∧
    (State.appendCheck s n).line = s.line ∧
    (State.appendCheck s n).disp = s.disp := by
  unfold State.appendCheck
  (try dsimp only)
  (repeat' split) <;> first | rfl | done | simp_all

@[simp] theorem State.enterQueue_frame (s : State) (n : Word) :
    (State.enterQueue s n).pending = s.pending ∧
    (State.enterQueue s n).resetHeld = s.resetHeld ∧
    (State.enterQueue s n).coverOpen = s.coverOpen ∧
    (State.enterQueue s n).free = s.free ∧
    (State.enterQueue s n).rx = s.rx ∧
    (State.enterQueue s n).keyq = s.keyq ∧
    (State.enterQueue s n).txt = s.txt ∧
    (State.enterQueue s n).ret = s.ret ∧
    (State.enterQueue s n).set = s.set ∧
    (State.enterQueue s n).tab = s.tab ∧
    (State.enterQueue s n).intake = s.intake ∧
    (State.enterQueue s n).comp = s.comp ∧
    (State.enterQueue s n).seq = s.seq ∧
    (State.enterQueue s n).drv = s.drv ∧
    (State.enterQueue s n).line = s.line ∧
    (State.enterQueue s n).disp = s.disp := by
  unfold State.enterQueue
  (try dsimp only)
  (repeat' split) <;> first | rfl | done | simp_all

@[simp] theorem State.checkWord_frame (s : State) (n : Word) :
    (State.checkWord s n).pending = s.pending ∧
    (State.checkWord s n).resetHeld = s.resetHeld ∧
    (State.checkWord s n).coverOpen = s.coverOpen ∧
    (State.checkWord s n).free = s.free ∧
    (State.checkWord s n).rx = s.rx ∧
    (State.checkWord s n).keyq = s.keyq ∧
    (State.checkWord s n).txt = s.txt ∧
    (State.checkWord s n).ret = s.ret ∧
    (State.checkWord s n).set = s.set ∧
    (State.checkWord s n).tab = s.tab ∧
    (State.checkWord s n).intake = s.intake ∧
    (State.checkWord s n).comp = s.comp ∧
    (State.checkWord s n).seq = s.seq ∧
    (State.checkWord s n).drv = s.drv ∧
    (State.checkWord s n).line = s.line ∧
    (State.checkWord s n).disp = s.disp := by
  unfold State.checkWord
  (repeat' split) <;> first | rfl | done | simp_all

@[simp] theorem State.setRefs_frame (s : State) (refs : List (Word × List ℕ)) :
    (State.setRefs s refs).pending = s.pending ∧
    (State.setRefs s refs).resetHeld = s.resetHeld ∧
    (State.setRefs s refs).coverOpen = s.coverOpen ∧
    (State.setRefs s refs).free = s.free ∧
    (State.setRefs s refs).rx = s.rx ∧
    (State.setRefs s refs).keyq = s.keyq ∧
    (State.setRefs s refs).txt = s.txt ∧
    (State.setRefs s refs).ret = s.ret ∧
    (State.setRefs s refs).set = s.set ∧
    (State.setRefs s refs).ctr = s.ctr ∧
    (State.setRefs s refs).tab = s.tab ∧
    (State.setRefs s refs).intake = s.intake ∧
    (State.setRefs s refs).seq = s.seq ∧
    (State.setRefs s refs).drv = s.drv ∧
    (State.setRefs s refs).spell = s.spell ∧
    (State.setRefs s refs).disp = s.disp := by
  unfold State.setRefs
  (try dsimp only)
  (repeat' split) <;> first | rfl | done | simp_all

@[simp] theorem State.runSweep_frame (x : ℕ) (x' : State) :
    (State.runSweep x x').pending = x'.pending ∧
    (State.runSweep x x').resetHeld = x'.resetHeld ∧
    (State.runSweep x x').coverOpen = x'.coverOpen ∧
    (State.runSweep x x').free = x'.free ∧
    (State.runSweep x x').rx = x'.rx ∧
    (State.runSweep x x').keyq = x'.keyq ∧
    (State.runSweep x x').txt = x'.txt ∧
    (State.runSweep x x').ret = x'.ret ∧
    (State.runSweep x x').set = x'.set ∧
    (State.runSweep x x').tab = x'.tab ∧
    (State.runSweep x x').intake = x'.intake ∧
    (State.runSweep x x').comp = x'.comp ∧
    (State.runSweep x x').seq = x'.seq ∧
    (State.runSweep x x').drv = x'.drv ∧
    (State.runSweep x x').line = x'.line ∧
    (State.runSweep x x').disp = x'.disp := by
  induction x generalizing x' with
  | zero => simp [State.runSweep]
  | succ k ih =>
    unfold State.runSweep
    dsimp only
    (repeat' split) <;> simp_all

@[simp] theorem State.spellOn_frame (s : State) :
    (State.spellOn s).pending = s.pending ∧
    (State.spellOn s).resetHeld = s.resetHeld ∧
    (State.spellOn s).coverOpen = s.coverOpen ∧
    (State.spellOn s).free = s.free ∧
    (State.spellOn s).rx = s.rx ∧
    (State.spellOn s).keyq = s.keyq ∧
    (State.spellOn s).txt = s.txt ∧
    (State.spellOn s).ret = s.ret ∧
    (State.spellOn s).set = s.set ∧
    (State.spellOn s).tab = s.tab ∧
    (State.spellOn s).intake = s.intake ∧
    (State.spellOn s).comp = s.comp ∧
    (State.spellOn s).seq = s.seq ∧
    (State.spellOn s).drv = s.drv ∧
    (State.spellOn s).line = s.line ∧
    (State.spellOn s).disp = s.disp := by
  unfold State.spellOn
  (try dsimp only)
  first | rfl | done | simp_all

@[simp] theorem State.checkWord_fold_frame (l : List Word) (s : State) :
    (l.foldl State.checkWord s).pending = s.pending ∧
    (l.foldl State.checkWord s).resetHeld = s.resetHeld ∧
    (l.foldl State.checkWord s).coverOpen = s.coverOpen ∧
    (l.foldl State.checkWord s).free = s.free ∧
    (l.foldl State.checkWord s).rx = s.rx ∧
    (l.foldl State.checkWord s).keyq = s.keyq ∧
    (l.foldl State.checkWord s).txt = s.txt ∧
    (l.foldl State.checkWord s).ret = s.ret ∧
    (l.foldl State.checkWord s).set = s.set ∧
    (l.foldl State.checkWord s).tab = s.tab ∧
    (l.foldl State.checkWord s).intake = s.intake ∧
    (l.foldl State.checkWord s).comp = s.comp ∧
    (l.foldl State.checkWord s).seq = s.seq ∧
    (l.foldl State.checkWord s).drv = s.drv ∧
    (l.foldl State.checkWord s).line = s.line ∧
    (l.foldl State.checkWord s).disp = s.disp := by
  induction l generalizing s with
  | nil => simp
  | cons a l ih => simp [ih]

@[simp] theorem State.respell_frame (s : State) :
    (State.respell s).pending = s.pending ∧
    (State.respell s).resetHeld = s.resetHeld ∧
    (State.respell s).coverOpen = s.coverOpen ∧
    (State.respell s).free = s.free ∧
    (State.respell s).rx = s.rx ∧
    (State.respell s).keyq = s.keyq ∧
    (State.respell s).txt = s.txt ∧
    (State.respell s).ret = s.ret ∧
    (State.respell s).set = s.set ∧
    (State.respell s).tab = s.tab ∧
    (State.respell s).intake = s.intake ∧
    (State.respell s).seq = s.seq ∧
    (State.respell s).drv = s.drv ∧
    (State.respell s).disp = s.disp := by
  unfold State.respell
  (try dsimp only)
  first | rfl | done | simp_all

@[simp] theorem State.reachBoundary_frame (s : State) :
    (State.reachBoundary s).pending = s.pending ∧
    (State.reachBoundary s).resetHeld = s.resetHeld ∧
    (State.reachBoundary s).coverOpen = s.coverOpen ∧
    (State.reachBoundary s).free = s.free ∧
    (State.reachBoundary s).rx = s.rx ∧
    (State.reachBoundary s).keyq = s.keyq ∧
    (State.reachBoundary s).txt = s.txt ∧
    (State.reachBoundary s).ret = s.ret ∧
    (State.reachBoundary s).set = s.set ∧
    (State.reachBoundary s).tab = s.tab ∧
    (State.reachBoundary s).intake = s.intake ∧
    (State.reachBoundary s).seq = s.seq ∧
    (State.reachBoundary s).drv = s.drv := by
  unfold State.reachBoundary
  (try dsimp only)
  (repeat' split) <;> first | rfl | done | simp_all

@[simp] theorem State.boundaryAfter_frame (was : Bool) (s : State) :
    (State.boundaryAfter was s).pending = s.pending ∧
    (State.boundaryAfter was s).resetHeld = s.resetHeld ∧
    (State.boundaryAfter was s).coverOpen = s.coverOpen ∧
    (State.boundaryAfter was s).free = s.free ∧
    (State.boundaryAfter was s).rx = s.rx ∧
    (State.boundaryAfter was s).keyq = s.keyq ∧
    (State.boundaryAfter was s).txt = s.txt ∧
    (State.boundaryAfter was s).ret = s.ret ∧
    (State.boundaryAfter was s).set = s.set ∧
    (State.boundaryAfter was s).tab = s.tab ∧
    (State.boundaryAfter was s).intake = s.intake ∧
    (State.boundaryAfter was s).seq = s.seq ∧
    (State.boundaryAfter was s).drv = s.drv := by
  unfold State.boundaryAfter
  (repeat' split) <;> first | rfl | done | simp_all

@[simp] theorem State.moveWindow_frame (s : State) :
    (State.moveWindow s).pending = s.pending ∧
    (State.moveWindow s).resetHeld = s.resetHeld ∧
    (State.moveWindow s).coverOpen = s.coverOpen ∧
    (State.moveWindow s).free = s.free ∧
    (State.moveWindow s).rx = s.rx ∧
    (State.moveWindow s).keyq = s.keyq ∧
    (State.moveWindow s).txt = s.txt ∧
    (State.moveWindow s).ret = s.ret ∧
    (State.moveWindow s).set = s.set ∧
    (State.moveWindow s).ctr = s.ctr ∧
    (State.moveWindow s).tab = s.tab ∧
    (State.moveWindow s).intake = s.intake ∧
    (State.moveWindow s).comp = s.comp ∧
    (State.moveWindow s).seq = s.seq ∧
    (State.moveWindow s).drv = s.drv ∧
    (State.moveWindow s).line = s.line ∧
    (State.moveWindow s).spell = s.spell := by
  unfold State.moveWindow
  (try dsimp only)
  first | rfl | done | simp_all

@[simp] theorem State.trimMarks_frame (s : State) :
    (State.trimMarks s).pending = s.pending ∧
    (State.trimMarks s).resetHeld = s.resetHeld ∧
    (State.trimMarks s).coverOpen = s.coverOpen ∧
    (State.trimMarks s).free = s.free ∧
    (State.trimMarks s).rx = s.rx ∧
    (State.trimMarks s).keyq = s.keyq ∧
    (State.trimMarks s).txt = s.txt ∧
    (State.trimMarks s).ret = s.ret ∧
    (State.trimMarks s).set = s.set ∧
    (State.trimMarks s).ctr = s.ctr ∧
    (State.trimMarks s).tab = s.tab ∧
    (State.trimMarks s).intake = s.intake ∧
    (State.trimMarks s).comp = s.comp ∧
    (State.trimMarks s).seq = s.seq ∧
    (State.trimMarks s).drv = s.drv ∧
    (State.trimMarks s).line = s.line ∧
    (State.trimMarks s).disp = s.disp := by
  unfold State.trimMarks
  (try dsimp only)
  first | rfl | done | simp_all

@[simp] theorem State.followText_frame (s : State) :
    (State.followText s).pending = s.pending ∧
    (State.followText s).resetHeld = s.resetHeld ∧
    (State.followText s).coverOpen = s.coverOpen ∧
    (State.followText s).free = s.free ∧
    (State.followText s).rx = s.rx ∧
    (State.followText s).keyq = s.keyq ∧
    (State.followText s).txt = s.txt ∧
    (State.followText s).ret = s.ret ∧
    (State.followText s).set = s.set ∧
    (State.followText s).tab = s.tab ∧
    (State.followText s).intake = s.intake ∧
    (State.followText s).seq = s.seq ∧
    (State.followText s).drv = s.drv := by
  unfold State.followText
  first | rfl | done | simp_all

@[simp] theorem State.textChanged_frame (was : Bool) (s : State) :
    (State.textChanged was s).pending = s.pending ∧
    (State.textChanged was s).resetHeld = s.resetHeld ∧
    (State.textChanged was s).coverOpen = s.coverOpen ∧
    (State.textChanged was s).free = s.free ∧
    (State.textChanged was s).rx = s.rx ∧
    (State.textChanged was s).keyq = s.keyq ∧
    (State.textChanged was s).txt = s.txt ∧
    (State.textChanged was s).ret = s.ret ∧
    (State.textChanged was s).set = s.set ∧
    (State.textChanged was s).tab = s.tab ∧
    (State.textChanged was s).intake = s.intake ∧
    (State.textChanged was s).seq = s.seq ∧
    (State.textChanged was s).drv = s.drv := by
  unfold State.textChanged
  first | rfl | done | simp_all

@[simp] theorem State.reportLift_frame (s : State) (ref : Option Word) (skipped : Bool) :
    (State.reportLift s ref skipped).pending = s.pending ∧
    (State.reportLift s ref skipped).resetHeld = s.resetHeld ∧
    (State.reportLift s ref skipped).coverOpen = s.coverOpen ∧
    (State.reportLift s ref skipped).free = s.free ∧
    (State.reportLift s ref skipped).rx = s.rx ∧
    (State.reportLift s ref skipped).keyq = s.keyq ∧
    (State.reportLift s ref skipped).txt = s.txt ∧
    (State.reportLift s ref skipped).ret = s.ret ∧
    (State.reportLift s ref skipped).set = s.set ∧
    (State.reportLift s ref skipped).tab = s.tab ∧
    (State.reportLift s ref skipped).intake = s.intake ∧
    (State.reportLift s ref skipped).drv = s.drv := by
  unfold State.reportLift
  (try dsimp only)
  (repeat' split) <;> first | rfl | done | simp_all

@[simp] theorem State.reportSkipped_frame (s : State) (x : Order) :
    (State.reportSkipped s x).pending = s.pending ∧
    (State.reportSkipped s x).resetHeld = s.resetHeld ∧
    (State.reportSkipped s x).coverOpen = s.coverOpen ∧
    (State.reportSkipped s x).free = s.free ∧
    (State.reportSkipped s x).rx = s.rx ∧
    (State.reportSkipped s x).keyq = s.keyq ∧
    (State.reportSkipped s x).txt = s.txt ∧
    (State.reportSkipped s x).ret = s.ret ∧
    (State.reportSkipped s x).set = s.set ∧
    (State.reportSkipped s x).tab = s.tab ∧
    (State.reportSkipped s x).intake = s.intake ∧
    (State.reportSkipped s x).drv = s.drv := by
  unfold State.reportSkipped
  (repeat' split) <;> first | rfl | done | simp_all

@[simp] theorem State.skipOrder_frame (s : State) (o : Order) :
    (State.skipOrder s o).pending = s.pending ∧
    (State.skipOrder s o).resetHeld = s.resetHeld ∧
    (State.skipOrder s o).coverOpen = s.coverOpen ∧
    (State.skipOrder s o).free = s.free ∧
    (State.skipOrder s o).rx = s.rx ∧
    (State.skipOrder s o).keyq = s.keyq ∧
    (State.skipOrder s o).txt = s.txt ∧
    (State.skipOrder s o).set = s.set ∧
    (State.skipOrder s o).tab = s.tab ∧
    (State.skipOrder s o).intake = s.intake ∧
    (State.skipOrder s o).drv = s.drv := by
  unfold State.skipOrder
  (try dsimp only)
  (repeat' split) <;> first | rfl | done | simp_all

@[simp] theorem State.reportInFlight_frame (s : State) (x : Order) :
    (State.reportInFlight s x).pending = s.pending ∧
    (State.reportInFlight s x).resetHeld = s.resetHeld ∧
    (State.reportInFlight s x).coverOpen = s.coverOpen ∧
    (State.reportInFlight s x).free = s.free ∧
    (State.reportInFlight s x).rx = s.rx ∧
    (State.reportInFlight s x).keyq = s.keyq ∧
    (State.reportInFlight s x).txt = s.txt ∧
    (State.reportInFlight s x).ret = s.ret ∧
    (State.reportInFlight s x).set = s.set ∧
    (State.reportInFlight s x).ctr = s.ctr ∧
    (State.reportInFlight s x).tab = s.tab ∧
    (State.reportInFlight s x).intake = s.intake ∧
    (State.reportInFlight s x).comp = s.comp ∧
    (State.reportInFlight s x).seq = s.seq ∧
    (State.reportInFlight s x).drv = s.drv ∧
    (State.reportInFlight s x).spell = s.spell ∧
    (State.reportInFlight s x).disp = s.disp := by
  unfold State.reportInFlight
  (repeat' split) <;> first | rfl | done | simp_all

@[simp] theorem State.startPosition_frame (s : State) (o : Order) (petal : ℕ) (level : ℕ) :
    (State.startPosition s o petal level).pending = s.pending ∧
    (State.startPosition s o petal level).resetHeld = s.resetHeld ∧
    (State.startPosition s o petal level).coverOpen = s.coverOpen ∧
    (State.startPosition s o petal level).free = s.free ∧
    (State.startPosition s o petal level).rx = s.rx ∧
    (State.startPosition s o petal level).keyq = s.keyq ∧
    (State.startPosition s o petal level).txt = s.txt ∧
    (State.startPosition s o petal level).ret = s.ret ∧
    (State.startPosition s o petal level).set = s.set ∧
    (State.startPosition s o petal level).ctr = s.ctr ∧
    (State.startPosition s o petal level).tab = s.tab ∧
    (State.startPosition s o petal level).intake = s.intake ∧
    (State.startPosition s o petal level).comp = s.comp ∧
    (State.startPosition s o petal level).drv = s.drv ∧
    (State.startPosition s o petal level).spell = s.spell ∧
    (State.startPosition s o petal level).disp = s.disp := by
  unfold State.startPosition
  (try dsimp only)
  first | rfl | done | simp_all

@[simp] theorem State.runOrders_frame (x : ℕ) (x' : State) :
    (State.runOrders x x').pending = x'.pending ∧
    (State.runOrders x x').resetHeld = x'.resetHeld ∧
    (State.runOrders x x').coverOpen = x'.coverOpen ∧
    (State.runOrders x x').free = x'.free ∧
    (State.runOrders x x').rx = x'.rx ∧
    (State.runOrders x x').keyq = x'.keyq ∧
    (State.runOrders x x').txt = x'.txt ∧
    (State.runOrders x x').set = x'.set ∧
    (State.runOrders x x').tab = x'.tab ∧
    (State.runOrders x x').intake = x'.intake := by
  induction x generalizing x' with
  | zero => simp [State.runOrders]
  | succ k ih =>
    unfold State.runOrders
    dsimp only
    (repeat' split) <;> simp_all

@[simp] theorem State.runQueue_frame (s : State) :
    (State.runQueue s).pending = s.pending ∧
    (State.runQueue s).resetHeld = s.resetHeld ∧
    (State.runQueue s).coverOpen = s.coverOpen ∧
    (State.runQueue s).free = s.free ∧
    (State.runQueue s).rx = s.rx ∧
    (State.runQueue s).keyq = s.keyq ∧
    (State.runQueue s).txt = s.txt ∧
    (State.runQueue s).set = s.set ∧
    (State.runQueue s).tab = s.tab ∧
    (State.runQueue s).intake = s.intake := by
  unfold State.runQueue
  first | rfl | done | simp_all

@[simp] theorem State.kick_frame (s : State) :
    (State.kick s).pending = s.pending ∧
    (State.kick s).resetHeld = s.resetHeld ∧
    (State.kick s).coverOpen = s.coverOpen ∧
    (State.kick s).free = s.free ∧
    (State.kick s).rx = s.rx ∧
    (State.kick s).keyq = s.keyq ∧
    (State.kick s).txt = s.txt ∧
    (State.kick s).set = s.set ∧
    (State.kick s).tab = s.tab ∧
    (State.kick s).intake = s.intake := by
  unfold State.kick
  (repeat' split) <;> first | rfl | done | simp_all

@[simp] theorem State.takeDirect_frame (s : State) (code : Byte) (isDead : Bool) (bold : Bool) (underline : Bool) :
    (State.takeDirect s code isDead bold underline).pending = s.pending ∧
    (State.takeDirect s code isDead bold underline).resetHeld = s.resetHeld ∧
    (State.takeDirect s code isDead bold underline).coverOpen = s.coverOpen ∧
    (State.takeDirect s code isDead bold underline).free = s.free ∧
    (State.takeDirect s code isDead bold underline).rx = s.rx ∧
    (State.takeDirect s code isDead bold underline).keyq = s.keyq ∧
    (State.takeDirect s code isDead bold underline).txt = s.txt ∧
    (State.takeDirect s code isDead bold underline).set = s.set ∧
    (State.takeDirect s code isDead bold underline).tab = s.tab ∧
    (State.takeDirect s code isDead bold underline).intake = s.intake := by
  unfold State.takeDirect
  (try dsimp only)
  (repeat' split) <;> first | rfl | done | simp_all

@[simp] theorem State.placeDirect_frame (s : State) (code : Byte) (isDead : Bool) (bold : Bool) (underline : Bool) :
    (State.placeDirect s code isDead bold underline).state.pending = s.pending ∧
    (State.placeDirect s code isDead bold underline).state.resetHeld = s.resetHeld ∧
    (State.placeDirect s code isDead bold underline).state.coverOpen = s.coverOpen ∧
    (State.placeDirect s code isDead bold underline).state.free = s.free ∧
    (State.placeDirect s code isDead bold underline).state.rx = s.rx ∧
    (State.placeDirect s code isDead bold underline).state.keyq = s.keyq ∧
    (State.placeDirect s code isDead bold underline).state.txt = s.txt ∧
    (State.placeDirect s code isDead bold underline).state.set = s.set ∧
    (State.placeDirect s code isDead bold underline).state.tab = s.tab ∧
    (State.placeDirect s code isDead bold underline).state.intake = s.intake := by
  unfold State.placeDirect
  simp only [State.withRoom]
  (repeat' split) <;> simp_all [Eval.taken, Eval.waits]

@[simp] theorem State.directKeyChar_frame (s : State) (code : Byte) (isDead : Bool) :
    (State.directKeyChar s code isDead).state.pending = s.pending ∧
    (State.directKeyChar s code isDead).state.resetHeld = s.resetHeld ∧
    (State.directKeyChar s code isDead).state.coverOpen = s.coverOpen ∧
    (State.directKeyChar s code isDead).state.free = s.free ∧
    (State.directKeyChar s code isDead).state.rx = s.rx ∧
    (State.directKeyChar s code isDead).state.keyq = s.keyq ∧
    (State.directKeyChar s code isDead).state.txt = s.txt ∧
    (State.directKeyChar s code isDead).state.set = s.set ∧
    (State.directKeyChar s code isDead).state.tab = s.tab ∧
    (State.directKeyChar s code isDead).state.intake = s.intake := by
  unfold State.directKeyChar
  (repeat' split) <;> first | rfl | done | simp_all [Eval.refused]

@[simp] theorem State.syncCursor_frame (s : State) :
    (State.syncCursor s).pending = s.pending ∧
    (State.syncCursor s).resetHeld = s.resetHeld ∧
    (State.syncCursor s).coverOpen = s.coverOpen ∧
    (State.syncCursor s).free = s.free ∧
    (State.syncCursor s).rx = s.rx ∧
    (State.syncCursor s).keyq = s.keyq ∧
    (State.syncCursor s).txt = s.txt ∧
    (State.syncCursor s).ret = s.ret ∧
    (State.syncCursor s).set = s.set ∧
    (State.syncCursor s).ctr = s.ctr ∧
    (State.syncCursor s).tab = s.tab ∧
    (State.syncCursor s).intake = s.intake ∧
    (State.syncCursor s).seq = s.seq ∧
    (State.syncCursor s).drv = s.drv ∧
    (State.syncCursor s).line = s.line ∧
    (State.syncCursor s).spell = s.spell ∧
    (State.syncCursor s).disp = s.disp := by
  unfold State.syncCursor
  (try dsimp only)
  (repeat' split) <;> first | rfl | done | simp_all

@[simp] theorem State.editRecs_frame (s : State) (recs : List CompRec) (cursor : ℕ) :
    (State.editRecs s recs cursor).pending = s.pending ∧
    (State.editRecs s recs cursor).resetHeld = s.resetHeld ∧
    (State.editRecs s recs cursor).coverOpen = s.coverOpen ∧
    (State.editRecs s recs cursor).free = s.free ∧
    (State.editRecs s recs cursor).rx = s.rx ∧
    (State.editRecs s recs cursor).keyq = s.keyq ∧
    (State.editRecs s recs cursor).txt = s.txt ∧
    (State.editRecs s recs cursor).ret = s.ret ∧
    (State.editRecs s recs cursor).set = s.set ∧
    (State.editRecs s recs cursor).tab = s.tab ∧
    (State.editRecs s recs cursor).intake = s.intake ∧
    (State.editRecs s recs cursor).seq = s.seq ∧
    (State.editRecs s recs cursor).drv = s.drv := by
  unfold State.editRecs
  (try dsimp only)
  first | rfl | done | simp_all

@[simp] theorem State.insertRec_frame (s : State) (c : CompRec) :
    (State.insertRec s c).pending = s.pending ∧
    (State.insertRec s c).resetHeld = s.resetHeld ∧
    (State.insertRec s c).coverOpen = s.coverOpen ∧
    (State.insertRec s c).free = s.free ∧
    (State.insertRec s c).rx = s.rx ∧
    (State.insertRec s c).keyq = s.keyq ∧
    (State.insertRec s c).txt = s.txt ∧
    (State.insertRec s c).set = s.set ∧
    (State.insertRec s c).tab = s.tab ∧
    (State.insertRec s c).intake = s.intake ∧
    (State.insertRec s c).seq = s.seq ∧
    (State.insertRec s c).drv = s.drv := by
  unfold State.insertRec
  (try dsimp only)
  (repeat' split) <;> first | rfl | done | simp_all

@[simp] theorem State.completeWords_frame (s : State) (within : SpellWord → Bool) :
    (State.completeWords s within).pending = s.pending ∧
    (State.completeWords s within).resetHeld = s.resetHeld ∧
    (State.completeWords s within).coverOpen = s.coverOpen ∧
    (State.completeWords s within).free = s.free ∧
    (State.completeWords s within).rx = s.rx ∧
    (State.completeWords s within).keyq = s.keyq ∧
    (State.completeWords s within).txt = s.txt ∧
    (State.completeWords s within).ret = s.ret ∧
    (State.completeWords s within).set = s.set ∧
    (State.completeWords s within).tab = s.tab ∧
    (State.completeWords s within).intake = s.intake ∧
    (State.completeWords s within).comp = s.comp ∧
    (State.completeWords s within).seq = s.seq ∧
    (State.completeWords s within).drv = s.drv ∧
    (State.completeWords s within).line = s.line ∧
    (State.completeWords s within).disp = s.disp := by
  unfold State.completeWords
  (try dsimp only)
  first | rfl | done | simp_all

@[simp] theorem State.moveCursor_frame (s : State) (c : ℕ) :
    (State.moveCursor s c).pending = s.pending ∧
    (State.moveCursor s c).resetHeld = s.resetHeld ∧
    (State.moveCursor s c).coverOpen = s.coverOpen ∧
    (State.moveCursor s c).free = s.free ∧
    (State.moveCursor s c).rx = s.rx ∧
    (State.moveCursor s c).keyq = s.keyq ∧
    (State.moveCursor s c).txt = s.txt ∧
    (State.moveCursor s c).ret = s.ret ∧
    (State.moveCursor s c).set = s.set ∧
    (State.moveCursor s c).ctr = s.ctr ∧
    (State.moveCursor s c).tab = s.tab ∧
    (State.moveCursor s c).intake = s.intake ∧
    (State.moveCursor s c).seq = s.seq ∧
    (State.moveCursor s c).drv = s.drv ∧
    (State.moveCursor s c).line = s.line ∧
    (State.moveCursor s c).spell = s.spell := by
  unfold State.moveCursor
  (try dsimp only)
  first | rfl | done | simp_all

@[simp] theorem State.holdRelease_frame (s : State) (w : SpellWord) (count : ℕ) (fromReturn : Bool) :
    (State.holdRelease s w count fromReturn).pending = s.pending ∧
    (State.holdRelease s w count fromReturn).resetHeld = s.resetHeld ∧
    (State.holdRelease s w count fromReturn).coverOpen = s.coverOpen ∧
    (State.holdRelease s w count fromReturn).free = s.free ∧
    (State.holdRelease s w count fromReturn).rx = s.rx ∧
    (State.holdRelease s w count fromReturn).keyq = s.keyq ∧
    (State.holdRelease s w count fromReturn).txt = s.txt ∧
    (State.holdRelease s w count fromReturn).set = s.set ∧
    (State.holdRelease s w count fromReturn).tab = s.tab ∧
    (State.holdRelease s w count fromReturn).intake = s.intake ∧
    (State.holdRelease s w count fromReturn).seq = s.seq ∧
    (State.holdRelease s w count fromReturn).drv = s.drv ∧
    (State.holdRelease s w count fromReturn).line = s.line ∧
    (State.holdRelease s w count fromReturn).spell = s.spell := by
  unfold State.holdRelease
  (try dsimp only)
  first | rfl | done | simp_all

@[simp] theorem State.retireWords_frame (s : State) (within : SpellWord → Bool) :
    (State.retireWords s within).pending = s.pending ∧
    (State.retireWords s within).resetHeld = s.resetHeld ∧
    (State.retireWords s within).coverOpen = s.coverOpen ∧
    (State.retireWords s within).free = s.free ∧
    (State.retireWords s within).rx = s.rx ∧
    (State.retireWords s within).keyq = s.keyq ∧
    (State.retireWords s within).txt = s.txt ∧
    (State.retireWords s within).ret = s.ret ∧
    (State.retireWords s within).set = s.set ∧
    (State.retireWords s within).tab = s.tab ∧
    (State.retireWords s within).intake = s.intake ∧
    (State.retireWords s within).comp = s.comp ∧
    (State.retireWords s within).seq = s.seq ∧
    (State.retireWords s within).drv = s.drv ∧
    (State.retireWords s within).line = s.line ∧
    (State.retireWords s within).disp = s.disp := by
  unfold State.retireWords
  (try dsimp only)
  first | rfl | done | simp_all

@[simp] theorem State.releaseRecs_frame (s : State) (n : ℕ) (carried : List CompRec) :
    (State.releaseRecs s n carried).pending = s.pending ∧
    (State.releaseRecs s n carried).resetHeld = s.resetHeld ∧
    (State.releaseRecs s n carried).coverOpen = s.coverOpen ∧
    (State.releaseRecs s n carried).free = s.free ∧
    (State.releaseRecs s n carried).rx = s.rx ∧
    (State.releaseRecs s n carried).keyq = s.keyq ∧
    (State.releaseRecs s n carried).txt = s.txt ∧
    (State.releaseRecs s n carried).set = s.set ∧
    (State.releaseRecs s n carried).tab = s.tab ∧
    (State.releaseRecs s n carried).intake = s.intake ∧
    (State.releaseRecs s n carried).seq = s.seq ∧
    (State.releaseRecs s n carried).drv = s.drv := by
  unfold State.releaseRecs
  (try dsimp only)
  (repeat' split) <;> first | rfl | done | simp_all

@[simp] theorem State.evalRelease_frame (s : State) (n : ℕ) (carried : List CompRec) (fromReturn : Bool) :
    (State.evalRelease s n carried fromReturn).state.pending = s.pending ∧
    (State.evalRelease s n carried fromReturn).state.resetHeld = s.resetHeld ∧
    (State.evalRelease s n carried fromReturn).state.coverOpen = s.coverOpen ∧
    (State.evalRelease s n carried fromReturn).state.free = s.free ∧
    (State.evalRelease s n carried fromReturn).state.rx = s.rx ∧
    (State.evalRelease s n carried fromReturn).state.keyq = s.keyq ∧
    (State.evalRelease s n carried fromReturn).state.txt = s.txt ∧
    (State.evalRelease s n carried fromReturn).state.set = s.set ∧
    (State.evalRelease s n carried fromReturn).state.tab = s.tab ∧
    (State.evalRelease s n carried fromReturn).state.intake = s.intake ∧
    (State.evalRelease s n carried fromReturn).state.seq = s.seq ∧
    (State.evalRelease s n carried fromReturn).state.drv = s.drv := by
  unfold State.evalRelease
  (try dsimp only)
  (repeat' split) <;> simp_all [Release.state]

@[simp] theorem State.insertOrRefuse_frame (s : State) (c : CompRec) :
    (State.insertOrRefuse s c).state.pending = s.pending ∧
    (State.insertOrRefuse s c).state.resetHeld = s.resetHeld ∧
    (State.insertOrRefuse s c).state.coverOpen = s.coverOpen ∧
    (State.insertOrRefuse s c).state.free = s.free ∧
    (State.insertOrRefuse s c).state.rx = s.rx ∧
    (State.insertOrRefuse s c).state.keyq = s.keyq ∧
    (State.insertOrRefuse s c).state.txt = s.txt ∧
    (State.insertOrRefuse s c).state.set = s.set ∧
    (State.insertOrRefuse s c).state.tab = s.tab ∧
    (State.insertOrRefuse s c).state.intake = s.intake ∧
    (State.insertOrRefuse s c).state.seq = s.seq ∧
    (State.insertOrRefuse s c).state.drv = s.drv := by
  unfold State.insertOrRefuse
  (repeat' split) <;> first | rfl | done | simp_all [Eval.taken, Eval.refused]

@[simp] theorem State.wrap_frame (s : State) (code : Byte) (isDead : Bool) :
    (State.wrap s code isDead).state.pending = s.pending ∧
    (State.wrap s code isDead).state.resetHeld = s.resetHeld ∧
    (State.wrap s code isDead).state.coverOpen = s.coverOpen ∧
    (State.wrap s code isDead).state.free = s.free ∧
    (State.wrap s code isDead).state.rx = s.rx ∧
    (State.wrap s code isDead).state.keyq = s.keyq ∧
    (State.wrap s code isDead).state.txt = s.txt ∧
    (State.wrap s code isDead).state.set = s.set ∧
    (State.wrap s code isDead).state.tab = s.tab ∧
    (State.wrap s code isDead).state.intake = s.intake ∧
    (State.wrap s code isDead).state.seq = s.seq ∧
    (State.wrap s code isDead).state.drv = s.drv := by
  unfold State.wrap
  dsimp only
  (repeat' split) <;> first
    | (simp [Eval.refused]; done)
    | (rename_i hr; simp [Eval.taken, Eval.waits, Eval.refused, Release.state_of_wait hr]; done)
    | (rename_i hr; simp [Eval.taken, Eval.waits, Eval.refused, Release.state_of_refused hr]; done)
    | (rename_i hr; simp [Eval.taken, Eval.waits, Eval.refused, Release.state_of_done hr])

@[simp] theorem State.lineKeyChar_frame (s : State) (code : Byte) (isDead : Bool) :
    (State.lineKeyChar s code isDead).state.pending = s.pending ∧
    (State.lineKeyChar s code isDead).state.resetHeld = s.resetHeld ∧
    (State.lineKeyChar s code isDead).state.coverOpen = s.coverOpen ∧
    (State.lineKeyChar s code isDead).state.free = s.free ∧
    (State.lineKeyChar s code isDead).state.rx = s.rx ∧
    (State.lineKeyChar s code isDead).state.keyq = s.keyq ∧
    (State.lineKeyChar s code isDead).state.txt = s.txt ∧
    (State.lineKeyChar s code isDead).state.set = s.set ∧
    (State.lineKeyChar s code isDead).state.tab = s.tab ∧
    (State.lineKeyChar s code isDead).state.intake = s.intake ∧
    (State.lineKeyChar s code isDead).state.seq = s.seq ∧
    (State.lineKeyChar s code isDead).state.drv = s.drv := by
  unfold State.lineKeyChar
  (repeat' split) <;> first | rfl | done | simp_all [Eval.taken, Eval.refused]

@[simp] theorem State.evalChar_frame (s : State) (code : Byte) :
    (State.evalChar s code).state.pending = s.pending ∧
    (State.evalChar s code).state.resetHeld = s.resetHeld ∧
    (State.evalChar s code).state.coverOpen = s.coverOpen ∧
    (State.evalChar s code).state.free = s.free ∧
    (State.evalChar s code).state.rx = s.rx ∧
    (State.evalChar s code).state.keyq = s.keyq ∧
    (State.evalChar s code).state.txt = s.txt ∧
    (State.evalChar s code).state.set = s.set ∧
    (State.evalChar s code).state.tab = s.tab ∧
    (State.evalChar s code).state.intake = s.intake := by
  unfold State.evalChar
  (repeat' split) <;> first | rfl | done | simp_all

@[simp] theorem State.evalDead_frame (s : State) (code : Byte) :
    (State.evalDead s code).state.pending = s.pending ∧
    (State.evalDead s code).state.resetHeld = s.resetHeld ∧
    (State.evalDead s code).state.coverOpen = s.coverOpen ∧
    (State.evalDead s code).state.free = s.free ∧
    (State.evalDead s code).state.rx = s.rx ∧
    (State.evalDead s code).state.keyq = s.keyq ∧
    (State.evalDead s code).state.txt = s.txt ∧
    (State.evalDead s code).state.set = s.set ∧
    (State.evalDead s code).state.tab = s.tab ∧
    (State.evalDead s code).state.intake = s.intake := by
  unfold State.evalDead
  (repeat' split) <;> first | rfl | done | simp_all

@[simp] theorem State.evalAcceptWord_frame (s : State) :
    (State.evalAcceptWord s).state.pending = s.pending ∧
    (State.evalAcceptWord s).state.resetHeld = s.resetHeld ∧
    (State.evalAcceptWord s).state.coverOpen = s.coverOpen ∧
    (State.evalAcceptWord s).state.free = s.free ∧
    (State.evalAcceptWord s).state.rx = s.rx ∧
    (State.evalAcceptWord s).state.keyq = s.keyq ∧
    (State.evalAcceptWord s).state.txt = s.txt ∧
    (State.evalAcceptWord s).state.ret = s.ret ∧
    (State.evalAcceptWord s).state.set = s.set ∧
    (State.evalAcceptWord s).state.ctr = s.ctr ∧
    (State.evalAcceptWord s).state.tab = s.tab ∧
    (State.evalAcceptWord s).state.intake = s.intake ∧
    (State.evalAcceptWord s).state.comp = s.comp ∧
    (State.evalAcceptWord s).state.seq = s.seq ∧
    (State.evalAcceptWord s).state.drv = s.drv ∧
    (State.evalAcceptWord s).state.line = s.line := by
  unfold State.evalAcceptWord
  (repeat' split) <;> first | rfl | done | simp_all [Eval.taken, Eval.refused]

@[simp] theorem State.addUserWord_frame (s : State) (letters : List ℕ) :
    (State.addUserWord s letters).pending = s.pending ∧
    (State.addUserWord s letters).resetHeld = s.resetHeld ∧
    (State.addUserWord s letters).coverOpen = s.coverOpen ∧
    (State.addUserWord s letters).free = s.free ∧
    (State.addUserWord s letters).rx = s.rx ∧
    (State.addUserWord s letters).keyq = s.keyq ∧
    (State.addUserWord s letters).txt = s.txt ∧
    (State.addUserWord s letters).ret = s.ret ∧
    (State.addUserWord s letters).set = s.set ∧
    (State.addUserWord s letters).tab = s.tab ∧
    (State.addUserWord s letters).intake = s.intake ∧
    (State.addUserWord s letters).comp = s.comp ∧
    (State.addUserWord s letters).seq = s.seq ∧
    (State.addUserWord s letters).drv = s.drv ∧
    (State.addUserWord s letters).line = s.line ∧
    (State.addUserWord s letters).disp = s.disp := by
  unfold State.addUserWord
  (try dsimp only)
  first | rfl | done | simp_all

@[simp] theorem State.evalAddWord_frame (s : State) :
    (State.evalAddWord s).state.pending = s.pending ∧
    (State.evalAddWord s).state.resetHeld = s.resetHeld ∧
    (State.evalAddWord s).state.coverOpen = s.coverOpen ∧
    (State.evalAddWord s).state.free = s.free ∧
    (State.evalAddWord s).state.rx = s.rx ∧
    (State.evalAddWord s).state.keyq = s.keyq ∧
    (State.evalAddWord s).state.txt = s.txt ∧
    (State.evalAddWord s).state.ret = s.ret ∧
    (State.evalAddWord s).state.set = s.set ∧
    (State.evalAddWord s).state.tab = s.tab ∧
    (State.evalAddWord s).state.intake = s.intake ∧
    (State.evalAddWord s).state.comp = s.comp ∧
    (State.evalAddWord s).state.seq = s.seq ∧
    (State.evalAddWord s).state.drv = s.drv ∧
    (State.evalAddWord s).state.line = s.line := by
  unfold State.evalAddWord
  (repeat' split) <;> first | rfl | done | simp_all [Eval.taken, Eval.refused]

@[simp] theorem State.markBoundary_frame (s : State) :
    (State.markBoundary s).pending = s.pending ∧
    (State.markBoundary s).resetHeld = s.resetHeld ∧
    (State.markBoundary s).coverOpen = s.coverOpen ∧
    (State.markBoundary s).free = s.free ∧
    (State.markBoundary s).rx = s.rx ∧
    (State.markBoundary s).keyq = s.keyq ∧
    (State.markBoundary s).txt = s.txt ∧
    (State.markBoundary s).ret = s.ret ∧
    (State.markBoundary s).set = s.set ∧
    (State.markBoundary s).tab = s.tab ∧
    (State.markBoundary s).intake = s.intake ∧
    (State.markBoundary s).seq = s.seq ∧
    (State.markBoundary s).drv = s.drv ∧
    (State.markBoundary s).disp = s.disp := by
  unfold State.markBoundary
  (try dsimp only)
  (repeat' split) <;> first | rfl | done | simp_all

@[simp] theorem State.backspaceDirect_frame (s : State) :
    (State.backspaceDirect s).pending = s.pending ∧
    (State.backspaceDirect s).resetHeld = s.resetHeld ∧
    (State.backspaceDirect s).coverOpen = s.coverOpen ∧
    (State.backspaceDirect s).free = s.free ∧
    (State.backspaceDirect s).rx = s.rx ∧
    (State.backspaceDirect s).keyq = s.keyq ∧
    (State.backspaceDirect s).txt = s.txt ∧
    (State.backspaceDirect s).ret = s.ret ∧
    (State.backspaceDirect s).set = s.set ∧
    (State.backspaceDirect s).tab = s.tab ∧
    (State.backspaceDirect s).intake = s.intake ∧
    (State.backspaceDirect s).seq = s.seq ∧
    (State.backspaceDirect s).drv = s.drv ∧
    (State.backspaceDirect s).disp = s.disp := by
  unfold State.backspaceDirect
  (try dsimp only)
  (repeat' split) <;> first | rfl | done | simp_all

@[simp] theorem State.deleteTo_frame (s : State) (recs : List CompRec) (cursor : ℕ) :
    (State.deleteTo s recs cursor).state.pending = s.pending ∧
    (State.deleteTo s recs cursor).state.resetHeld = s.resetHeld ∧
    (State.deleteTo s recs cursor).state.coverOpen = s.coverOpen ∧
    (State.deleteTo s recs cursor).state.free = s.free ∧
    (State.deleteTo s recs cursor).state.rx = s.rx ∧
    (State.deleteTo s recs cursor).state.keyq = s.keyq ∧
    (State.deleteTo s recs cursor).state.txt = s.txt ∧
    (State.deleteTo s recs cursor).state.ret = s.ret ∧
    (State.deleteTo s recs cursor).state.set = s.set ∧
    (State.deleteTo s recs cursor).state.tab = s.tab ∧
    (State.deleteTo s recs cursor).state.intake = s.intake ∧
    (State.deleteTo s recs cursor).state.seq = s.seq ∧
    (State.deleteTo s recs cursor).state.drv = s.drv := by
  unfold State.deleteTo
  (repeat' split) <;> first | rfl | done | simp_all [Eval.taken, Eval.refused]

@[simp] theorem State.cutTo_frame (s : State) (n : ℕ) :
    (State.cutTo s n).state.pending = s.pending ∧
    (State.cutTo s n).state.resetHeld = s.resetHeld ∧
    (State.cutTo s n).state.coverOpen = s.coverOpen ∧
    (State.cutTo s n).state.free = s.free ∧
    (State.cutTo s n).state.rx = s.rx ∧
    (State.cutTo s n).state.keyq = s.keyq ∧
    (State.cutTo s n).state.txt = s.txt ∧
    (State.cutTo s n).state.ret = s.ret ∧
    (State.cutTo s n).state.set = s.set ∧
    (State.cutTo s n).state.tab = s.tab ∧
    (State.cutTo s n).state.intake = s.intake ∧
    (State.cutTo s n).state.seq = s.seq ∧
    (State.cutTo s n).state.drv = s.drv := by
  unfold State.cutTo
  first | rfl | done | simp_all

@[simp] theorem State.deleteBefore_frame (s : State) :
    (State.deleteBefore s).state.pending = s.pending ∧
    (State.deleteBefore s).state.resetHeld = s.resetHeld ∧
    (State.deleteBefore s).state.coverOpen = s.coverOpen ∧
    (State.deleteBefore s).state.free = s.free ∧
    (State.deleteBefore s).state.rx = s.rx ∧
    (State.deleteBefore s).state.keyq = s.keyq ∧
    (State.deleteBefore s).state.txt = s.txt ∧
    (State.deleteBefore s).state.ret = s.ret ∧
    (State.deleteBefore s).state.set = s.set ∧
    (State.deleteBefore s).state.tab = s.tab ∧
    (State.deleteBefore s).state.intake = s.intake ∧
    (State.deleteBefore s).state.seq = s.seq ∧
    (State.deleteBefore s).state.drv = s.drv := by
  unfold State.deleteBefore
  (repeat' split) <;> first | rfl | done | simp_all [Eval.refused]

@[simp] theorem State.evalBackspace_frame (s : State) :
    (State.evalBackspace s).state.pending = s.pending ∧
    (State.evalBackspace s).state.resetHeld = s.resetHeld ∧
    (State.evalBackspace s).state.coverOpen = s.coverOpen ∧
    (State.evalBackspace s).state.free = s.free ∧
    (State.evalBackspace s).state.rx = s.rx ∧
    (State.evalBackspace s).state.keyq = s.keyq ∧
    (State.evalBackspace s).state.txt = s.txt ∧
    (State.evalBackspace s).state.ret = s.ret ∧
    (State.evalBackspace s).state.set = s.set ∧
    (State.evalBackspace s).state.tab = s.tab ∧
    (State.evalBackspace s).state.intake = s.intake ∧
    (State.evalBackspace s).state.seq = s.seq ∧
    (State.evalBackspace s).state.drv = s.drv := by
  unfold State.evalBackspace
  (repeat' split) <;> first | rfl | done | simp_all [Eval.taken]

@[simp] theorem State.evalBold_frame (s : State) :
    (State.evalBold s).state.pending = s.pending ∧
    (State.evalBold s).state.resetHeld = s.resetHeld ∧
    (State.evalBold s).state.coverOpen = s.coverOpen ∧
    (State.evalBold s).state.free = s.free ∧
    (State.evalBold s).state.rx = s.rx ∧
    (State.evalBold s).state.keyq = s.keyq ∧
    (State.evalBold s).state.txt = s.txt ∧
    (State.evalBold s).state.ret = s.ret ∧
    (State.evalBold s).state.set = s.set ∧
    (State.evalBold s).state.ctr = s.ctr ∧
    (State.evalBold s).state.tab = s.tab ∧
    (State.evalBold s).state.intake = s.intake ∧
    (State.evalBold s).state.seq = s.seq ∧
    (State.evalBold s).state.drv = s.drv ∧
    (State.evalBold s).state.line = s.line ∧
    (State.evalBold s).state.spell = s.spell ∧
    (State.evalBold s).state.disp = s.disp := by
  unfold State.evalBold
  (try dsimp only)
  first | rfl | done | simp_all [Eval.taken]

@[simp] theorem State.cancelEntry_frame (s : State) (e : Entry) :
    (State.cancelEntry s e).pending = s.pending ∧
    (State.cancelEntry s e).resetHeld = s.resetHeld ∧
    (State.cancelEntry s e).coverOpen = s.coverOpen ∧
    (State.cancelEntry s e).free = s.free ∧
    (State.cancelEntry s e).rx = s.rx ∧
    (State.cancelEntry s e).keyq = s.keyq ∧
    (State.cancelEntry s e).txt = s.txt ∧
    (State.cancelEntry s e).ret = s.ret ∧
    (State.cancelEntry s e).set = s.set ∧
    (State.cancelEntry s e).tab = s.tab ∧
    (State.cancelEntry s e).intake = s.intake ∧
    (State.cancelEntry s e).drv = s.drv := by
  unfold State.cancelEntry
  (try dsimp only)
  first | rfl | done | simp_all

@[simp] theorem State.appendOrders_frame (s : State) (l : List Order) :
    (State.appendOrders s l).pending = s.pending ∧
    (State.appendOrders s l).resetHeld = s.resetHeld ∧
    (State.appendOrders s l).coverOpen = s.coverOpen ∧
    (State.appendOrders s l).free = s.free ∧
    (State.appendOrders s l).rx = s.rx ∧
    (State.appendOrders s l).keyq = s.keyq ∧
    (State.appendOrders s l).txt = s.txt ∧
    (State.appendOrders s l).set = s.set ∧
    (State.appendOrders s l).tab = s.tab ∧
    (State.appendOrders s l).intake = s.intake := by
  unfold State.appendOrders
  (try dsimp only)
  first | rfl | done | simp_all

@[simp] theorem State.liftEntry_frame (s : State) (e : Entry) :
    (State.liftEntry s e).pending = s.pending ∧
    (State.liftEntry s e).resetHeld = s.resetHeld ∧
    (State.liftEntry s e).coverOpen = s.coverOpen ∧
    (State.liftEntry s e).free = s.free ∧
    (State.liftEntry s e).rx = s.rx ∧
    (State.liftEntry s e).keyq = s.keyq ∧
    (State.liftEntry s e).txt = s.txt ∧
    (State.liftEntry s e).set = s.set ∧
    (State.liftEntry s e).tab = s.tab ∧
    (State.liftEntry s e).intake = s.intake := by
  unfold State.liftEntry
  (try dsimp only)
  first | rfl | done | simp_all

@[simp] theorem State.refuseCorrect_frame (s : State) (r : CorrectReason) :
    (State.refuseCorrect s r).state.pending = s.pending ∧
    (State.refuseCorrect s r).state.resetHeld = s.resetHeld ∧
    (State.refuseCorrect s r).state.coverOpen = s.coverOpen ∧
    (State.refuseCorrect s r).state.free = s.free ∧
    (State.refuseCorrect s r).state.rx = s.rx ∧
    (State.refuseCorrect s r).state.keyq = s.keyq ∧
    (State.refuseCorrect s r).state.txt = s.txt ∧
    (State.refuseCorrect s r).state.set = s.set ∧
    (State.refuseCorrect s r).state.tab = s.tab ∧
    (State.refuseCorrect s r).state.intake = s.intake ∧
    (State.refuseCorrect s r).state.comp = s.comp ∧
    (State.refuseCorrect s r).state.seq = s.seq ∧
    (State.refuseCorrect s r).state.drv = s.drv ∧
    (State.refuseCorrect s r).state.line = s.line ∧
    (State.refuseCorrect s r).state.spell = s.spell := by
  unfold State.refuseCorrect
  first | rfl | done | simp_all [Eval.refused]

@[simp] theorem State.directCorrect_frame (s : State) :
    (State.directCorrect s).state.pending = s.pending ∧
    (State.directCorrect s).state.resetHeld = s.resetHeld ∧
    (State.directCorrect s).state.coverOpen = s.coverOpen ∧
    (State.directCorrect s).state.free = s.free ∧
    (State.directCorrect s).state.rx = s.rx ∧
    (State.directCorrect s).state.keyq = s.keyq ∧
    (State.directCorrect s).state.txt = s.txt ∧
    (State.directCorrect s).state.set = s.set ∧
    (State.directCorrect s).state.tab = s.tab ∧
    (State.directCorrect s).state.intake = s.intake := by
  unfold State.directCorrect
  (repeat' split) <;> first | rfl | done | simp_all [Eval.taken, Eval.waits]

@[simp] theorem State.evalCorrect_frame (s : State) :
    (State.evalCorrect s).state.pending = s.pending ∧
    (State.evalCorrect s).state.resetHeld = s.resetHeld ∧
    (State.evalCorrect s).state.coverOpen = s.coverOpen ∧
    (State.evalCorrect s).state.free = s.free ∧
    (State.evalCorrect s).state.rx = s.rx ∧
    (State.evalCorrect s).state.keyq = s.keyq ∧
    (State.evalCorrect s).state.txt = s.txt ∧
    (State.evalCorrect s).state.set = s.set ∧
    (State.evalCorrect s).state.tab = s.tab ∧
    (State.evalCorrect s).state.intake = s.intake := by
  unfold State.evalCorrect
  (repeat' split) <;> first | rfl | done | simp_all

@[simp] theorem State.evalCursorLeft_frame (s : State) :
    (State.evalCursorLeft s).state.pending = s.pending ∧
    (State.evalCursorLeft s).state.resetHeld = s.resetHeld ∧
    (State.evalCursorLeft s).state.coverOpen = s.coverOpen ∧
    (State.evalCursorLeft s).state.free = s.free ∧
    (State.evalCursorLeft s).state.rx = s.rx ∧
    (State.evalCursorLeft s).state.keyq = s.keyq ∧
    (State.evalCursorLeft s).state.txt = s.txt ∧
    (State.evalCursorLeft s).state.ret = s.ret ∧
    (State.evalCursorLeft s).state.set = s.set ∧
    (State.evalCursorLeft s).state.ctr = s.ctr ∧
    (State.evalCursorLeft s).state.tab = s.tab ∧
    (State.evalCursorLeft s).state.intake = s.intake ∧
    (State.evalCursorLeft s).state.seq = s.seq ∧
    (State.evalCursorLeft s).state.drv = s.drv ∧
    (State.evalCursorLeft s).state.line = s.line ∧
    (State.evalCursorLeft s).state.spell = s.spell := by
  unfold State.evalCursorLeft
  (repeat' split) <;> first | rfl | done | simp_all [Eval.taken, Eval.refused]

@[simp] theorem State.evalCursorRight_frame (s : State) :
    (State.evalCursorRight s).state.pending = s.pending ∧
    (State.evalCursorRight s).state.resetHeld = s.resetHeld ∧
    (State.evalCursorRight s).state.coverOpen = s.coverOpen ∧
    (State.evalCursorRight s).state.free = s.free ∧
    (State.evalCursorRight s).state.rx = s.rx ∧
    (State.evalCursorRight s).state.keyq = s.keyq ∧
    (State.evalCursorRight s).state.txt = s.txt ∧
    (State.evalCursorRight s).state.ret = s.ret ∧
    (State.evalCursorRight s).state.set = s.set ∧
    (State.evalCursorRight s).state.ctr = s.ctr ∧
    (State.evalCursorRight s).state.tab = s.tab ∧
    (State.evalCursorRight s).state.intake = s.intake ∧
    (State.evalCursorRight s).state.seq = s.seq ∧
    (State.evalCursorRight s).state.drv = s.drv ∧
    (State.evalCursorRight s).state.line = s.line ∧
    (State.evalCursorRight s).state.spell = s.spell := by
  unfold State.evalCursorRight
  (repeat' split) <;> first | rfl | done | simp_all [Eval.taken, Eval.refused]

@[simp] theorem State.evalJustifyCycle_frame (s : State) :
    (State.evalJustifyCycle s).state.pending = s.pending ∧
    (State.evalJustifyCycle s).state.resetHeld = s.resetHeld ∧
    (State.evalJustifyCycle s).state.coverOpen = s.coverOpen ∧
    (State.evalJustifyCycle s).state.free = s.free ∧
    (State.evalJustifyCycle s).state.rx = s.rx ∧
    (State.evalJustifyCycle s).state.keyq = s.keyq ∧
    (State.evalJustifyCycle s).state.txt = s.txt ∧
    (State.evalJustifyCycle s).state.ret = s.ret ∧
    (State.evalJustifyCycle s).state.set = s.set ∧
    (State.evalJustifyCycle s).state.ctr = s.ctr ∧
    (State.evalJustifyCycle s).state.tab = s.tab ∧
    (State.evalJustifyCycle s).state.intake = s.intake ∧
    (State.evalJustifyCycle s).state.seq = s.seq ∧
    (State.evalJustifyCycle s).state.drv = s.drv ∧
    (State.evalJustifyCycle s).state.line = s.line ∧
    (State.evalJustifyCycle s).state.spell = s.spell := by
  unfold State.evalJustifyCycle
  (try dsimp only)
  (repeat' split) <;> first | rfl | done | simp_all [Eval.taken, Eval.refused]

@[simp] theorem State.deleteAll_frame (s : State) :
    (State.deleteAll s).state.pending = s.pending ∧
    (State.deleteAll s).state.resetHeld = s.resetHeld ∧
    (State.deleteAll s).state.coverOpen = s.coverOpen ∧
    (State.deleteAll s).state.free = s.free ∧
    (State.deleteAll s).state.rx = s.rx ∧
    (State.deleteAll s).state.keyq = s.keyq ∧
    (State.deleteAll s).state.txt = s.txt ∧
    (State.deleteAll s).state.ret = s.ret ∧
    (State.deleteAll s).state.set = s.set ∧
    (State.deleteAll s).state.tab = s.tab ∧
    (State.deleteAll s).state.intake = s.intake ∧
    (State.deleteAll s).state.seq = s.seq ∧
    (State.deleteAll s).state.drv = s.drv := by
  unfold State.deleteAll
  (repeat' split) <;> first | rfl | done | simp_all [Eval.refused]

@[simp] theorem State.correctRun_frame (x : ℕ) (x' : State) (x'' : CorrectionRun) :
    (State.correctRun x x' x'').state.pending = x'.pending ∧
    (State.correctRun x x' x'').state.resetHeld = x'.resetHeld ∧
    (State.correctRun x x' x'').state.coverOpen = x'.coverOpen ∧
    (State.correctRun x x' x'').state.free = x'.free ∧
    (State.correctRun x x' x'').state.rx = x'.rx ∧
    (State.correctRun x x' x'').state.keyq = x'.keyq ∧
    (State.correctRun x x' x'').state.txt = x'.txt ∧
    (State.correctRun x x' x'').state.set = x'.set ∧
    (State.correctRun x x' x'').state.tab = x'.tab ∧
    (State.correctRun x x' x'').state.intake = x'.intake := by
  induction x generalizing x' x'' with
  | zero => simp [State.correctRun, Eval.taken]
  | succ k ih =>
    unfold State.correctRun
    dsimp only
    (repeat' split) <;> simp_all [Eval.taken, Eval.waits]

@[simp] theorem State.directRun_frame (s : State) (start : RunPhase) :
    (State.directRun s start).state.pending = s.pending ∧
    (State.directRun s start).state.resetHeld = s.resetHeld ∧
    (State.directRun s start).state.coverOpen = s.coverOpen ∧
    (State.directRun s start).state.free = s.free ∧
    (State.directRun s start).state.rx = s.rx ∧
    (State.directRun s start).state.keyq = s.keyq ∧
    (State.directRun s start).state.txt = s.txt ∧
    (State.directRun s start).state.set = s.set ∧
    (State.directRun s start).state.tab = s.tab ∧
    (State.directRun s start).state.intake = s.intake := by
  unfold State.directRun
  first | rfl | done | simp_all

@[simp] theorem State.evalLineCorrect_frame (s : State) :
    (State.evalLineCorrect s).state.pending = s.pending ∧
    (State.evalLineCorrect s).state.resetHeld = s.resetHeld ∧
    (State.evalLineCorrect s).state.coverOpen = s.coverOpen ∧
    (State.evalLineCorrect s).state.free = s.free ∧
    (State.evalLineCorrect s).state.rx = s.rx ∧
    (State.evalLineCorrect s).state.keyq = s.keyq ∧
    (State.evalLineCorrect s).state.txt = s.txt ∧
    (State.evalLineCorrect s).state.set = s.set ∧
    (State.evalLineCorrect s).state.tab = s.tab ∧
    (State.evalLineCorrect s).state.intake = s.intake := by
  unfold State.evalLineCorrect
  (repeat' split) <;> first | rfl | done | simp_all

@[simp] theorem State.setLine_frame (s : State) (v : LineValue) :
    (State.setLine s v).1.pending = s.pending ∧
    (State.setLine s v).1.resetHeld = s.resetHeld ∧
    (State.setLine s v).1.coverOpen = s.coverOpen ∧
    (State.setLine s v).1.free = s.free ∧
    (State.setLine s v).1.rx = s.rx ∧
    (State.setLine s v).1.keyq = s.keyq ∧
    (State.setLine s v).1.txt = s.txt ∧
    (State.setLine s v).1.ret = s.ret ∧
    (State.setLine s v).1.set = s.set ∧
    (State.setLine s v).1.tab = s.tab ∧
    (State.setLine s v).1.intake = s.intake ∧
    (State.setLine s v).1.seq = s.seq ∧
    (State.setLine s v).1.drv = s.drv := by
  unfold State.setLine
  (try dsimp only)
  (repeat' split) <;> first | rfl | done | simp_all

@[simp] theorem State.evalMarginLeft_frame (s : State) :
    (State.evalMarginLeft s).state.pending = s.pending ∧
    (State.evalMarginLeft s).state.resetHeld = s.resetHeld ∧
    (State.evalMarginLeft s).state.coverOpen = s.coverOpen ∧
    (State.evalMarginLeft s).state.free = s.free ∧
    (State.evalMarginLeft s).state.rx = s.rx ∧
    (State.evalMarginLeft s).state.keyq = s.keyq ∧
    (State.evalMarginLeft s).state.txt = s.txt ∧
    (State.evalMarginLeft s).state.ret = s.ret ∧
    (State.evalMarginLeft s).state.set = s.set ∧
    (State.evalMarginLeft s).state.tab = s.tab ∧
    (State.evalMarginLeft s).state.intake = s.intake ∧
    (State.evalMarginLeft s).state.seq = s.seq ∧
    (State.evalMarginLeft s).state.drv = s.drv := by
  unfold State.evalMarginLeft
  (try dsimp only)
  (repeat' split) <;> first | rfl | done | simp_all [Eval.taken, Eval.refused]

@[simp] theorem State.evalMarginRelease_frame (s : State) :
    (State.evalMarginRelease s).state.pending = s.pending ∧
    (State.evalMarginRelease s).state.resetHeld = s.resetHeld ∧
    (State.evalMarginRelease s).state.coverOpen = s.coverOpen ∧
    (State.evalMarginRelease s).state.free = s.free ∧
    (State.evalMarginRelease s).state.rx = s.rx ∧
    (State.evalMarginRelease s).state.keyq = s.keyq ∧
    (State.evalMarginRelease s).state.txt = s.txt ∧
    (State.evalMarginRelease s).state.ret = s.ret ∧
    (State.evalMarginRelease s).state.set = s.set ∧
    (State.evalMarginRelease s).state.ctr = s.ctr ∧
    (State.evalMarginRelease s).state.tab = s.tab ∧
    (State.evalMarginRelease s).state.intake = s.intake ∧
    (State.evalMarginRelease s).state.seq = s.seq ∧
    (State.evalMarginRelease s).state.drv = s.drv ∧
    (State.evalMarginRelease s).state.line = s.line ∧
    (State.evalMarginRelease s).state.spell = s.spell := by
  unfold State.evalMarginRelease
  (try dsimp only)
  (repeat' split) <;> first | rfl | done | simp_all [Eval.taken, Eval.refused]

@[simp] theorem State.evalMarginRight_frame (s : State) :
    (State.evalMarginRight s).state.pending = s.pending ∧
    (State.evalMarginRight s).state.resetHeld = s.resetHeld ∧
    (State.evalMarginRight s).state.coverOpen = s.coverOpen ∧
    (State.evalMarginRight s).state.free = s.free ∧
    (State.evalMarginRight s).state.rx = s.rx ∧
    (State.evalMarginRight s).state.keyq = s.keyq ∧
    (State.evalMarginRight s).state.txt = s.txt ∧
    (State.evalMarginRight s).state.ret = s.ret ∧
    (State.evalMarginRight s).state.set = s.set ∧
    (State.evalMarginRight s).state.tab = s.tab ∧
    (State.evalMarginRight s).state.intake = s.intake ∧
    (State.evalMarginRight s).state.seq = s.seq ∧
    (State.evalMarginRight s).state.drv = s.drv := by
  unfold State.evalMarginRight
  (try dsimp only)
  (repeat' split) <;> first | rfl | done | simp_all [Eval.taken, Eval.refused]

@[simp] theorem State.evalModeToggle_frame (s : State) :
    (State.evalModeToggle s).state.pending = s.pending ∧
    (State.evalModeToggle s).state.resetHeld = s.resetHeld ∧
    (State.evalModeToggle s).state.coverOpen = s.coverOpen ∧
    (State.evalModeToggle s).state.free = s.free ∧
    (State.evalModeToggle s).state.rx = s.rx ∧
    (State.evalModeToggle s).state.keyq = s.keyq ∧
    (State.evalModeToggle s).state.txt = s.txt ∧
    (State.evalModeToggle s).state.ret = s.ret ∧
    (State.evalModeToggle s).state.set = s.set ∧
    (State.evalModeToggle s).state.tab = s.tab ∧
    (State.evalModeToggle s).state.intake = s.intake ∧
    (State.evalModeToggle s).state.seq = s.seq ∧
    (State.evalModeToggle s).state.drv = s.drv := by
  unfold State.evalModeToggle
  first | rfl | done | simp_all [Eval.taken]

@[simp] theorem State.emptyRecord_frame (s : State) :
    (State.emptyRecord s).pending = s.pending ∧
    (State.emptyRecord s).resetHeld = s.resetHeld ∧
    (State.emptyRecord s).coverOpen = s.coverOpen ∧
    (State.emptyRecord s).free = s.free ∧
    (State.emptyRecord s).rx = s.rx ∧
    (State.emptyRecord s).keyq = s.keyq ∧
    (State.emptyRecord s).txt = s.txt ∧
    (State.emptyRecord s).ret = s.ret ∧
    (State.emptyRecord s).set = s.set ∧
    (State.emptyRecord s).ctr = s.ctr ∧
    (State.emptyRecord s).tab = s.tab ∧
    (State.emptyRecord s).intake = s.intake ∧
    (State.emptyRecord s).comp = s.comp ∧
    (State.emptyRecord s).drv = s.drv ∧
    (State.emptyRecord s).spell = s.spell ∧
    (State.emptyRecord s).disp = s.disp := by
  unfold State.emptyRecord
  (try dsimp only)
  first | rfl | done | simp_all

@[simp] theorem State.spellLineEnd_frame (s : State) :
    (State.spellLineEnd s).pending = s.pending ∧
    (State.spellLineEnd s).resetHeld = s.resetHeld ∧
    (State.spellLineEnd s).coverOpen = s.coverOpen ∧
    (State.spellLineEnd s).free = s.free ∧
    (State.spellLineEnd s).rx = s.rx ∧
    (State.spellLineEnd s).keyq = s.keyq ∧
    (State.spellLineEnd s).txt = s.txt ∧
    (State.spellLineEnd s).ret = s.ret ∧
    (State.spellLineEnd s).set = s.set ∧
    (State.spellLineEnd s).tab = s.tab ∧
    (State.spellLineEnd s).intake = s.intake ∧
    (State.spellLineEnd s).comp = s.comp ∧
    (State.spellLineEnd s).seq = s.seq ∧
    (State.spellLineEnd s).drv = s.drv ∧
    (State.spellLineEnd s).line = s.line ∧
    (State.spellLineEnd s).disp = s.disp := by
  unfold State.spellLineEnd
  (try dsimp only)
  first | rfl | done | simp_all

@[simp] theorem State.lineEnd_frame (s : State) (k : LineEnd) :
    (State.lineEnd s k).pending = s.pending ∧
    (State.lineEnd s k).resetHeld = s.resetHeld ∧
    (State.lineEnd s k).coverOpen = s.coverOpen ∧
    (State.lineEnd s k).free = s.free ∧
    (State.lineEnd s k).rx = s.rx ∧
    (State.lineEnd s k).keyq = s.keyq ∧
    (State.lineEnd s k).txt = s.txt ∧
    (State.lineEnd s k).set = s.set ∧
    (State.lineEnd s k).tab = s.tab ∧
    (State.lineEnd s k).intake = s.intake := by
  unfold State.lineEnd
  (try dsimp only)
  (repeat' split) <;> first | rfl | done | simp_all

@[simp] theorem State.evalLineEnd_frame (s : State) (k : LineEnd) :
    (State.evalLineEnd s k).state.pending = s.pending ∧
    (State.evalLineEnd s k).state.resetHeld = s.resetHeld ∧
    (State.evalLineEnd s k).state.coverOpen = s.coverOpen ∧
    (State.evalLineEnd s k).state.free = s.free ∧
    (State.evalLineEnd s k).state.rx = s.rx ∧
    (State.evalLineEnd s k).state.keyq = s.keyq ∧
    (State.evalLineEnd s k).state.txt = s.txt ∧
    (State.evalLineEnd s k).state.set = s.set ∧
    (State.evalLineEnd s k).state.tab = s.tab ∧
    (State.evalLineEnd s k).state.intake = s.intake := by
  unfold State.evalLineEnd
  simp only [State.withRoom]
  (repeat' split) <;> simp_all [Eval.taken, Eval.waits]

@[simp] theorem State.evalPaper_frame (s : State) (n : ℤ) :
    (State.evalPaper s n).state.pending = s.pending ∧
    (State.evalPaper s n).state.resetHeld = s.resetHeld ∧
    (State.evalPaper s n).state.coverOpen = s.coverOpen ∧
    (State.evalPaper s n).state.free = s.free ∧
    (State.evalPaper s n).state.rx = s.rx ∧
    (State.evalPaper s n).state.keyq = s.keyq ∧
    (State.evalPaper s n).state.txt = s.txt ∧
    (State.evalPaper s n).state.set = s.set ∧
    (State.evalPaper s n).state.tab = s.tab ∧
    (State.evalPaper s n).state.intake = s.intake := by
  unfold State.evalPaper
  simp only [State.withRoom]
  (repeat' split) <;> simp_all [Eval.taken, Eval.waits]

@[simp] theorem State.pauseNow_frame (s : State) (r : PauseReason) :
    (State.pauseNow s r).pending = s.pending ∧
    (State.pauseNow s r).resetHeld = s.resetHeld ∧
    (State.pauseNow s r).coverOpen = s.coverOpen ∧
    (State.pauseNow s r).free = s.free ∧
    (State.pauseNow s r).rx = s.rx ∧
    (State.pauseNow s r).keyq = s.keyq ∧
    (State.pauseNow s r).txt = s.txt ∧
    (State.pauseNow s r).set = s.set ∧
    (State.pauseNow s r).tab = s.tab ∧
    (State.pauseNow s r).intake = s.intake ∧
    (State.pauseNow s r).comp = s.comp ∧
    (State.pauseNow s r).line = s.line ∧
    (State.pauseNow s r).spell = s.spell ∧
    (State.pauseNow s r).disp = s.disp := by
  unfold State.pauseNow
  (try dsimp only)
  first | rfl | done | simp_all

@[simp] theorem State.requestPause_frame (s : State) (r : PauseReason) :
    (State.requestPause s r).pending = s.pending ∧
    (State.requestPause s r).resetHeld = s.resetHeld ∧
    (State.requestPause s r).coverOpen = s.coverOpen ∧
    (State.requestPause s r).free = s.free ∧
    (State.requestPause s r).rx = s.rx ∧
    (State.requestPause s r).keyq = s.keyq ∧
    (State.requestPause s r).txt = s.txt ∧
    (State.requestPause s r).ret = s.ret ∧
    (State.requestPause s r).set = s.set ∧
    (State.requestPause s r).ctr = s.ctr ∧
    (State.requestPause s r).tab = s.tab ∧
    (State.requestPause s r).intake = s.intake ∧
    (State.requestPause s r).comp = s.comp ∧
    (State.requestPause s r).drv = s.drv ∧
    (State.requestPause s r).line = s.line ∧
    (State.requestPause s r).spell = s.spell ∧
    (State.requestPause s r).disp = s.disp := by
  unfold State.requestPause
  (try dsimp only)
  first | rfl | done | simp_all

@[simp] theorem State.askPause_frame (s : State) (r : PauseReason) :
    (State.askPause s r).pending = s.pending ∧
    (State.askPause s r).resetHeld = s.resetHeld ∧
    (State.askPause s r).coverOpen = s.coverOpen ∧
    (State.askPause s r).free = s.free ∧
    (State.askPause s r).rx = s.rx ∧
    (State.askPause s r).keyq = s.keyq ∧
    (State.askPause s r).txt = s.txt ∧
    (State.askPause s r).set = s.set ∧
    (State.askPause s r).tab = s.tab ∧
    (State.askPause s r).intake = s.intake ∧
    (State.askPause s r).comp = s.comp ∧
    (State.askPause s r).line = s.line ∧
    (State.askPause s r).spell = s.spell ∧
    (State.askPause s r).disp = s.disp := by
  unfold State.askPause
  (repeat' split) <;> first | rfl | done | simp_all

@[simp] theorem State.enterReady_frame (s : State) :
    (State.enterReady s).pending = s.pending ∧
    (State.enterReady s).resetHeld = s.resetHeld ∧
    (State.enterReady s).coverOpen = s.coverOpen ∧
    (State.enterReady s).free = s.free ∧
    (State.enterReady s).rx = s.rx ∧
    (State.enterReady s).keyq = s.keyq ∧
    (State.enterReady s).txt = s.txt ∧
    (State.enterReady s).set = s.set ∧
    (State.enterReady s).tab = s.tab ∧
    (State.enterReady s).intake = s.intake := by
  unfold State.enterReady
  (try dsimp only)
  (repeat' split) <;> first | rfl | done | simp_all

theorem State.askResume_frame (s : State) (paper : Bool) {t : State} (h : State.askResume s paper = some t) :
    t.pending = s.pending ∧ t.resetHeld = s.resetHeld ∧ t.coverOpen = s.coverOpen ∧ t.free = s.free ∧ t.rx = s.rx ∧ t.keyq = s.keyq ∧ t.txt = s.txt ∧ t.set = s.set ∧ t.tab = s.tab ∧ t.intake = s.intake := by
  unfold State.askResume at h
  (try dsimp only at h)
  split at h <;> simp_all <;> (subst h; simp)

@[simp] theorem State.evalPause_frame (s : State) (paper : Bool) :
    (State.evalPause s paper).state.pending = s.pending ∧
    (State.evalPause s paper).state.resetHeld = s.resetHeld ∧
    (State.evalPause s paper).state.coverOpen = s.coverOpen ∧
    (State.evalPause s paper).state.free = s.free ∧
    (State.evalPause s paper).state.rx = s.rx ∧
    (State.evalPause s paper).state.keyq = s.keyq ∧
    (State.evalPause s paper).state.txt = s.txt ∧
    (State.evalPause s paper).state.set = s.set ∧
    (State.evalPause s paper).state.tab = s.tab ∧
    (State.evalPause s paper).state.intake = s.intake := by
  unfold State.evalPause
  (repeat' split) <;> (try simp_all [Eval.taken, Eval.waits, Eval.refused])
  all_goals
    rename_i hr
    have h0 := State.askResume_frame _ _ hr
    simp [h0]

@[simp] theorem State.evalPitchCycle_frame (s : State) :
    (State.evalPitchCycle s).state.pending = s.pending ∧
    (State.evalPitchCycle s).state.resetHeld = s.resetHeld ∧
    (State.evalPitchCycle s).state.coverOpen = s.coverOpen ∧
    (State.evalPitchCycle s).state.free = s.free ∧
    (State.evalPitchCycle s).state.rx = s.rx ∧
    (State.evalPitchCycle s).state.keyq = s.keyq ∧
    (State.evalPitchCycle s).state.txt = s.txt ∧
    (State.evalPitchCycle s).state.ret = s.ret ∧
    (State.evalPitchCycle s).state.set = s.set ∧
    (State.evalPitchCycle s).state.tab = s.tab ∧
    (State.evalPitchCycle s).state.intake = s.intake ∧
    (State.evalPitchCycle s).state.seq = s.seq ∧
    (State.evalPitchCycle s).state.drv = s.drv := by
  unfold State.evalPitchCycle
  first | rfl | done | simp_all [Eval.taken]

@[simp] theorem State.directRelocate_frame (s : State) :
    (State.directRelocate s).state.pending = s.pending ∧
    (State.directRelocate s).state.resetHeld = s.resetHeld ∧
    (State.directRelocate s).state.coverOpen = s.coverOpen ∧
    (State.directRelocate s).state.free = s.free ∧
    (State.directRelocate s).state.rx = s.rx ∧
    (State.directRelocate s).state.keyq = s.keyq ∧
    (State.directRelocate s).state.txt = s.txt ∧
    (State.directRelocate s).state.set = s.set ∧
    (State.directRelocate s).state.tab = s.tab ∧
    (State.directRelocate s).state.intake = s.intake := by
  unfold State.directRelocate
  simp only [State.withRoom]
  (repeat' split) <;> simp_all [Eval.taken, Eval.waits]

@[simp] theorem State.evalRelocate_frame (s : State) :
    (State.evalRelocate s).state.pending = s.pending ∧
    (State.evalRelocate s).state.resetHeld = s.resetHeld ∧
    (State.evalRelocate s).state.coverOpen = s.coverOpen ∧
    (State.evalRelocate s).state.free = s.free ∧
    (State.evalRelocate s).state.rx = s.rx ∧
    (State.evalRelocate s).state.keyq = s.keyq ∧
    (State.evalRelocate s).state.txt = s.txt ∧
    (State.evalRelocate s).state.set = s.set ∧
    (State.evalRelocate s).state.tab = s.tab ∧
    (State.evalRelocate s).state.intake = s.intake := by
  unfold State.evalRelocate
  (repeat' split) <;> first | rfl | done | simp_all [Eval.taken]

@[simp] theorem State.evalReturn_frame (s : State) :
    (State.evalReturn s).state.pending = s.pending ∧
    (State.evalReturn s).state.resetHeld = s.resetHeld ∧
    (State.evalReturn s).state.coverOpen = s.coverOpen ∧
    (State.evalReturn s).state.free = s.free ∧
    (State.evalReturn s).state.rx = s.rx ∧
    (State.evalReturn s).state.keyq = s.keyq ∧
    (State.evalReturn s).state.txt = s.txt ∧
    (State.evalReturn s).state.set = s.set ∧
    (State.evalReturn s).state.tab = s.tab ∧
    (State.evalReturn s).state.intake = s.intake := by
  unfold State.evalReturn
  (repeat' split) <;> first
    | (simp; done)
    | (rename_i hr; simp [Eval.taken, Eval.waits, Eval.refused, Release.state_of_wait hr]; done)
    | (rename_i hr; simp [Eval.taken, Eval.waits, Eval.refused, Release.state_of_refused hr]; done)
    | (rename_i hr; simp [Eval.taken, Eval.waits, Eval.refused, Release.state_of_done hr])

@[simp] theorem State.evalSourceToggle_frame (s : State) :
    (State.evalSourceToggle s).state.pending = s.pending ∧
    (State.evalSourceToggle s).state.resetHeld = s.resetHeld ∧
    (State.evalSourceToggle s).state.coverOpen = s.coverOpen ∧
    (State.evalSourceToggle s).state.free = s.free ∧
    (State.evalSourceToggle s).state.rx = s.rx ∧
    (State.evalSourceToggle s).state.keyq = s.keyq ∧
    (State.evalSourceToggle s).state.txt = s.txt ∧
    (State.evalSourceToggle s).state.ret = s.ret ∧
    (State.evalSourceToggle s).state.set = s.set ∧
    (State.evalSourceToggle s).state.tab = s.tab ∧
    (State.evalSourceToggle s).state.intake = s.intake ∧
    (State.evalSourceToggle s).state.seq = s.seq ∧
    (State.evalSourceToggle s).state.drv = s.drv := by
  unfold State.evalSourceToggle
  first | rfl | done | simp_all [Eval.taken]

@[simp] theorem State.evalSpace_frame (s : State) :
    (State.evalSpace s).state.pending = s.pending ∧
    (State.evalSpace s).state.resetHeld = s.resetHeld ∧
    (State.evalSpace s).state.coverOpen = s.coverOpen ∧
    (State.evalSpace s).state.free = s.free ∧
    (State.evalSpace s).state.rx = s.rx ∧
    (State.evalSpace s).state.keyq = s.keyq ∧
    (State.evalSpace s).state.txt = s.txt ∧
    (State.evalSpace s).state.set = s.set ∧
    (State.evalSpace s).state.tab = s.tab ∧
    (State.evalSpace s).state.intake = s.intake := by
  unfold State.evalSpace
  first | rfl | done | simp_all

@[simp] theorem State.startSweep_frame (s : State) :
    (State.startSweep s).pending = s.pending ∧
    (State.startSweep s).resetHeld = s.resetHeld ∧
    (State.startSweep s).coverOpen = s.coverOpen ∧
    (State.startSweep s).free = s.free ∧
    (State.startSweep s).rx = s.rx ∧
    (State.startSweep s).keyq = s.keyq ∧
    (State.startSweep s).txt = s.txt ∧
    (State.startSweep s).ret = s.ret ∧
    (State.startSweep s).set = s.set ∧
    (State.startSweep s).tab = s.tab ∧
    (State.startSweep s).intake = s.intake ∧
    (State.startSweep s).comp = s.comp ∧
    (State.startSweep s).seq = s.seq ∧
    (State.startSweep s).drv = s.drv ∧
    (State.startSweep s).line = s.line ∧
    (State.startSweep s).disp = s.disp := by
  unfold State.startSweep
  (try dsimp only)
  first | rfl | done | simp_all

@[simp] theorem State.setSpell_frame (s : State) (v : Bool) :
    (State.setSpell s v).pending = s.pending ∧
    (State.setSpell s v).resetHeld = s.resetHeld ∧
    (State.setSpell s v).coverOpen = s.coverOpen ∧
    (State.setSpell s v).free = s.free ∧
    (State.setSpell s v).rx = s.rx ∧
    (State.setSpell s v).keyq = s.keyq ∧
    (State.setSpell s v).txt = s.txt ∧
    (State.setSpell s v).ret = s.ret ∧
    (State.setSpell s v).tab = s.tab ∧
    (State.setSpell s v).intake = s.intake ∧
    (State.setSpell s v).comp = s.comp ∧
    (State.setSpell s v).seq = s.seq ∧
    (State.setSpell s v).drv = s.drv ∧
    (State.setSpell s v).line = s.line ∧
    (State.setSpell s v).disp = s.disp := by
  unfold State.setSpell
  (try dsimp only)
  (repeat' split) <;> first | rfl | done | simp_all

@[simp] theorem State.evalSpellToggle_frame (s : State) :
    (State.evalSpellToggle s).state.pending = s.pending ∧
    (State.evalSpellToggle s).state.resetHeld = s.resetHeld ∧
    (State.evalSpellToggle s).state.coverOpen = s.coverOpen ∧
    (State.evalSpellToggle s).state.free = s.free ∧
    (State.evalSpellToggle s).state.rx = s.rx ∧
    (State.evalSpellToggle s).state.keyq = s.keyq ∧
    (State.evalSpellToggle s).state.txt = s.txt ∧
    (State.evalSpellToggle s).state.ret = s.ret ∧
    (State.evalSpellToggle s).state.tab = s.tab ∧
    (State.evalSpellToggle s).state.intake = s.intake ∧
    (State.evalSpellToggle s).state.comp = s.comp ∧
    (State.evalSpellToggle s).state.seq = s.seq ∧
    (State.evalSpellToggle s).state.drv = s.drv ∧
    (State.evalSpellToggle s).state.line = s.line ∧
    (State.evalSpellToggle s).state.disp = s.disp := by
  unfold State.evalSpellToggle
  first | rfl | done | simp_all [Eval.taken]

@[simp] theorem State.tabTo_frame (s : State) (t : TabStop) :
    (State.tabTo s t).pending = s.pending ∧
    (State.tabTo s t).resetHeld = s.resetHeld ∧
    (State.tabTo s t).coverOpen = s.coverOpen ∧
    (State.tabTo s t).free = s.free ∧
    (State.tabTo s t).rx = s.rx ∧
    (State.tabTo s t).keyq = s.keyq ∧
    (State.tabTo s t).txt = s.txt ∧
    (State.tabTo s t).ret = s.ret ∧
    (State.tabTo s t).set = s.set ∧
    (State.tabTo s t).tab = s.tab ∧
    (State.tabTo s t).intake = s.intake ∧
    (State.tabTo s t).seq = s.seq ∧
    (State.tabTo s t).drv = s.drv ∧
    (State.tabTo s t).disp = s.disp := by
  unfold State.tabTo
  (try dsimp only)
  first | rfl | done | simp_all

@[simp] theorem State.evalTab_frame (s : State) :
    (State.evalTab s).state.pending = s.pending ∧
    (State.evalTab s).state.resetHeld = s.resetHeld ∧
    (State.evalTab s).state.coverOpen = s.coverOpen ∧
    (State.evalTab s).state.free = s.free ∧
    (State.evalTab s).state.rx = s.rx ∧
    (State.evalTab s).state.keyq = s.keyq ∧
    (State.evalTab s).state.txt = s.txt ∧
    (State.evalTab s).state.set = s.set ∧
    (State.evalTab s).state.tab = s.tab ∧
    (State.evalTab s).state.intake = s.intake ∧
    (State.evalTab s).state.seq = s.seq ∧
    (State.evalTab s).state.drv = s.drv := by
  unfold State.evalTab
  (repeat' split) <;> first | rfl | done | simp_all [Eval.taken, Eval.refused]

theorem State.changeTabs_frame (s : State) (tabs : List TabStop) {t : State} (h : State.changeTabs s tabs = some t) :
    t.pending = s.pending ∧ t.resetHeld = s.resetHeld ∧ t.coverOpen = s.coverOpen ∧ t.free = s.free ∧ t.rx = s.rx ∧ t.keyq = s.keyq ∧ t.txt = s.txt ∧ t.ret = s.ret ∧ t.set = s.set ∧ t.ctr = s.ctr ∧ t.tab = s.tab ∧ t.intake = s.intake ∧ t.seq = s.seq ∧ t.drv = s.drv ∧ t.line = s.line ∧ t.spell = s.spell ∧ t.disp = s.disp := by
  unfold State.changeTabs at h
  (try dsimp only at h)
  split at h <;> simp_all <;> (subst h; simp)

@[simp] theorem State.evalTabClear_frame (s : State) :
    (State.evalTabClear s).state.pending = s.pending ∧
    (State.evalTabClear s).state.resetHeld = s.resetHeld ∧
    (State.evalTabClear s).state.coverOpen = s.coverOpen ∧
    (State.evalTabClear s).state.free = s.free ∧
    (State.evalTabClear s).state.rx = s.rx ∧
    (State.evalTabClear s).state.keyq = s.keyq ∧
    (State.evalTabClear s).state.txt = s.txt ∧
    (State.evalTabClear s).state.ret = s.ret ∧
    (State.evalTabClear s).state.set = s.set ∧
    (State.evalTabClear s).state.ctr = s.ctr ∧
    (State.evalTabClear s).state.tab = s.tab ∧
    (State.evalTabClear s).state.intake = s.intake ∧
    (State.evalTabClear s).state.seq = s.seq ∧
    (State.evalTabClear s).state.drv = s.drv ∧
    (State.evalTabClear s).state.line = s.line ∧
    (State.evalTabClear s).state.spell = s.spell := by
  unfold State.evalTabClear
  dsimp only
  (repeat' split) <;> (try simp_all [Eval.taken, Eval.waits, Eval.refused])
  all_goals
    rename_i hr
    have h0 := State.changeTabs_frame _ _ hr
    simp [h0]

@[simp] theorem State.evalTabSet_frame (s : State) (decimal : Bool) :
    (State.evalTabSet s decimal).state.pending = s.pending ∧
    (State.evalTabSet s decimal).state.resetHeld = s.resetHeld ∧
    (State.evalTabSet s decimal).state.coverOpen = s.coverOpen ∧
    (State.evalTabSet s decimal).state.free = s.free ∧
    (State.evalTabSet s decimal).state.rx = s.rx ∧
    (State.evalTabSet s decimal).state.keyq = s.keyq ∧
    (State.evalTabSet s decimal).state.txt = s.txt ∧
    (State.evalTabSet s decimal).state.ret = s.ret ∧
    (State.evalTabSet s decimal).state.set = s.set ∧
    (State.evalTabSet s decimal).state.ctr = s.ctr ∧
    (State.evalTabSet s decimal).state.tab = s.tab ∧
    (State.evalTabSet s decimal).state.intake = s.intake ∧
    (State.evalTabSet s decimal).state.seq = s.seq ∧
    (State.evalTabSet s decimal).state.drv = s.drv ∧
    (State.evalTabSet s decimal).state.line = s.line ∧
    (State.evalTabSet s decimal).state.spell = s.spell := by
  unfold State.evalTabSet
  dsimp only
  (repeat' split) <;> (try simp_all [Eval.taken, Eval.waits, Eval.refused])
  all_goals
    rename_i hr
    have h0 := State.changeTabs_frame _ _ hr
    simp [h0]

@[simp] theorem State.evalUnderline_frame (s : State) :
    (State.evalUnderline s).state.pending = s.pending ∧
    (State.evalUnderline s).state.resetHeld = s.resetHeld ∧
    (State.evalUnderline s).state.coverOpen = s.coverOpen ∧
    (State.evalUnderline s).state.free = s.free ∧
    (State.evalUnderline s).state.rx = s.rx ∧
    (State.evalUnderline s).state.keyq = s.keyq ∧
    (State.evalUnderline s).state.txt = s.txt ∧
    (State.evalUnderline s).state.ret = s.ret ∧
    (State.evalUnderline s).state.set = s.set ∧
    (State.evalUnderline s).state.ctr = s.ctr ∧
    (State.evalUnderline s).state.tab = s.tab ∧
    (State.evalUnderline s).state.intake = s.intake ∧
    (State.evalUnderline s).state.seq = s.seq ∧
    (State.evalUnderline s).state.drv = s.drv ∧
    (State.evalUnderline s).state.line = s.line ∧
    (State.evalUnderline s).state.spell = s.spell ∧
    (State.evalUnderline s).state.disp = s.disp := by
  unfold State.evalUnderline
  (try dsimp only)
  first | rfl | done | simp_all [Eval.taken]

@[simp] theorem State.deleteWord_frame (s : State) :
    (State.deleteWord s).state.pending = s.pending ∧
    (State.deleteWord s).state.resetHeld = s.resetHeld ∧
    (State.deleteWord s).state.coverOpen = s.coverOpen ∧
    (State.deleteWord s).state.free = s.free ∧
    (State.deleteWord s).state.rx = s.rx ∧
    (State.deleteWord s).state.keyq = s.keyq ∧
    (State.deleteWord s).state.txt = s.txt ∧
    (State.deleteWord s).state.ret = s.ret ∧
    (State.deleteWord s).state.set = s.set ∧
    (State.deleteWord s).state.tab = s.tab ∧
    (State.deleteWord s).state.intake = s.intake ∧
    (State.deleteWord s).state.seq = s.seq ∧
    (State.deleteWord s).state.drv = s.drv := by
  unfold State.deleteWord
  (repeat' split) <;> first | rfl | done | simp_all [Eval.refused]

@[simp] theorem State.evalWordCorrect_frame (s : State) :
    (State.evalWordCorrect s).state.pending = s.pending ∧
    (State.evalWordCorrect s).state.resetHeld = s.resetHeld ∧
    (State.evalWordCorrect s).state.coverOpen = s.coverOpen ∧
    (State.evalWordCorrect s).state.free = s.free ∧
    (State.evalWordCorrect s).state.rx = s.rx ∧
    (State.evalWordCorrect s).state.keyq = s.keyq ∧
    (State.evalWordCorrect s).state.txt = s.txt ∧
    (State.evalWordCorrect s).state.set = s.set ∧
    (State.evalWordCorrect s).state.tab = s.tab ∧
    (State.evalWordCorrect s).state.intake = s.intake := by
  unfold State.evalWordCorrect
  (repeat' split) <;> first | rfl | done | simp_all

@[simp] theorem State.evalFunc_frame (s : State) (paper : Bool) (x : Func) :
    (State.evalFunc s paper x).state.pending = s.pending ∧
    (State.evalFunc s paper x).state.resetHeld = s.resetHeld ∧
    (State.evalFunc s paper x).state.coverOpen = s.coverOpen ∧
    (State.evalFunc s paper x).state.free = s.free ∧
    (State.evalFunc s paper x).state.rx = s.rx ∧
    (State.evalFunc s paper x).state.keyq = s.keyq ∧
    (State.evalFunc s paper x).state.txt = s.txt ∧
    (State.evalFunc s paper x).state.tab = s.tab ∧
    (State.evalFunc s paper x).state.intake = s.intake := by
  unfold State.evalFunc
  (repeat' split) <;> first | rfl | done | simp_all [Eval.taken]

@[simp] theorem State.evalKey_frame (s : State) (paper : Bool) (a : KeyAction) :
    (State.evalKey s paper a).state.pending = s.pending ∧
    (State.evalKey s paper a).state.resetHeld = s.resetHeld ∧
    (State.evalKey s paper a).state.coverOpen = s.coverOpen ∧
    (State.evalKey s paper a).state.free = s.free ∧
    (State.evalKey s paper a).state.rx = s.rx ∧
    (State.evalKey s paper a).state.keyq = s.keyq ∧
    (State.evalKey s paper a).state.txt = s.txt ∧
    (State.evalKey s paper a).state.tab = s.tab ∧
    (State.evalKey s paper a).state.intake = s.intake := by
  unfold State.evalKey
  (repeat' split) <;> first | rfl | done | simp_all [Eval.refused]

@[simp] theorem State.settleKey_frame (pre : State) (s : State) (anew : Bool) :
    (State.settleKey pre s anew).pending = s.pending ∧
    (State.settleKey pre s anew).resetHeld = s.resetHeld ∧
    (State.settleKey pre s anew).coverOpen = s.coverOpen ∧
    (State.settleKey pre s anew).free = s.free ∧
    (State.settleKey pre s anew).rx = s.rx ∧
    (State.settleKey pre s anew).txt = s.txt ∧
    (State.settleKey pre s anew).tab = s.tab := by
  unfold State.settleKey
  (repeat' split) <;> first | rfl | done | simp_all

@[simp] theorem State.advanceAbsent_frame (s : State) (code : Byte) :
    (State.advanceAbsent s code).pending = s.pending ∧
    (State.advanceAbsent s code).resetHeld = s.resetHeld ∧
    (State.advanceAbsent s code).coverOpen = s.coverOpen ∧
    (State.advanceAbsent s code).free = s.free ∧
    (State.advanceAbsent s code).rx = s.rx ∧
    (State.advanceAbsent s code).keyq = s.keyq ∧
    (State.advanceAbsent s code).txt = s.txt ∧
    (State.advanceAbsent s code).set = s.set ∧
    (State.advanceAbsent s code).tab = s.tab ∧
    (State.advanceAbsent s code).intake = s.intake ∧
    (State.advanceAbsent s code).seq = s.seq ∧
    (State.advanceAbsent s code).drv = s.drv ∧
    (State.advanceAbsent s code).line = s.line ∧
    (State.advanceAbsent s code).spell = s.spell := by
  unfold State.advanceAbsent
  (try dsimp only)
  (repeat' split) <;> first | rfl | done | simp_all

@[simp] theorem State.placeRemote_frame (s : State) (code : Byte) :
    (State.placeRemote s code).state.pending = s.pending ∧
    (State.placeRemote s code).state.resetHeld = s.resetHeld ∧
    (State.placeRemote s code).state.coverOpen = s.coverOpen ∧
    (State.placeRemote s code).state.free = s.free ∧
    (State.placeRemote s code).state.rx = s.rx ∧
    (State.placeRemote s code).state.keyq = s.keyq ∧
    (State.placeRemote s code).state.txt = s.txt ∧
    (State.placeRemote s code).state.set = s.set ∧
    (State.placeRemote s code).state.tab = s.tab ∧
    (State.placeRemote s code).state.intake = s.intake := by
  unfold State.placeRemote
  (repeat' split) <;> first | rfl | done | simp_all [Eval.taken, Eval.waits]

@[simp] theorem State.afterAutoReturn_frame (s : State) (code : Byte) :
    (State.afterAutoReturn s code).state.pending = s.pending ∧
    (State.afterAutoReturn s code).state.resetHeld = s.resetHeld ∧
    (State.afterAutoReturn s code).state.coverOpen = s.coverOpen ∧
    (State.afterAutoReturn s code).state.free = s.free ∧
    (State.afterAutoReturn s code).state.rx = s.rx ∧
    (State.afterAutoReturn s code).state.keyq = s.keyq ∧
    (State.afterAutoReturn s code).state.txt = s.txt ∧
    (State.afterAutoReturn s code).state.set = s.set ∧
    (State.afterAutoReturn s code).state.tab = s.tab ∧
    (State.afterAutoReturn s code).state.intake = s.intake := by
  unfold State.afterAutoReturn
  (repeat' split) <;> first | rfl | done | simp_all [Eval.taken, Eval.waits]

@[simp] theorem State.discardPastMargin_frame (s : State) :
    (State.discardPastMargin s).pending = s.pending ∧
    (State.discardPastMargin s).resetHeld = s.resetHeld ∧
    (State.discardPastMargin s).coverOpen = s.coverOpen ∧
    (State.discardPastMargin s).free = s.free ∧
    (State.discardPastMargin s).rx = s.rx ∧
    (State.discardPastMargin s).keyq = s.keyq ∧
    (State.discardPastMargin s).txt = s.txt ∧
    (State.discardPastMargin s).set = s.set ∧
    (State.discardPastMargin s).tab = s.tab ∧
    (State.discardPastMargin s).intake = s.intake ∧
    (State.discardPastMargin s).seq = s.seq ∧
    (State.discardPastMargin s).drv = s.drv ∧
    (State.discardPastMargin s).line = s.line ∧
    (State.discardPastMargin s).spell = s.spell ∧
    (State.discardPastMargin s).disp = s.disp := by
  unfold State.discardPastMargin
  (try dsimp only)
  (repeat' split) <;> first | rfl | done | simp_all

@[simp] theorem State.remoteChar_frame (s : State) (code : Byte) :
    (State.remoteChar s code).state.pending = s.pending ∧
    (State.remoteChar s code).state.resetHeld = s.resetHeld ∧
    (State.remoteChar s code).state.coverOpen = s.coverOpen ∧
    (State.remoteChar s code).state.free = s.free ∧
    (State.remoteChar s code).state.rx = s.rx ∧
    (State.remoteChar s code).state.keyq = s.keyq ∧
    (State.remoteChar s code).state.txt = s.txt ∧
    (State.remoteChar s code).state.set = s.set ∧
    (State.remoteChar s code).state.tab = s.tab ∧
    (State.remoteChar s code).state.intake = s.intake := by
  unfold State.remoteChar
  (repeat' split) <;> first | rfl | done | simp_all [Eval.taken, Eval.waits]

@[simp] theorem State.evalText_frame (s : State) (code : Byte) :
    (State.evalText s code).state.pending = s.pending ∧
    (State.evalText s code).state.resetHeld = s.resetHeld ∧
    (State.evalText s code).state.coverOpen = s.coverOpen ∧
    (State.evalText s code).state.free = s.free ∧
    (State.evalText s code).state.rx = s.rx ∧
    (State.evalText s code).state.keyq = s.keyq ∧
    (State.evalText s code).state.txt = s.txt ∧
    (State.evalText s code).state.set = s.set ∧
    (State.evalText s code).state.tab = s.tab ∧
    (State.evalText s code).state.intake = s.intake := by
  unfold State.evalText
  (repeat' split) <;> first | rfl | done | simp_all [Eval.taken]

@[simp] theorem State.settleText_frame (pre : State) (mid : State) (s : State) (anew : Bool) :
    (State.settleText pre mid s anew).pending = s.pending ∧
    (State.settleText pre mid s anew).resetHeld = s.resetHeld ∧
    (State.settleText pre mid s anew).coverOpen = s.coverOpen ∧
    (State.settleText pre mid s anew).free = s.free ∧
    (State.settleText pre mid s anew).rx = s.rx ∧
    (State.settleText pre mid s anew).keyq = s.keyq ∧
    (State.settleText pre mid s anew).set = s.set ∧
    (State.settleText pre mid s anew).tab = s.tab ∧
    (State.settleText pre mid s anew).intake = s.intake := by
  unfold State.settleText
  (try dsimp only)
  (repeat' split) <;> first | rfl | done | simp_all

@[simp] theorem State.settle_frame (s : State) (pre : State) (anew : Bool) :
    (State.settle s pre anew).pending = s.pending ∧
    (State.settle s pre anew).resetHeld = s.resetHeld ∧
    (State.settle s pre anew).coverOpen = s.coverOpen ∧
    (State.settle s pre anew).free = s.free ∧
    (State.settle s pre anew).rx = s.rx ∧
    (State.settle s pre anew).tab = s.tab := by
  unfold State.settle
  first | rfl | done | simp_all

@[simp] theorem State.startHoming_frame (s : State) :
    (State.startHoming s).pending = s.pending ∧
    (State.startHoming s).resetHeld = s.resetHeld ∧
    (State.startHoming s).coverOpen = s.coverOpen ∧
    (State.startHoming s).rx = s.rx ∧
    (State.startHoming s).keyq = s.keyq ∧
    (State.startHoming s).txt = s.txt ∧
    (State.startHoming s).set = s.set ∧
    (State.startHoming s).tab = s.tab ∧
    (State.startHoming s).intake = s.intake ∧
    (State.startHoming s).comp = s.comp ∧
    (State.startHoming s).line = s.line ∧
    (State.startHoming s).spell = s.spell ∧
    (State.startHoming s).disp = s.disp := by
  unfold State.startHoming
  (try dsimp only)
  (repeat' split) <;> first | rfl | done | simp_all

@[simp] theorem State.event_fold_frame (l : List FaultRec) (s : State) :
    (l.foldl (fun s f => s.event (.faultCleared f.kind f.ch)) s).pending = s.pending ∧
    (l.foldl (fun s f => s.event (.faultCleared f.kind f.ch)) s).resetHeld = s.resetHeld ∧
    (l.foldl (fun s f => s.event (.faultCleared f.kind f.ch)) s).coverOpen = s.coverOpen ∧
    (l.foldl (fun s f => s.event (.faultCleared f.kind f.ch)) s).free = s.free ∧
    (l.foldl (fun s f => s.event (.faultCleared f.kind f.ch)) s).rx = s.rx ∧
    (l.foldl (fun s f => s.event (.faultCleared f.kind f.ch)) s).keyq = s.keyq ∧
    (l.foldl (fun s f => s.event (.faultCleared f.kind f.ch)) s).txt = s.txt ∧
    (l.foldl (fun s f => s.event (.faultCleared f.kind f.ch)) s).set = s.set ∧
    (l.foldl (fun s f => s.event (.faultCleared f.kind f.ch)) s).tab = s.tab ∧
    (l.foldl (fun s f => s.event (.faultCleared f.kind f.ch)) s).intake = s.intake ∧
    (l.foldl (fun s f => s.event (.faultCleared f.kind f.ch)) s).comp = s.comp ∧
    (l.foldl (fun s f => s.event (.faultCleared f.kind f.ch)) s).seq = s.seq ∧
    (l.foldl (fun s f => s.event (.faultCleared f.kind f.ch)) s).drv = s.drv ∧
    (l.foldl (fun s f => s.event (.faultCleared f.kind f.ch)) s).line = s.line ∧
    (l.foldl (fun s f => s.event (.faultCleared f.kind f.ch)) s).spell = s.spell ∧
    (l.foldl (fun s f => s.event (.faultCleared f.kind f.ch)) s).disp = s.disp := by
  induction l generalizing s with
  | nil => simp
  | cons a l ih => simp [ih]

@[simp] theorem State.tellCleared_frame (s : State) (l : List FaultRec) :
    (State.tellCleared s l).pending = s.pending ∧
    (State.tellCleared s l).resetHeld = s.resetHeld ∧
    (State.tellCleared s l).coverOpen = s.coverOpen ∧
    (State.tellCleared s l).free = s.free ∧
    (State.tellCleared s l).rx = s.rx ∧
    (State.tellCleared s l).keyq = s.keyq ∧
    (State.tellCleared s l).txt = s.txt ∧
    (State.tellCleared s l).set = s.set ∧
    (State.tellCleared s l).tab = s.tab ∧
    (State.tellCleared s l).intake = s.intake ∧
    (State.tellCleared s l).comp = s.comp ∧
    (State.tellCleared s l).seq = s.seq ∧
    (State.tellCleared s l).drv = s.drv ∧
    (State.tellCleared s l).line = s.line ∧
    (State.tellCleared s l).spell = s.spell ∧
    (State.tellCleared s l).disp = s.disp := by
  unfold State.tellCleared
  first | rfl | done | simp_all

@[simp] theorem State.ackFaults_frame (s : State) :
    (State.ackFaults s).pending = s.pending ∧
    (State.ackFaults s).resetHeld = s.resetHeld ∧
    (State.ackFaults s).coverOpen = s.coverOpen ∧
    (State.ackFaults s).rx = s.rx ∧
    (State.ackFaults s).tab = s.tab := by
  unfold State.ackFaults
  (try dsimp only)
  (repeat' split) <;> first | rfl | done | simp_all

@[simp] theorem State.afterIndex_frame (s : State) (paper : Bool) :
    (State.afterIndex s paper).pending = s.pending ∧
    (State.afterIndex s paper).resetHeld = s.resetHeld ∧
    (State.afterIndex s paper).coverOpen = s.coverOpen ∧
    (State.afterIndex s paper).free = s.free ∧
    (State.afterIndex s paper).rx = s.rx ∧
    (State.afterIndex s paper).keyq = s.keyq ∧
    (State.afterIndex s paper).txt = s.txt ∧
    (State.afterIndex s paper).set = s.set ∧
    (State.afterIndex s paper).tab = s.tab ∧
    (State.afterIndex s paper).intake = s.intake := by
  unfold State.afterIndex
  (try dsimp only)
  (repeat' split) <;> first | rfl | done | simp_all

@[simp] theorem State.appendKey_frame (s : State) (b : Byte) :
    (State.appendKey s b).pending = s.pending ∧
    (State.appendKey s b).resetHeld = s.resetHeld ∧
    (State.appendKey s b).coverOpen = s.coverOpen ∧
    (State.appendKey s b).free = s.free ∧
    (State.appendKey s b).rx = s.rx ∧
    (State.appendKey s b).txt = s.txt ∧
    (State.appendKey s b).set = s.set ∧
    (State.appendKey s b).tab = s.tab ∧
    (State.appendKey s b).intake = s.intake ∧
    (State.appendKey s b).comp = s.comp ∧
    (State.appendKey s b).seq = s.seq ∧
    (State.appendKey s b).drv = s.drv ∧
    (State.appendKey s b).line = s.line ∧
    (State.appendKey s b).spell = s.spell := by
  unfold State.appendKey
  (try dsimp only)
  (repeat' split) <;> first | rfl | done | simp_all

@[simp] theorem State.appendKey_fold_frame (l : List Byte) (s : State) :
    (l.foldl State.appendKey s).pending = s.pending ∧
    (l.foldl State.appendKey s).resetHeld = s.resetHeld ∧
    (l.foldl State.appendKey s).coverOpen = s.coverOpen ∧
    (l.foldl State.appendKey s).free = s.free ∧
    (l.foldl State.appendKey s).rx = s.rx ∧
    (l.foldl State.appendKey s).txt = s.txt ∧
    (l.foldl State.appendKey s).set = s.set ∧
    (l.foldl State.appendKey s).tab = s.tab ∧
    (l.foldl State.appendKey s).intake = s.intake ∧
    (l.foldl State.appendKey s).comp = s.comp ∧
    (l.foldl State.appendKey s).seq = s.seq ∧
    (l.foldl State.appendKey s).drv = s.drv ∧
    (l.foldl State.appendKey s).line = s.line ∧
    (l.foldl State.appendKey s).spell = s.spell := by
  induction l generalizing s with
  | nil => simp
  | cons a l ih => simp [ih]

@[simp] theorem State.appendKeys_frame (s : State) (l : List Byte) :
    (State.appendKeys s l).pending = s.pending ∧
    (State.appendKeys s l).resetHeld = s.resetHeld ∧
    (State.appendKeys s l).coverOpen = s.coverOpen ∧
    (State.appendKeys s l).free = s.free ∧
    (State.appendKeys s l).rx = s.rx ∧
    (State.appendKeys s l).txt = s.txt ∧
    (State.appendKeys s l).set = s.set ∧
    (State.appendKeys s l).tab = s.tab ∧
    (State.appendKeys s l).intake = s.intake ∧
    (State.appendKeys s l).comp = s.comp ∧
    (State.appendKeys s l).seq = s.seq ∧
    (State.appendKeys s l).drv = s.drv ∧
    (State.appendKeys s l).line = s.line ∧
    (State.appendKeys s l).spell = s.spell := by
  unfold State.appendKeys
  first | rfl | done | simp_all

theorem State.applyLine_frame (s : State) (v : LineValue) {t : State} (h : State.applyLine s v = .done t ∨ State.applyLine s v = .later t) :
    t.pending = s.pending ∧ t.resetHeld = s.resetHeld ∧ t.coverOpen = s.coverOpen ∧ t.free = s.free ∧ t.rx = s.rx ∧ t.keyq = s.keyq ∧ t.txt = s.txt ∧ t.ret = s.ret ∧ t.set = s.set ∧ t.tab = s.tab ∧ t.intake = s.intake ∧ t.seq = s.seq ∧ t.drv = s.drv := by
  unfold State.applyLine at h
  split at h <;> simp_all <;> (subst h; simp)

@[simp] theorem State.applyLookup_frame (s : State) (l : Lookup) (found : Bool) :
    (State.applyLookup s l found).pending = s.pending ∧
    (State.applyLookup s l found).resetHeld = s.resetHeld ∧
    (State.applyLookup s l found).coverOpen = s.coverOpen ∧
    (State.applyLookup s l found).free = s.free ∧
    (State.applyLookup s l found).rx = s.rx ∧
    (State.applyLookup s l found).keyq = s.keyq ∧
    (State.applyLookup s l found).txt = s.txt ∧
    (State.applyLookup s l found).set = s.set ∧
    (State.applyLookup s l found).tab = s.tab ∧
    (State.applyLookup s l found).intake = s.intake ∧
    (State.applyLookup s l found).comp = s.comp ∧
    (State.applyLookup s l found).seq = s.seq ∧
    (State.applyLookup s l found).drv = s.drv ∧
    (State.applyLookup s l found).line = s.line := by
  unfold State.applyLookup
  (repeat' split) <;> first | rfl | done | simp_all

@[simp] theorem State.rejudge_frame (s : State) :
    (State.rejudge s).pending = s.pending ∧
    (State.rejudge s).resetHeld = s.resetHeld ∧
    (State.rejudge s).coverOpen = s.coverOpen ∧
    (State.rejudge s).free = s.free ∧
    (State.rejudge s).rx = s.rx ∧
    (State.rejudge s).keyq = s.keyq ∧
    (State.rejudge s).txt = s.txt ∧
    (State.rejudge s).set = s.set ∧
    (State.rejudge s).tab = s.tab ∧
    (State.rejudge s).intake = s.intake := by
  unfold State.rejudge
  (repeat' split) <;> first | rfl | done | simp_all

@[simp] theorem State.withSet_frame (s : State) (f : Settings → Settings) :
    (State.withSet s f).pending = s.pending ∧
    (State.withSet s f).resetHeld = s.resetHeld ∧
    (State.withSet s f).coverOpen = s.coverOpen ∧
    (State.withSet s f).free = s.free ∧
    (State.withSet s f).rx = s.rx ∧
    (State.withSet s f).keyq = s.keyq ∧
    (State.withSet s f).txt = s.txt ∧
    (State.withSet s f).ret = s.ret ∧
    (State.withSet s f).ctr = s.ctr ∧
    (State.withSet s f).tab = s.tab ∧
    (State.withSet s f).intake = s.intake ∧
    (State.withSet s f).comp = s.comp ∧
    (State.withSet s f).seq = s.seq ∧
    (State.withSet s f).drv = s.drv ∧
    (State.withSet s f).line = s.line ∧
    (State.withSet s f).spell = s.spell ∧
    (State.withSet s f).disp = s.disp := by
  unfold State.withSet
  (try dsimp only)
  first | rfl | done | simp_all

@[simp] theorem State.setBeeper_frame (s : State) (v : Bool) :
    (State.setBeeper s v).pending = s.pending ∧
    (State.setBeeper s v).resetHeld = s.resetHeld ∧
    (State.setBeeper s v).coverOpen = s.coverOpen ∧
    (State.setBeeper s v).free = s.free ∧
    (State.setBeeper s v).rx = s.rx ∧
    (State.setBeeper s v).keyq = s.keyq ∧
    (State.setBeeper s v).txt = s.txt ∧
    (State.setBeeper s v).ret = s.ret ∧
    (State.setBeeper s v).ctr = s.ctr ∧
    (State.setBeeper s v).tab = s.tab ∧
    (State.setBeeper s v).intake = s.intake ∧
    (State.setBeeper s v).comp = s.comp ∧
    (State.setBeeper s v).seq = s.seq ∧
    (State.setBeeper s v).drv = s.drv ∧
    (State.setBeeper s v).line = s.line ∧
    (State.setBeeper s v).spell = s.spell := by
  unfold State.setBeeper
  (try dsimp only)
  (repeat' split) <;> first | rfl | done | simp_all

theorem State.setDecimal_frame (s : State) (v : Bool) {t : State} (h : State.setDecimal s v = some t) :
    t.pending = s.pending ∧ t.resetHeld = s.resetHeld ∧ t.coverOpen = s.coverOpen ∧ t.free = s.free ∧ t.rx = s.rx ∧ t.keyq = s.keyq ∧ t.txt = s.txt ∧ t.ret = s.ret ∧ t.ctr = s.ctr ∧ t.tab = s.tab ∧ t.intake = s.intake ∧ t.seq = s.seq ∧ t.drv = s.drv ∧ t.line = s.line ∧ t.spell = s.spell ∧ t.disp = s.disp := by
  unfold State.setDecimal at h
  (try dsimp only at h)
  split at h <;> simp_all <;> (subst h; simp)

@[simp] theorem State.freshImage_frame (s : State) :
    (State.freshImage s).pending = s.pending ∧
    (State.freshImage s).resetHeld = s.resetHeld ∧
    (State.freshImage s).coverOpen = s.coverOpen ∧
    (State.freshImage s).free = s.free ∧
    (State.freshImage s).rx = s.rx ∧
    (State.freshImage s).keyq = s.keyq ∧
    (State.freshImage s).txt = s.txt ∧
    (State.freshImage s).ret = s.ret ∧
    (State.freshImage s).set = s.set ∧
    (State.freshImage s).ctr = s.ctr ∧
    (State.freshImage s).tab = s.tab ∧
    (State.freshImage s).intake = s.intake ∧
    (State.freshImage s).comp = s.comp ∧
    (State.freshImage s).seq = s.seq ∧
    (State.freshImage s).drv = s.drv ∧
    (State.freshImage s).line = s.line ∧
    (State.freshImage s).spell = s.spell := by
  unfold State.freshImage
  (try dsimp only)
  first | rfl | done | simp_all

@[simp] theorem State.setDisplay_frame (s : State) (v : Bool) :
    (State.setDisplay s v).pending = s.pending ∧
    (State.setDisplay s v).resetHeld = s.resetHeld ∧
    (State.setDisplay s v).coverOpen = s.coverOpen ∧
    (State.setDisplay s v).free = s.free ∧
    (State.setDisplay s v).rx = s.rx ∧
    (State.setDisplay s v).keyq = s.keyq ∧
    (State.setDisplay s v).txt = s.txt ∧
    (State.setDisplay s v).ret = s.ret ∧
    (State.setDisplay s v).ctr = s.ctr ∧
    (State.setDisplay s v).tab = s.tab ∧
    (State.setDisplay s v).intake = s.intake ∧
    (State.setDisplay s v).comp = s.comp ∧
    (State.setDisplay s v).seq = s.seq ∧
    (State.setDisplay s v).drv = s.drv ∧
    (State.setDisplay s v).line = s.line ∧
    (State.setDisplay s v).spell = s.spell := by
  unfold State.setDisplay
  (try dsimp only)
  (repeat' split) <;> first | rfl | done | simp_all

@[simp] theorem State.tellActive_frame (s : State) (k : TableKind) :
    (State.tellActive s k).pending = s.pending ∧
    (State.tellActive s k).resetHeld = s.resetHeld ∧
    (State.tellActive s k).coverOpen = s.coverOpen ∧
    (State.tellActive s k).free = s.free ∧
    (State.tellActive s k).rx = s.rx ∧
    (State.tellActive s k).keyq = s.keyq ∧
    (State.tellActive s k).txt = s.txt ∧
    (State.tellActive s k).set = s.set ∧
    (State.tellActive s k).tab = s.tab ∧
    (State.tellActive s k).intake = s.intake ∧
    (State.tellActive s k).comp = s.comp ∧
    (State.tellActive s k).seq = s.seq ∧
    (State.tellActive s k).drv = s.drv ∧
    (State.tellActive s k).line = s.line ∧
    (State.tellActive s k).spell = s.spell ∧
    (State.tellActive s k).disp = s.disp := by
  unfold State.tellActive
  (repeat' split) <;> first | rfl | done | simp_all

@[simp] theorem State.setKeyboard_frame (s : State) (v : ℕ) :
    (State.setKeyboard s v).pending = s.pending ∧
    (State.setKeyboard s v).resetHeld = s.resetHeld ∧
    (State.setKeyboard s v).coverOpen = s.coverOpen ∧
    (State.setKeyboard s v).free = s.free ∧
    (State.setKeyboard s v).rx = s.rx ∧
    (State.setKeyboard s v).keyq = s.keyq ∧
    (State.setKeyboard s v).txt = s.txt ∧
    (State.setKeyboard s v).tab = s.tab ∧
    (State.setKeyboard s v).comp = s.comp ∧
    (State.setKeyboard s v).seq = s.seq ∧
    (State.setKeyboard s v).drv = s.drv ∧
    (State.setKeyboard s v).line = s.line ∧
    (State.setKeyboard s v).spell = s.spell ∧
    (State.setKeyboard s v).disp = s.disp := by
  unfold State.setKeyboard
  (try dsimp only)
  (repeat' split) <;> first | rfl | done | simp_all

@[simp] theorem State.lexiconChanged_frame (s : State) :
    (State.lexiconChanged s).pending = s.pending ∧
    (State.lexiconChanged s).resetHeld = s.resetHeld ∧
    (State.lexiconChanged s).coverOpen = s.coverOpen ∧
    (State.lexiconChanged s).free = s.free ∧
    (State.lexiconChanged s).rx = s.rx ∧
    (State.lexiconChanged s).keyq = s.keyq ∧
    (State.lexiconChanged s).txt = s.txt ∧
    (State.lexiconChanged s).ret = s.ret ∧
    (State.lexiconChanged s).set = s.set ∧
    (State.lexiconChanged s).tab = s.tab ∧
    (State.lexiconChanged s).intake = s.intake ∧
    (State.lexiconChanged s).seq = s.seq ∧
    (State.lexiconChanged s).drv = s.drv ∧
    (State.lexiconChanged s).disp = s.disp := by
  unfold State.lexiconChanged
  (try dsimp only)
  (repeat' split) <;> first | rfl | done | simp_all

@[simp] theorem State.setLanguage_frame (s : State) (v : ℕ) :
    (State.setLanguage s v).pending = s.pending ∧
    (State.setLanguage s v).resetHeld = s.resetHeld ∧
    (State.setLanguage s v).coverOpen = s.coverOpen ∧
    (State.setLanguage s v).free = s.free ∧
    (State.setLanguage s v).rx = s.rx ∧
    (State.setLanguage s v).keyq = s.keyq ∧
    (State.setLanguage s v).txt = s.txt ∧
    (State.setLanguage s v).tab = s.tab ∧
    (State.setLanguage s v).intake = s.intake ∧
    (State.setLanguage s v).seq = s.seq ∧
    (State.setLanguage s v).drv = s.drv ∧
    (State.setLanguage s v).disp = s.disp := by
  unfold State.setLanguage
  (try dsimp only)
  (repeat' split) <;> first | rfl | done | simp_all

theorem State.applySetting_frame (s : State) (v : ℕ) (x : Setting) {t : State} (h : State.applySetting s v x = .done t ∨ State.applySetting s v x = .later t) :
    t.pending = s.pending ∧ t.resetHeld = s.resetHeld ∧ t.coverOpen = s.coverOpen ∧ t.free = s.free ∧ t.rx = s.rx ∧ t.keyq = s.keyq ∧ t.txt = s.txt ∧ t.tab = s.tab := by
  cases x <;> simp only [State.applySetting] at h
  all_goals (try split at h)
  all_goals first
    | (have := State.applyLine_frame _ _ h; simp_all; done)
    | (simp at h; subst h; simp; done)
    | (rename_i hd; have := State.setDecimal_frame _ _ hd; simp at h; subst h; simp_all; done)
    | simp at h

@[simp] theorem State.sendCredit_frame (s : State) :
    (State.sendCredit s).pending = s.pending ∧
    (State.sendCredit s).resetHeld = s.resetHeld ∧
    (State.sendCredit s).coverOpen = s.coverOpen ∧
    (State.sendCredit s).free = s.free ∧
    (State.sendCredit s).rx = s.rx ∧
    (State.sendCredit s).keyq = s.keyq ∧
    (State.sendCredit s).set = s.set ∧
    (State.sendCredit s).ctr = s.ctr ∧
    (State.sendCredit s).tab = s.tab ∧
    (State.sendCredit s).intake = s.intake ∧
    (State.sendCredit s).comp = s.comp ∧
    (State.sendCredit s).seq = s.seq ∧
    (State.sendCredit s).drv = s.drv ∧
    (State.sendCredit s).line = s.line ∧
    (State.sendCredit s).spell = s.spell ∧
    (State.sendCredit s).disp = s.disp := by
  unfold State.sendCredit
  (try dsimp only)
  first | rfl | done | simp_all

@[simp] theorem State.sendDisplay_frame (s : State) (im : Image) :
    (State.sendDisplay s im).pending = s.pending ∧
    (State.sendDisplay s im).resetHeld = s.resetHeld ∧
    (State.sendDisplay s im).coverOpen = s.coverOpen ∧
    (State.sendDisplay s im).free = s.free ∧
    (State.sendDisplay s im).rx = s.rx ∧
    (State.sendDisplay s im).keyq = s.keyq ∧
    (State.sendDisplay s im).txt = s.txt ∧
    (State.sendDisplay s im).set = s.set ∧
    (State.sendDisplay s im).ctr = s.ctr ∧
    (State.sendDisplay s im).tab = s.tab ∧
    (State.sendDisplay s im).intake = s.intake ∧
    (State.sendDisplay s im).comp = s.comp ∧
    (State.sendDisplay s im).seq = s.seq ∧
    (State.sendDisplay s im).drv = s.drv ∧
    (State.sendDisplay s im).line = s.line ∧
    (State.sendDisplay s im).spell = s.spell := by
  unfold State.sendDisplay
  (try dsimp only)
  first | rfl | done | simp_all

@[simp] theorem State.sendReport_frame (s : State) (r : Report) :
    (State.sendReport s r).pending = s.pending ∧
    (State.sendReport s r).resetHeld = s.resetHeld ∧
    (State.sendReport s r).coverOpen = s.coverOpen ∧
    (State.sendReport s r).free = s.free ∧
    (State.sendReport s r).rx = s.rx ∧
    (State.sendReport s r).keyq = s.keyq ∧
    (State.sendReport s r).txt = s.txt ∧
    (State.sendReport s r).set = s.set ∧
    (State.sendReport s r).ctr = s.ctr ∧
    (State.sendReport s r).tab = s.tab ∧
    (State.sendReport s r).intake = s.intake ∧
    (State.sendReport s r).comp = s.comp ∧
    (State.sendReport s r).seq = s.seq ∧
    (State.sendReport s r).drv = s.drv ∧
    (State.sendReport s r).line = s.line ∧
    (State.sendReport s r).spell = s.spell ∧
    (State.sendReport s r).disp = s.disp := by
  unfold State.sendReport
  (try dsimp only)
  first | rfl | done | simp_all

@[simp] theorem State.arbitrate_frame (s : State) :
    (State.arbitrate s).pending = s.pending ∧
    (State.arbitrate s).resetHeld = s.resetHeld ∧
    (State.arbitrate s).coverOpen = s.coverOpen ∧
    (State.arbitrate s).free = s.free ∧
    (State.arbitrate s).rx = s.rx ∧
    (State.arbitrate s).keyq = s.keyq ∧
    (State.arbitrate s).set = s.set ∧
    (State.arbitrate s).ctr = s.ctr ∧
    (State.arbitrate s).tab = s.tab ∧
    (State.arbitrate s).intake = s.intake ∧
    (State.arbitrate s).comp = s.comp ∧
    (State.arbitrate s).seq = s.seq ∧
    (State.arbitrate s).drv = s.drv ∧
    (State.arbitrate s).line = s.line ∧
    (State.arbitrate s).spell = s.spell := by
  unfold State.arbitrate
  (try dsimp only)
  (repeat' split) <;> first | rfl | done | simp_all

@[simp] theorem State.assertReset_frame (s : State) :
    (State.assertReset s).pending = s.pending ∧
    (State.assertReset s).coverOpen = s.coverOpen := by
  unfold State.assertReset
  first | rfl | done | simp_all [State.held]

@[simp] theorem State.blockSent_frame (s : State) :
    (State.blockSent s).pending = s.pending ∧
    (State.blockSent s).resetHeld = s.resetHeld ∧
    (State.blockSent s).coverOpen = s.coverOpen ∧
    (State.blockSent s).free = s.free ∧
    (State.blockSent s).rx = s.rx ∧
    (State.blockSent s).keyq = s.keyq ∧
    (State.blockSent s).set = s.set ∧
    (State.blockSent s).ctr = s.ctr ∧
    (State.blockSent s).tab = s.tab ∧
    (State.blockSent s).intake = s.intake ∧
    (State.blockSent s).comp = s.comp ∧
    (State.blockSent s).seq = s.seq ∧
    (State.blockSent s).drv = s.drv ∧
    (State.blockSent s).line = s.line ∧
    (State.blockSent s).spell = s.spell := by
  unfold State.blockSent
  (try dsimp only)
  (repeat' split) <;> first | rfl | done | simp_all

@[simp] theorem State.chargeText_frame (s : State) (l : List Byte) :
    (State.chargeText s l).pending = s.pending ∧
    (State.chargeText s l).resetHeld = s.resetHeld ∧
    (State.chargeText s l).coverOpen = s.coverOpen ∧
    (State.chargeText s l).free = s.free ∧
    (State.chargeText s l).rx = s.rx ∧
    (State.chargeText s l).keyq = s.keyq ∧
    (State.chargeText s l).set = s.set ∧
    (State.chargeText s l).tab = s.tab ∧
    (State.chargeText s l).intake = s.intake ∧
    (State.chargeText s l).comp = s.comp ∧
    (State.chargeText s l).seq = s.seq ∧
    (State.chargeText s l).drv = s.drv ∧
    (State.chargeText s l).line = s.line ∧
    (State.chargeText s l).spell = s.spell ∧
    (State.chargeText s l).disp = s.disp := by
  unfold State.chargeText
  (try dsimp only)
  (repeat' split) <;> first | rfl | done | simp_all

@[simp] theorem State.clearFault_frame (s : State) (k : FaultKind) (ch : Channel) :
    (State.clearFault s k ch).pending = s.pending ∧
    (State.clearFault s k ch).resetHeld = s.resetHeld ∧
    (State.clearFault s k ch).coverOpen = s.coverOpen ∧
    (State.clearFault s k ch).free = s.free ∧
    (State.clearFault s k ch).rx = s.rx ∧
    (State.clearFault s k ch).keyq = s.keyq ∧
    (State.clearFault s k ch).txt = s.txt ∧
    (State.clearFault s k ch).ret = s.ret ∧
    (State.clearFault s k ch).set = s.set ∧
    (State.clearFault s k ch).ctr = s.ctr ∧
    (State.clearFault s k ch).tab = s.tab ∧
    (State.clearFault s k ch).intake = s.intake ∧
    (State.clearFault s k ch).comp = s.comp ∧
    (State.clearFault s k ch).seq = s.seq ∧
    (State.clearFault s k ch).line = s.line ∧
    (State.clearFault s k ch).spell = s.spell ∧
    (State.clearFault s k ch).disp = s.disp := by
  unfold State.clearFault
  (try dsimp only)
  first | rfl | done | simp_all

@[simp] theorem State.clearOrders_frame (s : State) :
    (State.clearOrders s).pending = s.pending ∧
    (State.clearOrders s).resetHeld = s.resetHeld ∧
    (State.clearOrders s).coverOpen = s.coverOpen ∧
    (State.clearOrders s).free = s.free ∧
    (State.clearOrders s).rx = s.rx ∧
    (State.clearOrders s).keyq = s.keyq ∧
    (State.clearOrders s).txt = s.txt ∧
    (State.clearOrders s).ret = s.ret ∧
    (State.clearOrders s).set = s.set ∧
    (State.clearOrders s).tab = s.tab ∧
    (State.clearOrders s).intake = s.intake ∧
    (State.clearOrders s).drv = s.drv := by
  unfold State.clearOrders
  (try dsimp only)
  (repeat' split) <;> first | rfl | done | simp_all

@[simp] theorem State.emptyFeeds_frame (s : State) :
    (State.emptyFeeds s).pending = s.pending ∧
    (State.emptyFeeds s).resetHeld = s.resetHeld ∧
    (State.emptyFeeds s).coverOpen = s.coverOpen ∧
    (State.emptyFeeds s).free = s.free ∧
    (State.emptyFeeds s).rx = s.rx ∧
    (State.emptyFeeds s).ret = s.ret ∧
    (State.emptyFeeds s).set = s.set ∧
    (State.emptyFeeds s).ctr = s.ctr ∧
    (State.emptyFeeds s).tab = s.tab ∧
    (State.emptyFeeds s).comp = s.comp ∧
    (State.emptyFeeds s).seq = s.seq ∧
    (State.emptyFeeds s).drv = s.drv ∧
    (State.emptyFeeds s).line = s.line ∧
    (State.emptyFeeds s).spell = s.spell ∧
    (State.emptyFeeds s).disp = s.disp := by
  unfold State.emptyFeeds
  (try dsimp only)
  first | rfl | done | simp_all

@[simp] theorem State.clearText_frame (s : State) :
    (State.clearText s).pending = s.pending ∧
    (State.clearText s).resetHeld = s.resetHeld ∧
    (State.clearText s).coverOpen = s.coverOpen ∧
    (State.clearText s).free = s.free ∧
    (State.clearText s).rx = s.rx ∧
    (State.clearText s).ret = s.ret ∧
    (State.clearText s).set = s.set ∧
    (State.clearText s).tab = s.tab ∧
    (State.clearText s).drv = s.drv := by
  unfold State.clearText
  (try dsimp only)
  first | rfl | done | simp_all

@[simp] theorem State.closeCover_frame (s : State) :
    (State.closeCover s).pending = s.pending ∧
    (State.closeCover s).resetHeld = s.resetHeld ∧
    (State.closeCover s).rx = s.rx ∧
    (State.closeCover s).keyq = s.keyq ∧
    (State.closeCover s).txt = s.txt ∧
    (State.closeCover s).set = s.set ∧
    (State.closeCover s).tab = s.tab ∧
    (State.closeCover s).intake = s.intake ∧
    (State.closeCover s).comp = s.comp ∧
    (State.closeCover s).line = s.line ∧
    (State.closeCover s).spell = s.spell ∧
    (State.closeCover s).disp = s.disp := by
  unfold State.closeCover
  (try dsimp only)
  (repeat' split) <;> first | rfl | done | simp_all

@[simp] theorem State.cmdAckFault_frame (s : State) (x : List Byte) :
    (State.cmdAckFault s x).pending = s.pending ∧
    (State.cmdAckFault s x).resetHeld = s.resetHeld ∧
    (State.cmdAckFault s x).coverOpen = s.coverOpen ∧
    (State.cmdAckFault s x).rx = s.rx ∧
    (State.cmdAckFault s x).tab = s.tab := by
  unfold State.cmdAckFault
  (repeat' split) <;> first | rfl | done | simp_all

@[simp] theorem State.cmdClear_frame (s : State) (x : List Byte) :
    (State.cmdClear s x).pending = s.pending ∧
    (State.cmdClear s x).resetHeld = s.resetHeld ∧
    (State.cmdClear s x).coverOpen = s.coverOpen ∧
    (State.cmdClear s x).free = s.free ∧
    (State.cmdClear s x).rx = s.rx ∧
    (State.cmdClear s x).keyq = s.keyq ∧
    (State.cmdClear s x).txt = s.txt ∧
    (State.cmdClear s x).set = s.set ∧
    (State.cmdClear s x).tab = s.tab ∧
    (State.cmdClear s x).intake = s.intake ∧
    (State.cmdClear s x).comp = s.comp ∧
    (State.cmdClear s x).seq = s.seq ∧
    (State.cmdClear s x).drv = s.drv ∧
    (State.cmdClear s x).line = s.line ∧
    (State.cmdClear s x).spell = s.spell ∧
    (State.cmdClear s x).disp = s.disp := by
  unfold State.cmdClear
  (repeat' split) <;> first | rfl | done | simp_all

@[simp] theorem State.cmdPause_frame (s : State) (x : List Byte) :
    (State.cmdPause s x).pending = s.pending ∧
    (State.cmdPause s x).resetHeld = s.resetHeld ∧
    (State.cmdPause s x).coverOpen = s.coverOpen ∧
    (State.cmdPause s x).free = s.free ∧
    (State.cmdPause s x).rx = s.rx ∧
    (State.cmdPause s x).tab = s.tab := by
  unfold State.cmdPause
  (repeat' split) <;> first | rfl | done | simp_all

@[simp] theorem State.counterAnswer_frame (s : State) (g : Byte) :
    (State.counterAnswer s g).pending = s.pending ∧
    (State.counterAnswer s g).resetHeld = s.resetHeld ∧
    (State.counterAnswer s g).coverOpen = s.coverOpen ∧
    (State.counterAnswer s g).free = s.free ∧
    (State.counterAnswer s g).rx = s.rx ∧
    (State.counterAnswer s g).keyq = s.keyq ∧
    (State.counterAnswer s g).txt = s.txt ∧
    (State.counterAnswer s g).set = s.set ∧
    (State.counterAnswer s g).ctr = s.ctr ∧
    (State.counterAnswer s g).tab = s.tab ∧
    (State.counterAnswer s g).intake = s.intake ∧
    (State.counterAnswer s g).comp = s.comp ∧
    (State.counterAnswer s g).seq = s.seq ∧
    (State.counterAnswer s g).drv = s.drv ∧
    (State.counterAnswer s g).line = s.line ∧
    (State.counterAnswer s g).spell = s.spell ∧
    (State.counterAnswer s g).disp = s.disp := by
  unfold State.counterAnswer
  (repeat' split) <;> first | rfl | done | simp_all

@[simp] theorem State.directoryAnswer_frame (s : State) (i : Byte) :
    (State.directoryAnswer s i).pending = s.pending ∧
    (State.directoryAnswer s i).resetHeld = s.resetHeld ∧
    (State.directoryAnswer s i).coverOpen = s.coverOpen ∧
    (State.directoryAnswer s i).free = s.free ∧
    (State.directoryAnswer s i).rx = s.rx ∧
    (State.directoryAnswer s i).keyq = s.keyq ∧
    (State.directoryAnswer s i).txt = s.txt ∧
    (State.directoryAnswer s i).set = s.set ∧
    (State.directoryAnswer s i).ctr = s.ctr ∧
    (State.directoryAnswer s i).tab = s.tab ∧
    (State.directoryAnswer s i).intake = s.intake ∧
    (State.directoryAnswer s i).comp = s.comp ∧
    (State.directoryAnswer s i).seq = s.seq ∧
    (State.directoryAnswer s i).drv = s.drv ∧
    (State.directoryAnswer s i).line = s.line ∧
    (State.directoryAnswer s i).spell = s.spell ∧
    (State.directoryAnswer s i).disp = s.disp := by
  unfold State.directoryAnswer
  (repeat' split) <;> first | rfl | done | simp_all

@[simp] theorem State.lineAnswer_frame (s : State) (i : Byte) :
    (State.lineAnswer s i).pending = s.pending ∧
    (State.lineAnswer s i).resetHeld = s.resetHeld ∧
    (State.lineAnswer s i).coverOpen = s.coverOpen ∧
    (State.lineAnswer s i).free = s.free ∧
    (State.lineAnswer s i).rx = s.rx ∧
    (State.lineAnswer s i).keyq = s.keyq ∧
    (State.lineAnswer s i).txt = s.txt ∧
    (State.lineAnswer s i).set = s.set ∧
    (State.lineAnswer s i).ctr = s.ctr ∧
    (State.lineAnswer s i).tab = s.tab ∧
    (State.lineAnswer s i).intake = s.intake ∧
    (State.lineAnswer s i).comp = s.comp ∧
    (State.lineAnswer s i).seq = s.seq ∧
    (State.lineAnswer s i).drv = s.drv ∧
    (State.lineAnswer s i).line = s.line ∧
    (State.lineAnswer s i).spell = s.spell ∧
    (State.lineAnswer s i).disp = s.disp := by
  unfold State.lineAnswer
  (repeat' split) <;> first | rfl | done | simp_all

@[simp] theorem State.userWordAnswer_frame (s : State) (i : Byte) :
    (State.userWordAnswer s i).pending = s.pending ∧
    (State.userWordAnswer s i).resetHeld = s.resetHeld ∧
    (State.userWordAnswer s i).coverOpen = s.coverOpen ∧
    (State.userWordAnswer s i).free = s.free ∧
    (State.userWordAnswer s i).rx = s.rx ∧
    (State.userWordAnswer s i).keyq = s.keyq ∧
    (State.userWordAnswer s i).txt = s.txt ∧
    (State.userWordAnswer s i).set = s.set ∧
    (State.userWordAnswer s i).ctr = s.ctr ∧
    (State.userWordAnswer s i).tab = s.tab ∧
    (State.userWordAnswer s i).intake = s.intake ∧
    (State.userWordAnswer s i).comp = s.comp ∧
    (State.userWordAnswer s i).seq = s.seq ∧
    (State.userWordAnswer s i).drv = s.drv ∧
    (State.userWordAnswer s i).line = s.line ∧
    (State.userWordAnswer s i).spell = s.spell ∧
    (State.userWordAnswer s i).disp = s.disp := by
  unfold State.userWordAnswer
  (repeat' split) <;> first | rfl | done | simp_all

@[simp] theorem State.wordsAnswer_frame (s : State) (i : Byte) :
    (State.wordsAnswer s i).pending = s.pending ∧
    (State.wordsAnswer s i).resetHeld = s.resetHeld ∧
    (State.wordsAnswer s i).coverOpen = s.coverOpen ∧
    (State.wordsAnswer s i).free = s.free ∧
    (State.wordsAnswer s i).rx = s.rx ∧
    (State.wordsAnswer s i).keyq = s.keyq ∧
    (State.wordsAnswer s i).txt = s.txt ∧
    (State.wordsAnswer s i).set = s.set ∧
    (State.wordsAnswer s i).ctr = s.ctr ∧
    (State.wordsAnswer s i).tab = s.tab ∧
    (State.wordsAnswer s i).intake = s.intake ∧
    (State.wordsAnswer s i).comp = s.comp ∧
    (State.wordsAnswer s i).seq = s.seq ∧
    (State.wordsAnswer s i).drv = s.drv ∧
    (State.wordsAnswer s i).line = s.line ∧
    (State.wordsAnswer s i).spell = s.spell ∧
    (State.wordsAnswer s i).disp = s.disp := by
  unfold State.wordsAnswer
  (repeat' split) <;> first | rfl | done | simp_all

@[simp] theorem State.cmdQuery_frame (s : State) (x : List Byte) :
    (State.cmdQuery s x).pending = s.pending ∧
    (State.cmdQuery s x).resetHeld = s.resetHeld ∧
    (State.cmdQuery s x).coverOpen = s.coverOpen ∧
    (State.cmdQuery s x).free = s.free ∧
    (State.cmdQuery s x).rx = s.rx ∧
    (State.cmdQuery s x).keyq = s.keyq ∧
    (State.cmdQuery s x).txt = s.txt ∧
    (State.cmdQuery s x).set = s.set ∧
    (State.cmdQuery s x).ctr = s.ctr ∧
    (State.cmdQuery s x).tab = s.tab ∧
    (State.cmdQuery s x).intake = s.intake ∧
    (State.cmdQuery s x).comp = s.comp ∧
    (State.cmdQuery s x).seq = s.seq ∧
    (State.cmdQuery s x).drv = s.drv ∧
    (State.cmdQuery s x).line = s.line ∧
    (State.cmdQuery s x).spell = s.spell ∧
    (State.cmdQuery s x).disp = s.disp := by
  unfold State.cmdQuery
  (repeat' split) <;> first | rfl | done | simp_all

@[simp] theorem State.rehome_frame (s : State) :
    (State.rehome s).pending = s.pending ∧
    (State.rehome s).resetHeld = s.resetHeld ∧
    (State.rehome s).coverOpen = s.coverOpen ∧
    (State.rehome s).rx = s.rx ∧
    (State.rehome s).keyq = s.keyq ∧
    (State.rehome s).txt = s.txt ∧
    (State.rehome s).set = s.set ∧
    (State.rehome s).tab = s.tab ∧
    (State.rehome s).intake = s.intake ∧
    (State.rehome s).comp = s.comp ∧
    (State.rehome s).line = s.line ∧
    (State.rehome s).spell = s.spell ∧
    (State.rehome s).disp = s.disp := by
  unfold State.rehome
  (try dsimp only)
  first | rfl | done | simp_all

@[simp] theorem State.countPulse_frame (s : State) :
    (State.countPulse s).pending = s.pending ∧
    (State.countPulse s).resetHeld = s.resetHeld ∧
    (State.countPulse s).coverOpen = s.coverOpen ∧
    (State.countPulse s).free = s.free ∧
    (State.countPulse s).rx = s.rx ∧
    (State.countPulse s).keyq = s.keyq ∧
    (State.countPulse s).txt = s.txt ∧
    (State.countPulse s).ret = s.ret ∧
    (State.countPulse s).set = s.set ∧
    (State.countPulse s).tab = s.tab ∧
    (State.countPulse s).intake = s.intake ∧
    (State.countPulse s).comp = s.comp ∧
    (State.countPulse s).seq = s.seq ∧
    (State.countPulse s).drv = s.drv ∧
    (State.countPulse s).line = s.line ∧
    (State.countPulse s).spell = s.spell ∧
    (State.countPulse s).disp = s.disp := by
  unfold State.countPulse
  (repeat' split) <;> first | rfl | done | simp_all

@[simp] theorem State.driven_frame (s : State) (ch : Channel) :
    (State.driven s ch).pending = s.pending ∧
    (State.driven s ch).resetHeld = s.resetHeld ∧
    (State.driven s ch).coverOpen = s.coverOpen ∧
    (State.driven s ch).free = s.free ∧
    (State.driven s ch).rx = s.rx ∧
    (State.driven s ch).keyq = s.keyq ∧
    (State.driven s ch).txt = s.txt ∧
    (State.driven s ch).ret = s.ret ∧
    (State.driven s ch).set = s.set ∧
    (State.driven s ch).ctr = s.ctr ∧
    (State.driven s ch).tab = s.tab ∧
    (State.driven s ch).intake = s.intake ∧
    (State.driven s ch).comp = s.comp ∧
    (State.driven s ch).seq = s.seq ∧
    (State.driven s ch).line = s.line ∧
    (State.driven s ch).spell = s.spell ∧
    (State.driven s ch).disp = s.disp := by
  unfold State.driven
  first | rfl | done | simp_all

@[simp] theorem State.reportDone_frame (s : State) (petal : ℕ) (wheel : ℕ) (level : ℕ) (x : Order) :
    (State.reportDone s petal wheel level x).pending = s.pending ∧
    (State.reportDone s petal wheel level x).resetHeld = s.resetHeld ∧
    (State.reportDone s petal wheel level x).coverOpen = s.coverOpen ∧
    (State.reportDone s petal wheel level x).free = s.free ∧
    (State.reportDone s petal wheel level x).rx = s.rx ∧
    (State.reportDone s petal wheel level x).keyq = s.keyq ∧
    (State.reportDone s petal wheel level x).txt = s.txt ∧
    (State.reportDone s petal wheel level x).ret = s.ret ∧
    (State.reportDone s petal wheel level x).set = s.set ∧
    (State.reportDone s petal wheel level x).tab = s.tab ∧
    (State.reportDone s petal wheel level x).intake = s.intake ∧
    (State.reportDone s petal wheel level x).drv = s.drv := by
  unfold State.reportDone
  (repeat' split) <;> first | rfl | done | simp_all

@[simp] theorem State.finishOrder_frame (s : State) (petal : ℕ) (level : ℕ) :
    (State.finishOrder s petal level).pending = s.pending ∧
    (State.finishOrder s petal level).resetHeld = s.resetHeld ∧
    (State.finishOrder s petal level).coverOpen = s.coverOpen ∧
    (State.finishOrder s petal level).free = s.free ∧
    (State.finishOrder s petal level).rx = s.rx ∧
    (State.finishOrder s petal level).keyq = s.keyq ∧
    (State.finishOrder s petal level).txt = s.txt ∧
    (State.finishOrder s petal level).ret = s.ret ∧
    (State.finishOrder s petal level).set = s.set ∧
    (State.finishOrder s petal level).tab = s.tab ∧
    (State.finishOrder s petal level).intake = s.intake ∧
    (State.finishOrder s petal level).drv = s.drv := by
  unfold State.finishOrder
  (repeat' split) <;> first | rfl | done | simp_all

@[simp] theorem State.settleFlight_frame (s : State) :
    (State.settleFlight s).pending = s.pending ∧
    (State.settleFlight s).resetHeld = s.resetHeld ∧
    (State.settleFlight s).coverOpen = s.coverOpen ∧
    (State.settleFlight s).rx = s.rx ∧
    (State.settleFlight s).keyq = s.keyq ∧
    (State.settleFlight s).txt = s.txt ∧
    (State.settleFlight s).ret = s.ret ∧
    (State.settleFlight s).set = s.set ∧
    (State.settleFlight s).tab = s.tab ∧
    (State.settleFlight s).intake = s.intake := by
  unfold State.settleFlight
  (try dsimp only)
  (repeat' split) <;> first | rfl | done | simp_all

@[simp] theorem State.restartAll_frame (s : State) :
    (State.restartAll s).pending = s.pending ∧
    (State.restartAll s).coverOpen = s.coverOpen := by
  unfold State.restartAll
  (try dsimp only)
  (repeat' split) <;> first | rfl | done | simp_all [State.held]

@[simp] theorem State.restartAnswer_frame (s : State) :
    (State.restartAnswer s).pending = s.pending ∧
    (State.restartAnswer s).resetHeld = s.resetHeld ∧
    (State.restartAnswer s).coverOpen = s.coverOpen ∧
    (State.restartAnswer s).free = s.free ∧
    (State.restartAnswer s).rx = s.rx ∧
    (State.restartAnswer s).keyq = s.keyq ∧
    (State.restartAnswer s).txt = s.txt ∧
    (State.restartAnswer s).set = s.set ∧
    (State.restartAnswer s).ctr = s.ctr ∧
    (State.restartAnswer s).tab = s.tab ∧
    (State.restartAnswer s).intake = s.intake ∧
    (State.restartAnswer s).comp = s.comp ∧
    (State.restartAnswer s).seq = s.seq ∧
    (State.restartAnswer s).drv = s.drv ∧
    (State.restartAnswer s).line = s.line ∧
    (State.restartAnswer s).spell = s.spell ∧
    (State.restartAnswer s).disp = s.disp := by
  unfold State.restartAnswer
  first | rfl | done | simp_all

@[simp] theorem State.restartCounters_frame (s : State) :
    (State.restartCounters s).pending = s.pending ∧
    (State.restartCounters s).resetHeld = s.resetHeld ∧
    (State.restartCounters s).coverOpen = s.coverOpen ∧
    (State.restartCounters s).free = s.free ∧
    (State.restartCounters s).rx = s.rx ∧
    (State.restartCounters s).keyq = s.keyq ∧
    (State.restartCounters s).txt = s.txt ∧
    (State.restartCounters s).set = s.set ∧
    (State.restartCounters s).tab = s.tab ∧
    (State.restartCounters s).intake = s.intake ∧
    (State.restartCounters s).comp = s.comp ∧
    (State.restartCounters s).seq = s.seq ∧
    (State.restartCounters s).drv = s.drv ∧
    (State.restartCounters s).line = s.line ∧
    (State.restartCounters s).spell = s.spell ∧
    (State.restartCounters s).disp = s.disp := by
  unfold State.restartCounters
  first | rfl | done | simp_all

@[simp] theorem State.freshReports_frame (s : State) :
    (State.freshReports s).pending = s.pending ∧
    (State.freshReports s).resetHeld = s.resetHeld ∧
    (State.freshReports s).coverOpen = s.coverOpen ∧
    (State.freshReports s).free = s.free ∧
    (State.freshReports s).rx = s.rx ∧
    (State.freshReports s).keyq = s.keyq ∧
    (State.freshReports s).txt = s.txt ∧
    (State.freshReports s).set = s.set ∧
    (State.freshReports s).ctr = s.ctr ∧
    (State.freshReports s).tab = s.tab ∧
    (State.freshReports s).intake = s.intake ∧
    (State.freshReports s).comp = s.comp ∧
    (State.freshReports s).seq = s.seq ∧
    (State.freshReports s).drv = s.drv ∧
    (State.freshReports s).line = s.line ∧
    (State.freshReports s).spell = s.spell ∧
    (State.freshReports s).disp = s.disp := by
  unfold State.freshReports
  (try dsimp only)
  first | rfl | done | simp_all

@[simp] theorem State.leaveLocked_frame (s : State) :
    (State.leaveLocked s).pending = s.pending ∧
    (State.leaveLocked s).resetHeld = s.resetHeld ∧
    (State.leaveLocked s).coverOpen = s.coverOpen ∧
    (State.leaveLocked s).free = s.free ∧
    (State.leaveLocked s).keyq = s.keyq ∧
    (State.leaveLocked s).txt = s.txt ∧
    (State.leaveLocked s).set = s.set ∧
    (State.leaveLocked s).tab = s.tab ∧
    (State.leaveLocked s).seq = s.seq ∧
    (State.leaveLocked s).drv = s.drv ∧
    (State.leaveLocked s).spell = s.spell ∧
    (State.leaveLocked s).disp = s.disp := by
  unfold State.leaveLocked
  (try dsimp only)
  first | rfl | done | simp_all

/-- Leaving LOCKED touches the line record only in the correction run of a repeat withdrawn (R18, R104). -/
@[simp] theorem State.leaveLocked_line (s : State) :
    (State.leaveLocked s).line =
      { s.line with run := if s.intake.pendingRepeat.isSome then none else s.line.run } := by
  simp [State.leaveLocked]

@[simp] theorem State.huntAfresh_entries (s : State) : (State.huntAfresh s).line.entries = s.line.entries := by
  unfold State.huntAfresh
  split <;> simp

@[simp] theorem State.huntAfresh_frame (s : State) :
    (State.huntAfresh s).pending = s.pending ∧
    (State.huntAfresh s).resetHeld = s.resetHeld ∧
    (State.huntAfresh s).coverOpen = s.coverOpen ∧
    (State.huntAfresh s).free = s.free ∧
    (State.huntAfresh s).keyq = s.keyq ∧
    (State.huntAfresh s).txt = s.txt ∧
    (State.huntAfresh s).set = s.set ∧
    (State.huntAfresh s).tab = s.tab ∧
    (State.huntAfresh s).seq = s.seq ∧
    (State.huntAfresh s).drv = s.drv ∧
    (State.huntAfresh s).spell = s.spell ∧
    (State.huntAfresh s).disp = s.disp := by
  unfold State.huntAfresh
  (try dsimp only)
  (repeat' split) <;> first | rfl | done | simp_all

@[simp] theorem State.restateCredit_frame (s : State) :
    (State.restateCredit s).pending = s.pending ∧
    (State.restateCredit s).resetHeld = s.resetHeld ∧
    (State.restateCredit s).coverOpen = s.coverOpen ∧
    (State.restateCredit s).free = s.free ∧
    (State.restateCredit s).rx = s.rx ∧
    (State.restateCredit s).keyq = s.keyq ∧
    (State.restateCredit s).ret = s.ret ∧
    (State.restateCredit s).set = s.set ∧
    (State.restateCredit s).ctr = s.ctr ∧
    (State.restateCredit s).tab = s.tab ∧
    (State.restateCredit s).intake = s.intake ∧
    (State.restateCredit s).comp = s.comp ∧
    (State.restateCredit s).seq = s.seq ∧
    (State.restateCredit s).drv = s.drv ∧
    (State.restateCredit s).line = s.line ∧
    (State.restateCredit s).spell = s.spell ∧
    (State.restateCredit s).disp = s.disp := by
  unfold State.restateCredit
  (try dsimp only)
  first | rfl | done | simp_all

@[simp] theorem State.restartLink_frame (s : State) :
    (State.restartLink s).pending = s.pending ∧
    (State.restartLink s).resetHeld = s.resetHeld ∧
    (State.restartLink s).coverOpen = s.coverOpen ∧
    (State.restartLink s).free = s.free ∧
    (State.restartLink s).keyq = s.keyq ∧
    (State.restartLink s).set = s.set ∧
    (State.restartLink s).tab = s.tab ∧
    (State.restartLink s).seq = s.seq ∧
    (State.restartLink s).drv = s.drv ∧
    (State.restartLink s).spell = s.spell := by
  unfold State.restartLink
  (try dsimp only)
  first | rfl | done | simp_all

@[simp] theorem State.restartMech_frame (s : State) :
    (State.restartMech s).pending = s.pending ∧
    (State.restartMech s).resetHeld = s.resetHeld ∧
    (State.restartMech s).coverOpen = s.coverOpen ∧
    (State.restartMech s).rx = s.rx ∧
    (State.restartMech s).keyq = s.keyq ∧
    (State.restartMech s).txt = s.txt ∧
    (State.restartMech s).set = s.set ∧
    (State.restartMech s).tab = s.tab ∧
    (State.restartMech s).intake = s.intake := by
  unfold State.restartMech
  (try dsimp only)
  first | rfl | done | simp_all

@[simp] theorem State.readersAct_frame (pre : State) (s : State) :
    (State.readersAct pre s).pending = s.pending ∧
    (State.readersAct pre s).resetHeld = s.resetHeld ∧
    (State.readersAct pre s).coverOpen = s.coverOpen ∧
    (State.readersAct pre s).free = s.free ∧
    (State.readersAct pre s).rx = s.rx ∧
    (State.readersAct pre s).keyq = s.keyq ∧
    (State.readersAct pre s).txt = s.txt ∧
    (State.readersAct pre s).set = s.set ∧
    (State.readersAct pre s).tab = s.tab := by
  unfold State.readersAct
  (try dsimp only)
  (repeat' split) <;> first | rfl | done | simp_all

@[simp] theorem State.withSlots_frame (s : State) (l : List Slot) :
    (State.withSlots s l).pending = s.pending ∧
    (State.withSlots s l).resetHeld = s.resetHeld ∧
    (State.withSlots s l).coverOpen = s.coverOpen ∧
    (State.withSlots s l).free = s.free ∧
    (State.withSlots s l).rx = s.rx ∧
    (State.withSlots s l).keyq = s.keyq ∧
    (State.withSlots s l).txt = s.txt ∧
    (State.withSlots s l).ret = s.ret ∧
    (State.withSlots s l).set = s.set ∧
    (State.withSlots s l).ctr = s.ctr ∧
    (State.withSlots s l).intake = s.intake ∧
    (State.withSlots s l).comp = s.comp ∧
    (State.withSlots s l).seq = s.seq ∧
    (State.withSlots s l).drv = s.drv ∧
    (State.withSlots s l).line = s.line ∧
    (State.withSlots s l).spell = s.spell ∧
    (State.withSlots s l).disp = s.disp := by
  unfold State.withSlots
  (try dsimp only)
  first | rfl | done | simp_all

@[simp] theorem State.restartTables_frame (s : State) :
    (State.restartTables s).pending = s.pending ∧
    (State.restartTables s).resetHeld = s.resetHeld ∧
    (State.restartTables s).coverOpen = s.coverOpen ∧
    (State.restartTables s).free = s.free ∧
    (State.restartTables s).rx = s.rx ∧
    (State.restartTables s).keyq = s.keyq ∧
    (State.restartTables s).txt = s.txt ∧
    (State.restartTables s).set = s.set := by
  unfold State.restartTables
  (try dsimp only)
  first | rfl | done | simp_all

@[simp] theorem State.restartText_frame (s : State) :
    (State.restartText s).pending = s.pending ∧
    (State.restartText s).resetHeld = s.resetHeld ∧
    (State.restartText s).coverOpen = s.coverOpen ∧
    (State.restartText s).free = s.free ∧
    (State.restartText s).rx = s.rx ∧
    (State.restartText s).set = s.set ∧
    (State.restartText s).tab = s.tab ∧
    (State.restartText s).drv = s.drv := by
  unfold State.restartText
  first | rfl | done | simp_all

@[simp] theorem State.restart_frame (s : State) (x : Selector) :
    (State.restart s x).pending = s.pending ∧
    (State.restart s x).coverOpen = s.coverOpen := by
  unfold State.restart
  (repeat' split) <;> first | rfl | done | simp_all

@[simp] theorem State.cmdRestart_frame (s : State) (params : List Byte) :
    (State.cmdRestart s params).pending = s.pending ∧
    (State.cmdRestart s params).coverOpen = s.coverOpen := by
  unfold State.cmdRestart
  (repeat' split) <;> first | rfl | done | simp_all

@[simp] theorem State.cmdRestate_frame (s : State) (x : List Byte) :
    (State.cmdRestate s x).pending = s.pending ∧
    (State.cmdRestate s x).resetHeld = s.resetHeld ∧
    (State.cmdRestate s x).coverOpen = s.coverOpen ∧
    (State.cmdRestate s x).free = s.free ∧
    (State.cmdRestate s x).rx = s.rx ∧
    (State.cmdRestate s x).keyq = s.keyq ∧
    (State.cmdRestate s x).set = s.set ∧
    (State.cmdRestate s x).ctr = s.ctr ∧
    (State.cmdRestate s x).tab = s.tab ∧
    (State.cmdRestate s x).intake = s.intake ∧
    (State.cmdRestate s x).comp = s.comp ∧
    (State.cmdRestate s x).seq = s.seq ∧
    (State.cmdRestate s x).drv = s.drv ∧
    (State.cmdRestate s x).line = s.line ∧
    (State.cmdRestate s x).spell = s.spell ∧
    (State.cmdRestate s x).disp = s.disp := by
  unfold State.cmdRestate
  (repeat' split) <;> first | rfl | done | simp_all

@[simp] theorem State.cmdResume_frame (s : State) (paper : Bool) (x : List Byte) :
    (State.cmdResume s paper x).pending = s.pending ∧
    (State.cmdResume s paper x).resetHeld = s.resetHeld ∧
    (State.cmdResume s paper x).coverOpen = s.coverOpen ∧
    (State.cmdResume s paper x).free = s.free ∧
    (State.cmdResume s paper x).rx = s.rx ∧
    (State.cmdResume s paper x).tab = s.tab := by
  unfold State.cmdResume
  (repeat' split) <;> (try simp_all)
  all_goals
    rename_i hr
    have h0 := State.askResume_frame _ _ hr
    simp [h0]

@[simp] theorem State.setTo_frame (s : State) (k : Setting) (v : ℕ) :
    (State.setTo s k v).pending = s.pending ∧
    (State.setTo s k v).resetHeld = s.resetHeld ∧
    (State.setTo s k v).coverOpen = s.coverOpen ∧
    (State.setTo s k v).free = s.free ∧
    (State.setTo s k v).rx = s.rx ∧
    (State.setTo s k v).tab = s.tab := by
  unfold State.setTo
  dsimp only
  split
  · simp
  · rename_i hr
    simp [State.applySetting_frame _ _ _ (Or.inl hr)]
  · rename_i hr
    simp [State.applySetting_frame _ _ _ (Or.inr hr)]

@[simp] theorem State.cmdSet_frame (s : State) (x : List Byte) :
    (State.cmdSet s x).pending = s.pending ∧
    (State.cmdSet s x).resetHeld = s.resetHeld ∧
    (State.cmdSet s x).coverOpen = s.coverOpen ∧
    (State.cmdSet s x).free = s.free ∧
    (State.cmdSet s x).rx = s.rx ∧
    (State.cmdSet s x).tab = s.tab := by
  unfold State.cmdSet
  (repeat' split) <;> first | rfl | done | simp_all

@[simp] theorem State.commandTabs_frame (s : State) (code : Byte) (tabs : List TabStop) :
    (State.commandTabs s code tabs).pending = s.pending ∧
    (State.commandTabs s code tabs).resetHeld = s.resetHeld ∧
    (State.commandTabs s code tabs).coverOpen = s.coverOpen ∧
    (State.commandTabs s code tabs).free = s.free ∧
    (State.commandTabs s code tabs).rx = s.rx ∧
    (State.commandTabs s code tabs).tab = s.tab := by
  unfold State.commandTabs
  (repeat' split) <;> (try simp_all)
  all_goals
    rename_i hr
    have h0 := State.changeTabs_frame _ _ hr
    simp [h0]

@[simp] theorem State.cmdTabAdd_frame (s : State) (x : List Byte) :
    (State.cmdTabAdd s x).pending = s.pending ∧
    (State.cmdTabAdd s x).resetHeld = s.resetHeld ∧
    (State.cmdTabAdd s x).coverOpen = s.coverOpen ∧
    (State.cmdTabAdd s x).free = s.free ∧
    (State.cmdTabAdd s x).rx = s.rx ∧
    (State.cmdTabAdd s x).tab = s.tab := by
  unfold State.cmdTabAdd
  (try dsimp only)
  (repeat' split) <;> first | rfl | done | simp_all

@[simp] theorem State.cmdTabRemove_frame (s : State) (x : List Byte) :
    (State.cmdTabRemove s x).pending = s.pending ∧
    (State.cmdTabRemove s x).resetHeld = s.resetHeld ∧
    (State.cmdTabRemove s x).coverOpen = s.coverOpen ∧
    (State.cmdTabRemove s x).free = s.free ∧
    (State.cmdTabRemove s x).rx = s.rx ∧
    (State.cmdTabRemove s x).tab = s.tab := by
  unfold State.cmdTabRemove
  (try dsimp only)
  (repeat' split) <;> first | rfl | done | simp_all

@[simp] theorem State.cmdTableDrop_frame (s : State) (x : List Byte) :
    (State.cmdTableDrop s x).pending = s.pending ∧
    (State.cmdTableDrop s x).resetHeld = s.resetHeld ∧
    (State.cmdTableDrop s x).coverOpen = s.coverOpen ∧
    (State.cmdTableDrop s x).free = s.free ∧
    (State.cmdTableDrop s x).rx = s.rx := by
  unfold State.cmdTableDrop
  (try dsimp only)
  (repeat' split) <;> first | rfl | done | simp_all

@[simp] theorem State.openSlot_frame (s : State) (i : ℕ) (k : TableKind) (key : ℕ) (count : ℕ) :
    (State.openSlot s i k key count).pending = s.pending ∧
    (State.openSlot s i k key count).resetHeld = s.resetHeld ∧
    (State.openSlot s i k key count).coverOpen = s.coverOpen ∧
    (State.openSlot s i k key count).free = s.free ∧
    (State.openSlot s i k key count).rx = s.rx := by
  unfold State.openSlot
  (try dsimp only)
  (repeat' split) <;> first | rfl | done | simp_all

@[simp] theorem State.cmdTableOpen_frame (s : State) (x : List Byte) :
    (State.cmdTableOpen s x).pending = s.pending ∧
    (State.cmdTableOpen s x).resetHeld = s.resetHeld ∧
    (State.cmdTableOpen s x).coverOpen = s.coverOpen ∧
    (State.cmdTableOpen s x).free = s.free ∧
    (State.cmdTableOpen s x).rx = s.rx := by
  unfold State.cmdTableOpen
  (repeat' split) <;> first | rfl | done | simp_all

@[simp] theorem State.cmdTableSeal_frame (s : State) (x : List Byte) :
    (State.cmdTableSeal s x).pending = s.pending ∧
    (State.cmdTableSeal s x).resetHeld = s.resetHeld ∧
    (State.cmdTableSeal s x).coverOpen = s.coverOpen ∧
    (State.cmdTableSeal s x).free = s.free ∧
    (State.cmdTableSeal s x).rx = s.rx ∧
    (State.cmdTableSeal s x).keyq = s.keyq ∧
    (State.cmdTableSeal s x).txt = s.txt ∧
    (State.cmdTableSeal s x).set = s.set ∧
    (State.cmdTableSeal s x).ctr = s.ctr ∧
    (State.cmdTableSeal s x).intake = s.intake ∧
    (State.cmdTableSeal s x).comp = s.comp ∧
    (State.cmdTableSeal s x).seq = s.seq ∧
    (State.cmdTableSeal s x).drv = s.drv ∧
    (State.cmdTableSeal s x).line = s.line ∧
    (State.cmdTableSeal s x).spell = s.spell ∧
    (State.cmdTableSeal s x).disp = s.disp := by
  unfold State.cmdTableSeal
  (try dsimp only)
  (repeat' split) <;> first | rfl | done | simp_all

@[simp] theorem State.writeSegments_frame (s : State) (i : ℕ) (index : ℕ) (data : List Byte) :
    (State.writeSegments s i index data).pending = s.pending ∧
    (State.writeSegments s i index data).resetHeld = s.resetHeld ∧
    (State.writeSegments s i index data).coverOpen = s.coverOpen ∧
    (State.writeSegments s i index data).free = s.free ∧
    (State.writeSegments s i index data).rx = s.rx ∧
    (State.writeSegments s i index data).keyq = s.keyq ∧
    (State.writeSegments s i index data).txt = s.txt ∧
    (State.writeSegments s i index data).ret = s.ret ∧
    (State.writeSegments s i index data).set = s.set ∧
    (State.writeSegments s i index data).ctr = s.ctr ∧
    (State.writeSegments s i index data).intake = s.intake ∧
    (State.writeSegments s i index data).comp = s.comp ∧
    (State.writeSegments s i index data).seq = s.seq ∧
    (State.writeSegments s i index data).drv = s.drv ∧
    (State.writeSegments s i index data).line = s.line ∧
    (State.writeSegments s i index data).spell = s.spell ∧
    (State.writeSegments s i index data).disp = s.disp := by
  unfold State.writeSegments
  (try dsimp only)
  first | rfl | done | simp_all

@[simp] theorem State.writeSlot_frame (s : State) (i : ℕ) (index : ℕ) (data : List Byte) :
    (State.writeSlot s i index data).pending = s.pending ∧
    (State.writeSlot s i index data).resetHeld = s.resetHeld ∧
    (State.writeSlot s i index data).coverOpen = s.coverOpen ∧
    (State.writeSlot s i index data).free = s.free ∧
    (State.writeSlot s i index data).rx = s.rx ∧
    (State.writeSlot s i index data).keyq = s.keyq ∧
    (State.writeSlot s i index data).txt = s.txt ∧
    (State.writeSlot s i index data).set = s.set ∧
    (State.writeSlot s i index data).ctr = s.ctr ∧
    (State.writeSlot s i index data).intake = s.intake ∧
    (State.writeSlot s i index data).comp = s.comp ∧
    (State.writeSlot s i index data).seq = s.seq ∧
    (State.writeSlot s i index data).drv = s.drv ∧
    (State.writeSlot s i index data).line = s.line ∧
    (State.writeSlot s i index data).spell = s.spell ∧
    (State.writeSlot s i index data).disp = s.disp := by
  unfold State.writeSlot
  (try dsimp only)
  (repeat' split) <;> first | rfl | done | simp_all

@[simp] theorem State.cmdTableWrite_frame (s : State) (x : List Byte) :
    (State.cmdTableWrite s x).pending = s.pending ∧
    (State.cmdTableWrite s x).resetHeld = s.resetHeld ∧
    (State.cmdTableWrite s x).coverOpen = s.coverOpen ∧
    (State.cmdTableWrite s x).free = s.free ∧
    (State.cmdTableWrite s x).rx = s.rx ∧
    (State.cmdTableWrite s x).keyq = s.keyq ∧
    (State.cmdTableWrite s x).txt = s.txt ∧
    (State.cmdTableWrite s x).set = s.set ∧
    (State.cmdTableWrite s x).ctr = s.ctr ∧
    (State.cmdTableWrite s x).intake = s.intake ∧
    (State.cmdTableWrite s x).comp = s.comp ∧
    (State.cmdTableWrite s x).seq = s.seq ∧
    (State.cmdTableWrite s x).drv = s.drv ∧
    (State.cmdTableWrite s x).line = s.line ∧
    (State.cmdTableWrite s x).spell = s.spell ∧
    (State.cmdTableWrite s x).disp = s.disp := by
  unfold State.cmdTableWrite
  (repeat' split) <;> first | rfl | done | simp_all

@[simp] theorem State.cmdTabsClear_frame (s : State) (x : List Byte) :
    (State.cmdTabsClear s x).pending = s.pending ∧
    (State.cmdTabsClear s x).resetHeld = s.resetHeld ∧
    (State.cmdTabsClear s x).coverOpen = s.coverOpen ∧
    (State.cmdTabsClear s x).free = s.free ∧
    (State.cmdTabsClear s x).rx = s.rx ∧
    (State.cmdTabsClear s x).tab = s.tab := by
  unfold State.cmdTabsClear
  (repeat' split) <;> first | rfl | done | simp_all

@[simp] theorem State.cmdUserAdd_frame (s : State) (l : List Byte) :
    (State.cmdUserAdd s l).pending = s.pending ∧
    (State.cmdUserAdd s l).resetHeld = s.resetHeld ∧
    (State.cmdUserAdd s l).coverOpen = s.coverOpen ∧
    (State.cmdUserAdd s l).free = s.free ∧
    (State.cmdUserAdd s l).rx = s.rx ∧
    (State.cmdUserAdd s l).tab = s.tab := by
  unfold State.cmdUserAdd
  (try dsimp only)
  (repeat' split) <;> first | rfl | done | simp_all

@[simp] theorem State.removeUserWord_frame (s : State) (letters : List ℕ) :
    (State.removeUserWord s letters).pending = s.pending ∧
    (State.removeUserWord s letters).resetHeld = s.resetHeld ∧
    (State.removeUserWord s letters).coverOpen = s.coverOpen ∧
    (State.removeUserWord s letters).free = s.free ∧
    (State.removeUserWord s letters).rx = s.rx ∧
    (State.removeUserWord s letters).keyq = s.keyq ∧
    (State.removeUserWord s letters).txt = s.txt ∧
    (State.removeUserWord s letters).ret = s.ret ∧
    (State.removeUserWord s letters).set = s.set ∧
    (State.removeUserWord s letters).tab = s.tab ∧
    (State.removeUserWord s letters).intake = s.intake ∧
    (State.removeUserWord s letters).comp = s.comp ∧
    (State.removeUserWord s letters).seq = s.seq ∧
    (State.removeUserWord s letters).drv = s.drv ∧
    (State.removeUserWord s letters).line = s.line ∧
    (State.removeUserWord s letters).disp = s.disp := by
  unfold State.removeUserWord
  (try dsimp only)
  first | rfl | done | simp_all

@[simp] theorem State.cmdUserRemove_frame (s : State) (l : List Byte) :
    (State.cmdUserRemove s l).pending = s.pending ∧
    (State.cmdUserRemove s l).resetHeld = s.resetHeld ∧
    (State.cmdUserRemove s l).coverOpen = s.coverOpen ∧
    (State.cmdUserRemove s l).free = s.free ∧
    (State.cmdUserRemove s l).rx = s.rx ∧
    (State.cmdUserRemove s l).tab = s.tab := by
  unfold State.cmdUserRemove
  (try dsimp only)
  (repeat' split) <;> first | rfl | done | simp_all

@[simp] theorem State.command_frame (s : State) (code : Byte) (params : List Byte) (paper : Bool) :
    (State.command s code params paper).pending = s.pending ∧
    (State.command s code params paper).coverOpen = s.coverOpen := by
  unfold State.command
  iterate 17 (apply ite_holds (fun t : State => t.pending = s.pending ∧ t.coverOpen = s.coverOpen); (· simp))
  simp

@[simp] theorem State.completeLookup_frame (s : State) :
    (State.completeLookup s).pending = s.pending ∧
    (State.completeLookup s).resetHeld = s.resetHeld ∧
    (State.completeLookup s).coverOpen = s.coverOpen ∧
    (State.completeLookup s).free = s.free ∧
    (State.completeLookup s).rx = s.rx ∧
    (State.completeLookup s).keyq = s.keyq ∧
    (State.completeLookup s).txt = s.txt ∧
    (State.completeLookup s).set = s.set ∧
    (State.completeLookup s).tab = s.tab ∧
    (State.completeLookup s).intake = s.intake ∧
    (State.completeLookup s).comp = s.comp ∧
    (State.completeLookup s).seq = s.seq ∧
    (State.completeLookup s).drv = s.drv ∧
    (State.completeLookup s).line = s.line := by
  unfold State.completeLookup
  (try dsimp only)
  (repeat' split) <;> first | rfl | done | simp_all

@[simp] theorem State.enterLocked_frame (s : State) :
    (State.enterLocked s).pending = s.pending ∧
    (State.enterLocked s).resetHeld = s.resetHeld ∧
    (State.enterLocked s).coverOpen = s.coverOpen ∧
    (State.enterLocked s).free = s.free ∧
    (State.enterLocked s).keyq = s.keyq ∧
    (State.enterLocked s).set = s.set ∧
    (State.enterLocked s).tab = s.tab ∧
    (State.enterLocked s).intake = s.intake ∧
    (State.enterLocked s).comp = s.comp ∧
    (State.enterLocked s).seq = s.seq ∧
    (State.enterLocked s).drv = s.drv ∧
    (State.enterLocked s).line = s.line ∧
    (State.enterLocked s).spell = s.spell ∧
    (State.enterLocked s).disp = s.disp := by
  unfold State.enterLocked
  (try dsimp only)
  first | rfl | done | simp_all

@[simp] theorem State.feed_frame (s : State) (l : List FeedByte) :
    (State.feed s l).pending = s.pending ∧
    (State.feed s l).resetHeld = s.resetHeld ∧
    (State.feed s l).coverOpen = s.coverOpen ∧
    (State.feed s l).free = s.free ∧
    (State.feed s l).keyq = s.keyq ∧
    (State.feed s l).txt = s.txt ∧
    (State.feed s l).ret = s.ret ∧
    (State.feed s l).set = s.set ∧
    (State.feed s l).ctr = s.ctr ∧
    (State.feed s l).tab = s.tab ∧
    (State.feed s l).intake = s.intake ∧
    (State.feed s l).comp = s.comp ∧
    (State.feed s l).seq = s.seq ∧
    (State.feed s l).drv = s.drv ∧
    (State.feed s l).line = s.line ∧
    (State.feed s l).spell = s.spell ∧
    (State.feed s l).disp = s.disp := by
  unfold State.feed
  (try dsimp only)
  first | rfl | done | simp_all

@[simp] theorem State.scanFrom_frame (s : State) (l : List FeedByte) :
    (State.scanFrom s l).pending = s.pending ∧
    (State.scanFrom s l).resetHeld = s.resetHeld ∧
    (State.scanFrom s l).coverOpen = s.coverOpen ∧
    (State.scanFrom s l).free = s.free ∧
    (State.scanFrom s l).keyq = s.keyq ∧
    (State.scanFrom s l).txt = s.txt ∧
    (State.scanFrom s l).ret = s.ret ∧
    (State.scanFrom s l).set = s.set ∧
    (State.scanFrom s l).ctr = s.ctr ∧
    (State.scanFrom s l).tab = s.tab ∧
    (State.scanFrom s l).intake = s.intake ∧
    (State.scanFrom s l).comp = s.comp ∧
    (State.scanFrom s l).seq = s.seq ∧
    (State.scanFrom s l).drv = s.drv ∧
    (State.scanFrom s l).line = s.line ∧
    (State.scanFrom s l).spell = s.spell ∧
    (State.scanFrom s l).disp = s.disp := by
  unfold State.scanFrom
  (try dsimp only)
  first | rfl | done | simp_all

@[simp] theorem State.reserve_frame (s : State) :
    (State.reserve s).pending = s.pending ∧
    (State.reserve s).resetHeld = s.resetHeld ∧
    (State.reserve s).coverOpen = s.coverOpen ∧
    (State.reserve s).free = s.free ∧
    (State.reserve s).rx = s.rx ∧
    (State.reserve s).keyq = s.keyq ∧
    (State.reserve s).txt = s.txt ∧
    (State.reserve s).set = s.set ∧
    (State.reserve s).ctr = s.ctr ∧
    (State.reserve s).tab = s.tab ∧
    (State.reserve s).intake = s.intake ∧
    (State.reserve s).comp = s.comp ∧
    (State.reserve s).seq = s.seq ∧
    (State.reserve s).drv = s.drv ∧
    (State.reserve s).line = s.line ∧
    (State.reserve s).spell = s.spell ∧
    (State.reserve s).disp = s.disp := by
  unfold State.reserve
  (try dsimp only)
  first | rfl | done | simp_all

@[simp] theorem State.takeControl_frame (s : State) (code : Byte) (params : List Byte) (paper : Bool) :
    (State.takeControl s code params paper).pending = s.pending ∧
    (State.takeControl s code params paper).coverOpen = s.coverOpen := by
  unfold State.takeControl
  (repeat' split) <;> first | rfl | done | simp_all

@[simp] theorem State.takeBlock_frame (s : State) (head : Byte) (payload : List Byte) (paper : Bool) :
    (State.takeBlock s head payload paper).pending = s.pending ∧
    (State.takeBlock s head payload paper).coverOpen = s.coverOpen := by
  unfold State.takeBlock
  (repeat' split) <;> first | rfl | done | simp_all

@[simp] theorem State.withSync_frame (s : State) (r : RxState) :
    (State.withSync s r).pending = s.pending ∧
    (State.withSync s r).resetHeld = s.resetHeld ∧
    (State.withSync s r).coverOpen = s.coverOpen ∧
    (State.withSync s r).free = s.free ∧
    (State.withSync s r).keyq = s.keyq ∧
    (State.withSync s r).txt = s.txt ∧
    (State.withSync s r).ret = s.ret ∧
    (State.withSync s r).set = s.set ∧
    (State.withSync s r).ctr = s.ctr ∧
    (State.withSync s r).tab = s.tab ∧
    (State.withSync s r).intake = s.intake ∧
    (State.withSync s r).comp = s.comp ∧
    (State.withSync s r).seq = s.seq ∧
    (State.withSync s r).drv = s.drv ∧
    (State.withSync s r).line = s.line ∧
    (State.withSync s r).spell = s.spell ∧
    (State.withSync s r).disp = s.disp := by
  unfold State.withSync
  (try dsimp only)
  first | rfl | done | simp_all

@[simp] theorem State.confirm_frame (s : State) (l : List FeedByte) (paper : Bool) :
    (State.confirm s l paper).pending = s.pending ∧
    (State.confirm s l paper).coverOpen = s.coverOpen := by
  unfold State.confirm
  (try dsimp only)
  (repeat' split) <;> first | rfl | done | simp_all

@[simp] theorem State.confirmStray_frame (s : State) (l : List FeedByte) :
    (State.confirmStray s l).pending = s.pending ∧
    (State.confirmStray s l).resetHeld = s.resetHeld ∧
    (State.confirmStray s l).coverOpen = s.coverOpen ∧
    (State.confirmStray s l).free = s.free ∧
    (State.confirmStray s l).keyq = s.keyq ∧
    (State.confirmStray s l).txt = s.txt ∧
    (State.confirmStray s l).ret = s.ret ∧
    (State.confirmStray s l).set = s.set ∧
    (State.confirmStray s l).ctr = s.ctr ∧
    (State.confirmStray s l).tab = s.tab ∧
    (State.confirmStray s l).intake = s.intake ∧
    (State.confirmStray s l).comp = s.comp ∧
    (State.confirmStray s l).seq = s.seq ∧
    (State.confirmStray s l).drv = s.drv ∧
    (State.confirmStray s l).line = s.line ∧
    (State.confirmStray s l).spell = s.spell ∧
    (State.confirmStray s l).disp = s.disp := by
  unfold State.confirmStray
  (try dsimp only)
  (repeat' split) <;> first | rfl | done | simp_all

@[simp] theorem State.drivenIf_frame (s : State) (b : Bool) (ch : Channel) :
    (State.drivenIf s b ch).pending = s.pending ∧
    (State.drivenIf s b ch).resetHeld = s.resetHeld ∧
    (State.drivenIf s b ch).coverOpen = s.coverOpen ∧
    (State.drivenIf s b ch).free = s.free ∧
    (State.drivenIf s b ch).rx = s.rx ∧
    (State.drivenIf s b ch).keyq = s.keyq ∧
    (State.drivenIf s b ch).txt = s.txt ∧
    (State.drivenIf s b ch).ret = s.ret ∧
    (State.drivenIf s b ch).set = s.set ∧
    (State.drivenIf s b ch).ctr = s.ctr ∧
    (State.drivenIf s b ch).tab = s.tab ∧
    (State.drivenIf s b ch).intake = s.intake ∧
    (State.drivenIf s b ch).comp = s.comp ∧
    (State.drivenIf s b ch).seq = s.seq ∧
    (State.drivenIf s b ch).line = s.line ∧
    (State.drivenIf s b ch).spell = s.spell ∧
    (State.drivenIf s b ch).disp = s.disp := by
  unfold State.drivenIf
  (repeat' split) <;> first | rfl | done | simp_all

@[simp] theorem State.enterCover_frame (s : State) :
    (State.enterCover s).pending = s.pending ∧
    (State.enterCover s).resetHeld = s.resetHeld ∧
    (State.enterCover s).coverOpen = s.coverOpen ∧
    (State.enterCover s).free = s.free ∧
    (State.enterCover s).rx = s.rx ∧
    (State.enterCover s).keyq = s.keyq ∧
    (State.enterCover s).txt = s.txt ∧
    (State.enterCover s).set = s.set ∧
    (State.enterCover s).tab = s.tab ∧
    (State.enterCover s).intake = s.intake ∧
    (State.enterCover s).comp = s.comp ∧
    (State.enterCover s).line = s.line ∧
    (State.enterCover s).spell = s.spell ∧
    (State.enterCover s).disp = s.disp := by
  unfold State.enterCover
  (try dsimp only)
  first | rfl | done | simp_all

@[simp] theorem State.endCoverStop_frame (s : State) :
    (State.endCoverStop s).pending = s.pending ∧
    (State.endCoverStop s).resetHeld = s.resetHeld ∧
    (State.endCoverStop s).coverOpen = s.coverOpen ∧
    (State.endCoverStop s).rx = s.rx ∧
    (State.endCoverStop s).keyq = s.keyq ∧
    (State.endCoverStop s).txt = s.txt ∧
    (State.endCoverStop s).set = s.set ∧
    (State.endCoverStop s).tab = s.tab ∧
    (State.endCoverStop s).intake = s.intake ∧
    (State.endCoverStop s).comp = s.comp ∧
    (State.endCoverStop s).line = s.line ∧
    (State.endCoverStop s).spell = s.spell ∧
    (State.endCoverStop s).disp = s.disp := by
  unfold State.endCoverStop
  (try dsimp only)
  (repeat' split) <;> first | rfl | done | simp_all

@[simp] theorem State.endOutgoing_frame (s : State) :
    (State.endOutgoing s).pending = s.pending ∧
    (State.endOutgoing s).resetHeld = s.resetHeld ∧
    (State.endOutgoing s).coverOpen = s.coverOpen ∧
    (State.endOutgoing s).free = s.free ∧
    (State.endOutgoing s).rx = s.rx ∧
    (State.endOutgoing s).keyq = s.keyq ∧
    (State.endOutgoing s).txt = s.txt ∧
    (State.endOutgoing s).set = s.set ∧
    (State.endOutgoing s).tab = s.tab ∧
    (State.endOutgoing s).intake = s.intake := by
  unfold State.endOutgoing
  (try dsimp only)
  (repeat' split) <;> first | rfl | done | simp_all

@[simp] theorem State.halt_frame (s : State) (k : FaultKind) :
    (State.halt s k).pending = s.pending ∧
    (State.halt s k).resetHeld = s.resetHeld ∧
    (State.halt s k).coverOpen = s.coverOpen ∧
    (State.halt s k).rx = s.rx ∧
    (State.halt s k).keyq = s.keyq ∧
    (State.halt s k).txt = s.txt ∧
    (State.halt s k).set = s.set ∧
    (State.halt s k).tab = s.tab ∧
    (State.halt s k).intake = s.intake ∧
    (State.halt s k).comp = s.comp ∧
    (State.halt s k).spell = s.spell ∧
    (State.halt s k).disp = s.disp := by
  unfold State.halt
  (try dsimp only)
  (repeat' split) <;> first | rfl | done | simp_all

@[simp] theorem State.raiseFault_frame (s : State) (k : FaultKind) (ch : Channel) :
    (State.raiseFault s k ch).pending = s.pending ∧
    (State.raiseFault s k ch).resetHeld = s.resetHeld ∧
    (State.raiseFault s k ch).coverOpen = s.coverOpen ∧
    (State.raiseFault s k ch).free = s.free ∧
    (State.raiseFault s k ch).rx = s.rx ∧
    (State.raiseFault s k ch).keyq = s.keyq ∧
    (State.raiseFault s k ch).txt = s.txt ∧
    (State.raiseFault s k ch).set = s.set ∧
    (State.raiseFault s k ch).tab = s.tab ∧
    (State.raiseFault s k ch).intake = s.intake ∧
    (State.raiseFault s k ch).comp = s.comp ∧
    (State.raiseFault s k ch).seq = s.seq ∧
    (State.raiseFault s k ch).line = s.line ∧
    (State.raiseFault s k ch).spell = s.spell ∧
    (State.raiseFault s k ch).disp = s.disp := by
  unfold State.raiseFault
  (try dsimp only)
  (repeat' split) <;> first | rfl | done | simp_all

@[simp] theorem State.fault_frame (s : State) (k : FaultKind) (ch : Channel) :
    (State.fault s k ch).pending = s.pending ∧
    (State.fault s k ch).resetHeld = s.resetHeld ∧
    (State.fault s k ch).coverOpen = s.coverOpen ∧
    (State.fault s k ch).rx = s.rx ∧
    (State.fault s k ch).keyq = s.keyq ∧
    (State.fault s k ch).txt = s.txt ∧
    (State.fault s k ch).set = s.set ∧
    (State.fault s k ch).tab = s.tab ∧
    (State.fault s k ch).intake = s.intake ∧
    (State.fault s k ch).comp = s.comp ∧
    (State.fault s k ch).spell = s.spell ∧
    (State.fault s k ch).disp = s.disp := by
  unfold State.fault
  (try dsimp only)
  (repeat' split) <;> first | rfl | done | simp_all

@[simp] theorem State.keyRow_frame (s : State) (accepts : KeyAction → Bool) (paper : Bool) :
    (State.keyRow s accepts paper).pending = s.pending ∧
    (State.keyRow s accepts paper).resetHeld = s.resetHeld ∧
    (State.keyRow s accepts paper).coverOpen = s.coverOpen ∧
    (State.keyRow s accepts paper).free = s.free ∧
    (State.keyRow s accepts paper).rx = s.rx ∧
    (State.keyRow s accepts paper).tab = s.tab := by
  unfold State.keyRow
  (repeat' split) <;> first | rfl | done | simp_all

@[simp] theorem State.funcRow_frame (s : State) (f : Func) (paper : Bool) :
    (State.funcRow s f paper).pending = s.pending ∧
    (State.funcRow s f paper).resetHeld = s.resetHeld ∧
    (State.funcRow s f paper).coverOpen = s.coverOpen ∧
    (State.funcRow s f paper).free = s.free ∧
    (State.funcRow s f paper).rx = s.rx ∧
    (State.funcRow s f paper).tab = s.tab := by
  unfold State.funcRow
  first | rfl | done | simp_all

@[simp] theorem State.heatCheck_frame (s : State) (petal : ℕ) (level : ℕ) :
    (State.heatCheck s petal level).pending = s.pending ∧
    (State.heatCheck s petal level).resetHeld = s.resetHeld ∧
    (State.heatCheck s petal level).coverOpen = s.coverOpen ∧
    (State.heatCheck s petal level).free = s.free ∧
    (State.heatCheck s petal level).rx = s.rx ∧
    (State.heatCheck s petal level).keyq = s.keyq ∧
    (State.heatCheck s petal level).txt = s.txt ∧
    (State.heatCheck s petal level).ret = s.ret ∧
    (State.heatCheck s petal level).set = s.set ∧
    (State.heatCheck s petal level).tab = s.tab ∧
    (State.heatCheck s petal level).intake = s.intake ∧
    (State.heatCheck s petal level).comp = s.comp ∧
    (State.heatCheck s petal level).drv = s.drv ∧
    (State.heatCheck s petal level).line = s.line ∧
    (State.heatCheck s petal level).spell = s.spell ∧
    (State.heatCheck s petal level).disp = s.disp := by
  unfold State.heatCheck
  (try dsimp only)
  (repeat' split) <;> first | rfl | done | simp_all

@[simp] theorem State.heatTick_frame (s : State) :
    (State.heatTick s).pending = s.pending ∧
    (State.heatTick s).resetHeld = s.resetHeld ∧
    (State.heatTick s).coverOpen = s.coverOpen ∧
    (State.heatTick s).free = s.free ∧
    (State.heatTick s).rx = s.rx ∧
    (State.heatTick s).keyq = s.keyq ∧
    (State.heatTick s).txt = s.txt ∧
    (State.heatTick s).ret = s.ret ∧
    (State.heatTick s).set = s.set ∧
    (State.heatTick s).tab = s.tab ∧
    (State.heatTick s).intake = s.intake ∧
    (State.heatTick s).comp = s.comp ∧
    (State.heatTick s).drv = s.drv ∧
    (State.heatTick s).line = s.line ∧
    (State.heatTick s).spell = s.spell ∧
    (State.heatTick s).disp = s.disp := by
  unfold State.heatTick
  (try dsimp only)
  (repeat' split) <;> first | rfl | done | simp_all

@[simp] theorem State.homingFault_frame (s : State) (k : FaultKind) (ch : Channel) :
    (State.homingFault s k ch).pending = s.pending ∧
    (State.homingFault s k ch).resetHeld = s.resetHeld ∧
    (State.homingFault s k ch).coverOpen = s.coverOpen ∧
    (State.homingFault s k ch).rx = s.rx ∧
    (State.homingFault s k ch).keyq = s.keyq ∧
    (State.homingFault s k ch).txt = s.txt ∧
    (State.homingFault s k ch).set = s.set ∧
    (State.homingFault s k ch).tab = s.tab ∧
    (State.homingFault s k ch).intake = s.intake ∧
    (State.homingFault s k ch).comp = s.comp ∧
    (State.homingFault s k ch).spell = s.spell ∧
    (State.homingFault s k ch).disp = s.disp := by
  unfold State.homingFault
  (try dsimp only)
  (repeat' split) <;> first | rfl | done | simp_all

@[simp] theorem State.homeLost_frame (s : State) :
    (State.homeLost s).pending = s.pending ∧
    (State.homeLost s).resetHeld = s.resetHeld ∧
    (State.homeLost s).coverOpen = s.coverOpen ∧
    (State.homeLost s).rx = s.rx ∧
    (State.homeLost s).keyq = s.keyq ∧
    (State.homeLost s).txt = s.txt ∧
    (State.homeLost s).set = s.set ∧
    (State.homeLost s).tab = s.tab ∧
    (State.homeLost s).intake = s.intake ∧
    (State.homeLost s).comp = s.comp ∧
    (State.homeLost s).spell = s.spell ∧
    (State.homeLost s).disp = s.disp := by
  unfold State.homeLost
  (try dsimp only)
  (repeat' split) <;> first | rfl | done | simp_all

@[simp] theorem State.homeSeen_frame (s : State) :
    (State.homeSeen s).pending = s.pending ∧
    (State.homeSeen s).resetHeld = s.resetHeld ∧
    (State.homeSeen s).coverOpen = s.coverOpen ∧
    (State.homeSeen s).free = s.free ∧
    (State.homeSeen s).rx = s.rx ∧
    (State.homeSeen s).keyq = s.keyq ∧
    (State.homeSeen s).txt = s.txt ∧
    (State.homeSeen s).ret = s.ret ∧
    (State.homeSeen s).set = s.set ∧
    (State.homeSeen s).ctr = s.ctr ∧
    (State.homeSeen s).tab = s.tab ∧
    (State.homeSeen s).intake = s.intake ∧
    (State.homeSeen s).comp = s.comp ∧
    (State.homeSeen s).line = s.line ∧
    (State.homeSeen s).spell = s.spell ∧
    (State.homeSeen s).disp = s.disp := by
  unfold State.homeSeen
  (try dsimp only)
  (repeat' split) <;> first | rfl | done | simp_all

@[simp] theorem State.homingEnd_frame (s : State) :
    (State.homingEnd s).pending = s.pending ∧
    (State.homingEnd s).resetHeld = s.resetHeld ∧
    (State.homingEnd s).coverOpen = s.coverOpen ∧
    (State.homingEnd s).free = s.free ∧
    (State.homingEnd s).rx = s.rx ∧
    (State.homingEnd s).keyq = s.keyq ∧
    (State.homingEnd s).txt = s.txt ∧
    (State.homingEnd s).set = s.set ∧
    (State.homingEnd s).tab = s.tab ∧
    (State.homingEnd s).intake = s.intake := by
  unfold State.homingEnd
  (try dsimp only)
  (repeat' split) <;> first | rfl | done | simp_all

@[simp] theorem State.huntCandidate_frame (s : State) (l : List FeedByte) :
    (State.huntCandidate s l).pending = s.pending ∧
    (State.huntCandidate s l).resetHeld = s.resetHeld ∧
    (State.huntCandidate s l).coverOpen = s.coverOpen ∧
    (State.huntCandidate s l).free = s.free ∧
    (State.huntCandidate s l).keyq = s.keyq ∧
    (State.huntCandidate s l).txt = s.txt ∧
    (State.huntCandidate s l).ret = s.ret ∧
    (State.huntCandidate s l).set = s.set ∧
    (State.huntCandidate s l).tab = s.tab ∧
    (State.huntCandidate s l).intake = s.intake ∧
    (State.huntCandidate s l).comp = s.comp ∧
    (State.huntCandidate s l).seq = s.seq ∧
    (State.huntCandidate s l).drv = s.drv ∧
    (State.huntCandidate s l).line = s.line ∧
    (State.huntCandidate s l).spell = s.spell ∧
    (State.huntCandidate s l).disp = s.disp := by
  unfold State.huntCandidate
  (try dsimp only)
  (repeat' split) <;> first | rfl | done | simp_all

@[simp] theorem State.identified_frame (s : State) (code : ℕ) :
    (State.identified s code).pending = s.pending ∧
    (State.identified s code).resetHeld = s.resetHeld ∧
    (State.identified s code).coverOpen = s.coverOpen ∧
    (State.identified s code).free = s.free ∧
    (State.identified s code).rx = s.rx ∧
    (State.identified s code).keyq = s.keyq ∧
    (State.identified s code).txt = s.txt ∧
    (State.identified s code).set = s.set ∧
    (State.identified s code).tab = s.tab ∧
    (State.identified s code).intake = s.intake ∧
    (State.identified s code).comp = s.comp ∧
    (State.identified s code).drv = s.drv ∧
    (State.identified s code).line = s.line ∧
    (State.identified s code).spell = s.spell ∧
    (State.identified s code).disp = s.disp := by
  unfold State.identified
  (try dsimp only)
  (repeat' split) <;> first | rfl | done | simp_all

@[simp] theorem State.identRead_frame (s : State) (code : ℕ) :
    (State.identRead s code).pending = s.pending ∧
    (State.identRead s code).resetHeld = s.resetHeld ∧
    (State.identRead s code).coverOpen = s.coverOpen ∧
    (State.identRead s code).free = s.free ∧
    (State.identRead s code).rx = s.rx ∧
    (State.identRead s code).keyq = s.keyq ∧
    (State.identRead s code).txt = s.txt ∧
    (State.identRead s code).set = s.set ∧
    (State.identRead s code).tab = s.tab ∧
    (State.identRead s code).intake = s.intake ∧
    (State.identRead s code).comp = s.comp ∧
    (State.identRead s code).line = s.line ∧
    (State.identRead s code).spell = s.spell ∧
    (State.identRead s code).disp = s.disp := by
  unfold State.identRead
  (try dsimp only)
  (repeat' split) <;> first | rfl | done | simp_all

@[simp] theorem State.indexComplete_frame (s : State) (paper : Bool) :
    (State.indexComplete s paper).pending = s.pending ∧
    (State.indexComplete s paper).resetHeld = s.resetHeld ∧
    (State.indexComplete s paper).coverOpen = s.coverOpen ∧
    (State.indexComplete s paper).free = s.free ∧
    (State.indexComplete s paper).rx = s.rx ∧
    (State.indexComplete s paper).keyq = s.keyq ∧
    (State.indexComplete s paper).txt = s.txt ∧
    (State.indexComplete s paper).set = s.set ∧
    (State.indexComplete s paper).tab = s.tab ∧
    (State.indexComplete s paper).intake = s.intake := by
  unfold State.indexComplete
  (try dsimp only)
  (repeat' split) <;> first | rfl | done | simp_all

@[simp] theorem State.indexLost_frame (s : State) :
    (State.indexLost s).pending = s.pending ∧
    (State.indexLost s).resetHeld = s.resetHeld ∧
    (State.indexLost s).coverOpen = s.coverOpen ∧
    (State.indexLost s).rx = s.rx ∧
    (State.indexLost s).keyq = s.keyq ∧
    (State.indexLost s).txt = s.txt ∧
    (State.indexLost s).set = s.set ∧
    (State.indexLost s).tab = s.tab ∧
    (State.indexLost s).intake = s.intake ∧
    (State.indexLost s).comp = s.comp ∧
    (State.indexLost s).spell = s.spell ∧
    (State.indexLost s).disp = s.disp := by
  unfold State.indexLost
  (try dsimp only)
  (repeat' split) <;> first | rfl | done | simp_all

@[simp] theorem State.indexSeen_frame (s : State) :
    (State.indexSeen s).pending = s.pending ∧
    (State.indexSeen s).resetHeld = s.resetHeld ∧
    (State.indexSeen s).coverOpen = s.coverOpen ∧
    (State.indexSeen s).free = s.free ∧
    (State.indexSeen s).rx = s.rx ∧
    (State.indexSeen s).keyq = s.keyq ∧
    (State.indexSeen s).txt = s.txt ∧
    (State.indexSeen s).ret = s.ret ∧
    (State.indexSeen s).set = s.set ∧
    (State.indexSeen s).ctr = s.ctr ∧
    (State.indexSeen s).tab = s.tab ∧
    (State.indexSeen s).intake = s.intake ∧
    (State.indexSeen s).comp = s.comp ∧
    (State.indexSeen s).line = s.line ∧
    (State.indexSeen s).spell = s.spell ∧
    (State.indexSeen s).disp = s.disp := by
  unfold State.indexSeen
  (try dsimp only)
  (repeat' split) <;> first | rfl | done | simp_all

@[simp] theorem State.pressUnmapped_frame (s : State) :
    (State.pressUnmapped s).pending = s.pending ∧
    (State.pressUnmapped s).resetHeld = s.resetHeld ∧
    (State.pressUnmapped s).coverOpen = s.coverOpen ∧
    (State.pressUnmapped s).free = s.free ∧
    (State.pressUnmapped s).rx = s.rx ∧
    (State.pressUnmapped s).txt = s.txt ∧
    (State.pressUnmapped s).ret = s.ret ∧
    (State.pressUnmapped s).set = s.set ∧
    (State.pressUnmapped s).tab = s.tab ∧
    (State.pressUnmapped s).comp = s.comp ∧
    (State.pressUnmapped s).seq = s.seq ∧
    (State.pressUnmapped s).drv = s.drv ∧
    (State.pressUnmapped s).line = s.line ∧
    (State.pressUnmapped s).spell = s.spell := by
  unfold State.pressUnmapped
  first | rfl | done | simp_all

@[simp] theorem State.offer_frame (s : State) (o : Offered) :
    (State.offer s o).pending = s.pending ∧
    (State.offer s o).resetHeld = s.resetHeld ∧
    (State.offer s o).coverOpen = s.coverOpen ∧
    (State.offer s o).free = s.free ∧
    (State.offer s o).rx = s.rx ∧
    (State.offer s o).keyq = s.keyq ∧
    (State.offer s o).txt = s.txt ∧
    (State.offer s o).ret = s.ret ∧
    (State.offer s o).set = s.set ∧
    (State.offer s o).ctr = s.ctr ∧
    (State.offer s o).tab = s.tab ∧
    (State.offer s o).comp = s.comp ∧
    (State.offer s o).seq = s.seq ∧
    (State.offer s o).drv = s.drv ∧
    (State.offer s o).line = s.line ∧
    (State.offer s o).spell = s.spell ∧
    (State.offer s o).disp = s.disp := by
  unfold State.offer
  (try dsimp only)
  first | rfl | done | simp_all

@[simp] theorem State.resolvePress_frame (s : State) (key : ℕ) (e : KeyEntry) :
    (State.resolvePress s key e).pending = s.pending ∧
    (State.resolvePress s key e).resetHeld = s.resetHeld ∧
    (State.resolvePress s key e).coverOpen = s.coverOpen ∧
    (State.resolvePress s key e).free = s.free ∧
    (State.resolvePress s key e).rx = s.rx ∧
    (State.resolvePress s key e).txt = s.txt ∧
    (State.resolvePress s key e).ret = s.ret ∧
    (State.resolvePress s key e).set = s.set ∧
    (State.resolvePress s key e).ctr = s.ctr ∧
    (State.resolvePress s key e).tab = s.tab ∧
    (State.resolvePress s key e).comp = s.comp ∧
    (State.resolvePress s key e).seq = s.seq ∧
    (State.resolvePress s key e).drv = s.drv ∧
    (State.resolvePress s key e).line = s.line ∧
    (State.resolvePress s key e).spell = s.spell ∧
    (State.resolvePress s key e).disp = s.disp := by
  unfold State.resolvePress
  (try dsimp only)
  (repeat' split) <;> first | rfl | done | simp_all

@[simp] theorem State.pressHead_frame (s : State) (key : ℕ) :
    (State.pressHead s key).pending = s.pending ∧
    (State.pressHead s key).resetHeld = s.resetHeld ∧
    (State.pressHead s key).coverOpen = s.coverOpen ∧
    (State.pressHead s key).free = s.free ∧
    (State.pressHead s key).rx = s.rx ∧
    (State.pressHead s key).txt = s.txt ∧
    (State.pressHead s key).ret = s.ret ∧
    (State.pressHead s key).set = s.set ∧
    (State.pressHead s key).tab = s.tab ∧
    (State.pressHead s key).comp = s.comp ∧
    (State.pressHead s key).seq = s.seq ∧
    (State.pressHead s key).drv = s.drv ∧
    (State.pressHead s key).line = s.line ∧
    (State.pressHead s key).spell = s.spell := by
  unfold State.pressHead
  (repeat' split) <;> first | rfl | done | simp_all

@[simp] theorem State.keyPressed_frame (s : State) :
    (State.keyPressed s).pending = s.pending ∧
    (State.keyPressed s).resetHeld = s.resetHeld ∧
    (State.keyPressed s).coverOpen = s.coverOpen ∧
    (State.keyPressed s).free = s.free ∧
    (State.keyPressed s).rx = s.rx ∧
    (State.keyPressed s).txt = s.txt ∧
    (State.keyPressed s).ret = s.ret ∧
    (State.keyPressed s).set = s.set ∧
    (State.keyPressed s).tab = s.tab ∧
    (State.keyPressed s).comp = s.comp ∧
    (State.keyPressed s).seq = s.seq ∧
    (State.keyPressed s).drv = s.drv ∧
    (State.keyPressed s).line = s.line ∧
    (State.keyPressed s).spell = s.spell := by
  unfold State.keyPressed
  (repeat' split) <;> first | rfl | done | simp_all

@[simp] theorem State.keyReleased_frame (s : State) :
    (State.keyReleased s).pending = s.pending ∧
    (State.keyReleased s).resetHeld = s.resetHeld ∧
    (State.keyReleased s).coverOpen = s.coverOpen ∧
    (State.keyReleased s).free = s.free ∧
    (State.keyReleased s).rx = s.rx ∧
    (State.keyReleased s).txt = s.txt ∧
    (State.keyReleased s).ret = s.ret ∧
    (State.keyReleased s).set = s.set ∧
    (State.keyReleased s).ctr = s.ctr ∧
    (State.keyReleased s).tab = s.tab ∧
    (State.keyReleased s).comp = s.comp ∧
    (State.keyReleased s).seq = s.seq ∧
    (State.keyReleased s).drv = s.drv ∧
    (State.keyReleased s).line = s.line ∧
    (State.keyReleased s).spell = s.spell ∧
    (State.keyReleased s).disp = s.disp := by
  unfold State.keyReleased
  (repeat' split) <;> first | rfl | done | simp_all

@[simp] theorem State.liftComplete_frame (s : State) :
    (State.liftComplete s).pending = s.pending ∧
    (State.liftComplete s).resetHeld = s.resetHeld ∧
    (State.liftComplete s).coverOpen = s.coverOpen ∧
    (State.liftComplete s).free = s.free ∧
    (State.liftComplete s).rx = s.rx ∧
    (State.liftComplete s).keyq = s.keyq ∧
    (State.liftComplete s).txt = s.txt ∧
    (State.liftComplete s).ret = s.ret ∧
    (State.liftComplete s).set = s.set ∧
    (State.liftComplete s).ctr = s.ctr ∧
    (State.liftComplete s).tab = s.tab ∧
    (State.liftComplete s).intake = s.intake ∧
    (State.liftComplete s).comp = s.comp ∧
    (State.liftComplete s).line = s.line ∧
    (State.liftComplete s).spell = s.spell ∧
    (State.liftComplete s).disp = s.disp := by
  unfold State.liftComplete
  (try dsimp only)
  (repeat' split) <;> first | rfl | done | simp_all

@[simp] theorem State.noteBlock_frame (s : State) (bad : Bool) :
    (State.noteBlock s bad).pending = s.pending ∧
    (State.noteBlock s bad).resetHeld = s.resetHeld ∧
    (State.noteBlock s bad).coverOpen = s.coverOpen ∧
    (State.noteBlock s bad).free = s.free ∧
    (State.noteBlock s bad).keyq = s.keyq ∧
    (State.noteBlock s bad).txt = s.txt ∧
    (State.noteBlock s bad).set = s.set ∧
    (State.noteBlock s bad).tab = s.tab ∧
    (State.noteBlock s bad).seq = s.seq ∧
    (State.noteBlock s bad).drv = s.drv ∧
    (State.noteBlock s bad).spell = s.spell ∧
    (State.noteBlock s bad).disp = s.disp := by
  unfold State.noteBlock
  (try dsimp only)
  (repeat' split) <;> first | rfl | done | simp_all

@[simp] theorem State.lockedBad_frame (s : State) (l : List FeedByte) :
    (State.lockedBad s l).pending = s.pending ∧
    (State.lockedBad s l).resetHeld = s.resetHeld ∧
    (State.lockedBad s l).coverOpen = s.coverOpen ∧
    (State.lockedBad s l).free = s.free ∧
    (State.lockedBad s l).keyq = s.keyq ∧
    (State.lockedBad s l).txt = s.txt ∧
    (State.lockedBad s l).set = s.set ∧
    (State.lockedBad s l).tab = s.tab ∧
    (State.lockedBad s l).seq = s.seq ∧
    (State.lockedBad s l).drv = s.drv ∧
    (State.lockedBad s l).spell = s.spell ∧
    (State.lockedBad s l).disp = s.disp := by
  unfold State.lockedBad
  (try dsimp only)
  (repeat' split) <;> first | rfl | done | simp_all

@[simp] theorem State.lockedGood_frame (s : State) (l : List FeedByte) (k : BlockKind) (paper : Bool) :
    (State.lockedGood s l k paper).pending = s.pending ∧
    (State.lockedGood s l k paper).coverOpen = s.coverOpen := by
  unfold State.lockedGood
  (try dsimp only)
  (repeat' split) <;> first | rfl | done | simp_all

@[simp] theorem State.lockedStray_frame (s : State) (l : List FeedByte) :
    (State.lockedStray s l).pending = s.pending ∧
    (State.lockedStray s l).resetHeld = s.resetHeld ∧
    (State.lockedStray s l).coverOpen = s.coverOpen ∧
    (State.lockedStray s l).free = s.free ∧
    (State.lockedStray s l).keyq = s.keyq ∧
    (State.lockedStray s l).txt = s.txt ∧
    (State.lockedStray s l).set = s.set ∧
    (State.lockedStray s l).tab = s.tab ∧
    (State.lockedStray s l).seq = s.seq ∧
    (State.lockedStray s l).drv = s.drv ∧
    (State.lockedStray s l).spell = s.spell ∧
    (State.lockedStray s l).disp = s.disp := by
  unfold State.lockedStray
  (try dsimp only)
  (repeat' split) <;> first | rfl | done | simp_all

@[simp] theorem State.moveComplete_frame (s : State) :
    (State.moveComplete s).pending = s.pending ∧
    (State.moveComplete s).resetHeld = s.resetHeld ∧
    (State.moveComplete s).coverOpen = s.coverOpen ∧
    (State.moveComplete s).free = s.free ∧
    (State.moveComplete s).rx = s.rx ∧
    (State.moveComplete s).keyq = s.keyq ∧
    (State.moveComplete s).txt = s.txt ∧
    (State.moveComplete s).set = s.set ∧
    (State.moveComplete s).tab = s.tab ∧
    (State.moveComplete s).intake = s.intake := by
  unfold State.moveComplete
  (try dsimp only)
  (repeat' split) <;> first | rfl | done | simp_all

@[simp] theorem State.nextTest_frame (s : State) (ch : Channel) :
    (State.nextTest s ch).pending = s.pending ∧
    (State.nextTest s ch).resetHeld = s.resetHeld ∧
    (State.nextTest s ch).coverOpen = s.coverOpen ∧
    (State.nextTest s ch).free = s.free ∧
    (State.nextTest s ch).rx = s.rx ∧
    (State.nextTest s ch).keyq = s.keyq ∧
    (State.nextTest s ch).txt = s.txt ∧
    (State.nextTest s ch).set = s.set ∧
    (State.nextTest s ch).tab = s.tab ∧
    (State.nextTest s ch).intake = s.intake := by
  unfold State.nextTest
  (try dsimp only)
  (repeat' split) <;> first | rfl | done | simp_all

@[simp] theorem State.openCover_frame (s : State) :
    (State.openCover s).pending = s.pending ∧
    (State.openCover s).resetHeld = s.resetHeld ∧
    (State.openCover s).rx = s.rx ∧
    (State.openCover s).keyq = s.keyq ∧
    (State.openCover s).txt = s.txt ∧
    (State.openCover s).set = s.set ∧
    (State.openCover s).tab = s.tab ∧
    (State.openCover s).intake = s.intake := by
  unfold State.openCover
  (try dsimp only)
  (repeat' split) <;> first | rfl | done | simp_all

@[simp] theorem State.overcurrent_frame (s : State) (ch : Channel) :
    (State.overcurrent s ch).pending = s.pending ∧
    (State.overcurrent s ch).resetHeld = s.resetHeld ∧
    (State.overcurrent s ch).coverOpen = s.coverOpen ∧
    (State.overcurrent s ch).rx = s.rx ∧
    (State.overcurrent s ch).keyq = s.keyq ∧
    (State.overcurrent s ch).txt = s.txt ∧
    (State.overcurrent s ch).set = s.set ∧
    (State.overcurrent s ch).tab = s.tab ∧
    (State.overcurrent s ch).intake = s.intake ∧
    (State.overcurrent s ch).comp = s.comp ∧
    (State.overcurrent s ch).spell = s.spell ∧
    (State.overcurrent s ch).disp = s.disp := by
  unfold State.overcurrent
  (repeat' split) <;> first | rfl | done | simp_all

@[simp] theorem State.positionComplete_frame (s : State) :
    (State.positionComplete s).pending = s.pending ∧
    (State.positionComplete s).resetHeld = s.resetHeld ∧
    (State.positionComplete s).coverOpen = s.coverOpen ∧
    (State.positionComplete s).free = s.free ∧
    (State.positionComplete s).rx = s.rx ∧
    (State.positionComplete s).keyq = s.keyq ∧
    (State.positionComplete s).txt = s.txt ∧
    (State.positionComplete s).ret = s.ret ∧
    (State.positionComplete s).set = s.set ∧
    (State.positionComplete s).tab = s.tab ∧
    (State.positionComplete s).intake = s.intake ∧
    (State.positionComplete s).comp = s.comp ∧
    (State.positionComplete s).line = s.line ∧
    (State.positionComplete s).spell = s.spell ∧
    (State.positionComplete s).disp = s.disp := by
  unfold State.positionComplete
  (try dsimp only)
  (repeat' split) <;> first | rfl | done | simp_all

@[simp] theorem State.pulseComplete_frame (s : State) :
    (State.pulseComplete s).pending = s.pending ∧
    (State.pulseComplete s).resetHeld = s.resetHeld ∧
    (State.pulseComplete s).coverOpen = s.coverOpen ∧
    (State.pulseComplete s).rx = s.rx ∧
    (State.pulseComplete s).keyq = s.keyq ∧
    (State.pulseComplete s).txt = s.txt ∧
    (State.pulseComplete s).set = s.set ∧
    (State.pulseComplete s).tab = s.tab ∧
    (State.pulseComplete s).intake = s.intake := by
  unfold State.pulseComplete
  (try dsimp only)
  (repeat' split) <;> first | rfl | done | simp_all

@[simp] theorem State.recoverComplete_frame (s : State) :
    (State.recoverComplete s).pending = s.pending ∧
    (State.recoverComplete s).resetHeld = s.resetHeld ∧
    (State.recoverComplete s).coverOpen = s.coverOpen ∧
    (State.recoverComplete s).free = s.free ∧
    (State.recoverComplete s).rx = s.rx ∧
    (State.recoverComplete s).keyq = s.keyq ∧
    (State.recoverComplete s).txt = s.txt ∧
    (State.recoverComplete s).set = s.set ∧
    (State.recoverComplete s).tab = s.tab ∧
    (State.recoverComplete s).intake = s.intake := by
  unfold State.recoverComplete
  (repeat' split) <;> first | rfl | done | simp_all

@[simp] theorem State.releaseReset_frame (s : State) :
    (State.releaseReset s).pending = s.pending ∧
    (State.releaseReset s).coverOpen = s.coverOpen := by
  unfold State.releaseReset
  (try dsimp only)
  (repeat' split) <;> first | rfl | done | simp_all [State.held]

@[simp] theorem State.repeatExpiry_frame (s : State) (periodic : Bool) :
    (State.repeatExpiry s periodic).pending = s.pending ∧
    (State.repeatExpiry s periodic).resetHeld = s.resetHeld ∧
    (State.repeatExpiry s periodic).coverOpen = s.coverOpen ∧
    (State.repeatExpiry s periodic).free = s.free ∧
    (State.repeatExpiry s periodic).rx = s.rx ∧
    (State.repeatExpiry s periodic).keyq = s.keyq ∧
    (State.repeatExpiry s periodic).txt = s.txt ∧
    (State.repeatExpiry s periodic).ret = s.ret ∧
    (State.repeatExpiry s periodic).set = s.set ∧
    (State.repeatExpiry s periodic).ctr = s.ctr ∧
    (State.repeatExpiry s periodic).tab = s.tab ∧
    (State.repeatExpiry s periodic).comp = s.comp ∧
    (State.repeatExpiry s periodic).seq = s.seq ∧
    (State.repeatExpiry s periodic).drv = s.drv ∧
    (State.repeatExpiry s periodic).line = s.line ∧
    (State.repeatExpiry s periodic).spell = s.spell ∧
    (State.repeatExpiry s periodic).disp = s.disp := by
  unfold State.repeatExpiry
  (try dsimp only)
  (repeat' split) <;> first | rfl | done | simp_all

@[simp] theorem State.restExpiry_frame (s : State) :
    (State.restExpiry s).pending = s.pending ∧
    (State.restExpiry s).resetHeld = s.resetHeld ∧
    (State.restExpiry s).coverOpen = s.coverOpen ∧
    (State.restExpiry s).free = s.free ∧
    (State.restExpiry s).rx = s.rx ∧
    (State.restExpiry s).keyq = s.keyq ∧
    (State.restExpiry s).txt = s.txt ∧
    (State.restExpiry s).ret = s.ret ∧
    (State.restExpiry s).set = s.set ∧
    (State.restExpiry s).ctr = s.ctr ∧
    (State.restExpiry s).tab = s.tab ∧
    (State.restExpiry s).intake = s.intake ∧
    (State.restExpiry s).comp = s.comp ∧
    (State.restExpiry s).line = s.line ∧
    (State.restExpiry s).spell = s.spell ∧
    (State.restExpiry s).disp = s.disp := by
  unfold State.restExpiry
  (try dsimp only)
  (repeat' split) <;> first | rfl | done | simp_all

@[simp] theorem State.returnComplete_frame (s : State) :
    (State.returnComplete s).pending = s.pending ∧
    (State.returnComplete s).resetHeld = s.resetHeld ∧
    (State.returnComplete s).coverOpen = s.coverOpen ∧
    (State.returnComplete s).free = s.free ∧
    (State.returnComplete s).rx = s.rx ∧
    (State.returnComplete s).keyq = s.keyq ∧
    (State.returnComplete s).txt = s.txt ∧
    (State.returnComplete s).ret = s.ret ∧
    (State.returnComplete s).set = s.set ∧
    (State.returnComplete s).ctr = s.ctr ∧
    (State.returnComplete s).tab = s.tab ∧
    (State.returnComplete s).intake = s.intake ∧
    (State.returnComplete s).comp = s.comp ∧
    (State.returnComplete s).line = s.line ∧
    (State.returnComplete s).spell = s.spell ∧
    (State.returnComplete s).disp = s.disp := by
  unfold State.returnComplete
  (try dsimp only)
  (repeat' split) <;> first | rfl | done | simp_all

@[simp] theorem State.rotationExpiry_frame (s : State) :
    (State.rotationExpiry s).pending = s.pending ∧
    (State.rotationExpiry s).resetHeld = s.resetHeld ∧
    (State.rotationExpiry s).coverOpen = s.coverOpen ∧
    (State.rotationExpiry s).free = s.free ∧
    (State.rotationExpiry s).rx = s.rx ∧
    (State.rotationExpiry s).keyq = s.keyq ∧
    (State.rotationExpiry s).txt = s.txt ∧
    (State.rotationExpiry s).ret = s.ret ∧
    (State.rotationExpiry s).set = s.set ∧
    (State.rotationExpiry s).ctr = s.ctr ∧
    (State.rotationExpiry s).tab = s.tab ∧
    (State.rotationExpiry s).intake = s.intake ∧
    (State.rotationExpiry s).comp = s.comp ∧
    (State.rotationExpiry s).seq = s.seq ∧
    (State.rotationExpiry s).line = s.line ∧
    (State.rotationExpiry s).spell = s.spell ∧
    (State.rotationExpiry s).disp = s.disp := by
  unfold State.rotationExpiry
  (try dsimp only)
  (repeat' split) <;> first | rfl | done | simp_all

@[simp] theorem State.sealSucceeds_frame (s : State) (e : Seal) (check : Word) :
    (State.sealSucceeds s e check).pending = s.pending ∧
    (State.sealSucceeds s e check).resetHeld = s.resetHeld ∧
    (State.sealSucceeds s e check).coverOpen = s.coverOpen ∧
    (State.sealSucceeds s e check).free = s.free ∧
    (State.sealSucceeds s e check).rx = s.rx := by
  unfold State.sealSucceeds
  (try dsimp only)
  (repeat' split) <;> first | rfl | done | simp_all

@[simp] theorem State.sealDone_frame (s : State) :
    (State.sealDone s).pending = s.pending ∧
    (State.sealDone s).resetHeld = s.resetHeld ∧
    (State.sealDone s).coverOpen = s.coverOpen ∧
    (State.sealDone s).free = s.free ∧
    (State.sealDone s).rx = s.rx := by
  unfold State.sealDone
  (try dsimp only)
  (repeat' split) <;> first | rfl | done | simp_all

@[simp] theorem State.streamPlacement_frame (s : State) :
    (State.streamPlacement s).pending = s.pending ∧
    (State.streamPlacement s).resetHeld = s.resetHeld ∧
    (State.streamPlacement s).coverOpen = s.coverOpen ∧
    (State.streamPlacement s).free = s.free ∧
    (State.streamPlacement s).rx = s.rx ∧
    (State.streamPlacement s).keyq = s.keyq ∧
    (State.streamPlacement s).txt = s.txt ∧
    (State.streamPlacement s).set = s.set ∧
    (State.streamPlacement s).tab = s.tab ∧
    (State.streamPlacement s).intake = s.intake := by
  unfold State.streamPlacement
  (try dsimp only)
  (repeat' split) <;> first | rfl | done | simp_all

@[simp] theorem State.testResult_frame (s : State) (ch : Channel) (pass : Bool) :
    (State.testResult s ch pass).pending = s.pending ∧
    (State.testResult s ch pass).resetHeld = s.resetHeld ∧
    (State.testResult s ch pass).coverOpen = s.coverOpen ∧
    (State.testResult s ch pass).rx = s.rx ∧
    (State.testResult s ch pass).keyq = s.keyq ∧
    (State.testResult s ch pass).txt = s.txt ∧
    (State.testResult s ch pass).set = s.set ∧
    (State.testResult s ch pass).tab = s.tab ∧
    (State.testResult s ch pass).intake = s.intake ∧
    (State.testResult s ch pass).comp = s.comp ∧
    (State.testResult s ch pass).spell = s.spell ∧
    (State.testResult s ch pass).disp = s.disp := by
  unfold State.testResult
  (try dsimp only)
  (repeat' split) <;> first | rfl | done | simp_all

@[simp] theorem State.testComplete_frame (s : State) (pass : Bool) :
    (State.testComplete s pass).pending = s.pending ∧
    (State.testComplete s pass).resetHeld = s.resetHeld ∧
    (State.testComplete s pass).coverOpen = s.coverOpen ∧
    (State.testComplete s pass).rx = s.rx ∧
    (State.testComplete s pass).keyq = s.keyq ∧
    (State.testComplete s pass).txt = s.txt ∧
    (State.testComplete s pass).set = s.set ∧
    (State.testComplete s pass).tab = s.tab ∧
    (State.testComplete s pass).intake = s.intake := by
  unfold State.testComplete
  (try dsimp only)
  (repeat' split) <;> first | rfl | done | simp_all

@[simp] theorem State.textRow_frame (s : State) (accepts : Byte → Bool) :
    (State.textRow s accepts).pending = s.pending ∧
    (State.textRow s accepts).resetHeld = s.resetHeld ∧
    (State.textRow s accepts).coverOpen = s.coverOpen ∧
    (State.textRow s accepts).free = s.free ∧
    (State.textRow s accepts).rx = s.rx ∧
    (State.textRow s accepts).tab = s.tab := by
  unfold State.textRow
  (repeat' split) <;> first | rfl | done | simp_all

end Sys2Proof.Machine
end

