-- ==== Sys2Proof/Laws/Spelling.lean ====
section
/-! SUPPORT. What the checks, the check queue, the engine and the sweep leave of the Spelling Unit: the user words,
the next word number and the break marks, and every counter but CHECKS_DROPPED. -/

namespace Sys2Proof.Machine

@[simp] theorem Spelling.keepWords_frame (p : Spelling) (keep : SpellWord → Bool) :
    (p.keepWords keep).users = p.users ∧ (p.keepWords keep).nextWord = p.nextWord ∧
      (p.keepWords keep).marks = p.marks ∧ (p.keepWords keep).engine = p.engine := ⟨rfl, rfl, rfl, rfl⟩

@[simp] theorem Spelling.purge_frame (p : Spelling) :
    p.purge.users = p.users ∧ p.purge.nextWord = p.nextWord ∧ p.purge.marks = p.marks ∧ p.purge.engine = p.engine :=
  ⟨rfl, rfl, rfl, rfl⟩

@[simp] theorem State.setVerdict_lists (s : State) (n : Word) (v : Verdict) :
    (s.setVerdict n v).spell.users = s.spell.users ∧ (s.setVerdict n v).spell.nextWord = s.spell.nextWord ∧
      (s.setVerdict n v).spell.marks = s.spell.marks := ⟨rfl, rfl, rfl⟩

/-- A raised counter leaves the others. -/
theorem State.raise_get (s : State) {k j : Counter} (h : j ≠ k) (n : Nat) : (s.raise k n).ctr.get j = s.ctr.get j :=
  Counters.get_put_of_ne _ h _

@[simp] theorem State.dropOldest_lists (s : State) :
    s.dropOldest.spell.users = s.spell.users ∧ s.dropOldest.spell.nextWord = s.spell.nextWord ∧
      s.dropOldest.spell.marks = s.spell.marks := by
  unfold State.dropOldest
  (repeat' split) <;> simp [State.raise]

theorem State.dropOldest_get (s : State) {j : Counter} (h : j ≠ .checksDropped) :
    s.dropOldest.ctr.get j = s.ctr.get j := by
  unfold State.dropOldest
  (repeat' split) <;> first | rfl | (rw [State.raise_get _ h]; simp)

@[simp] theorem State.pumpEngine_lists (s : State) :
    s.pumpEngine.spell.users = s.spell.users ∧ s.pumpEngine.spell.nextWord = s.spell.nextWord ∧
      s.pumpEngine.spell.marks = s.spell.marks := by
  unfold State.pumpEngine
  split <;> simp

@[simp] theorem State.appendCheck_lists (s : State) (n : Word) :
    (s.appendCheck n).spell.users = s.spell.users ∧ (s.appendCheck n).spell.nextWord = s.spell.nextWord ∧
      (s.appendCheck n).spell.marks = s.spell.marks := by
  unfold State.appendCheck
  dsimp only
  split <;> simp

theorem State.appendCheck_get (s : State) (n : Word) {j : Counter} (h : j ≠ .checksDropped) :
    (s.appendCheck n).ctr.get j = s.ctr.get j := by
  unfold State.appendCheck
  dsimp only
  split <;> simp [State.dropOldest_get s h]

@[simp] theorem State.enterQueue_lists (s : State) (n : Word) :
    (s.enterQueue n).spell.users = s.spell.users ∧ (s.enterQueue n).spell.nextWord = s.spell.nextWord ∧
      (s.enterQueue n).spell.marks = s.spell.marks := by
  unfold State.enterQueue
  split <;> simp

theorem State.enterQueue_get (s : State) (n : Word) {j : Counter} (h : j ≠ .checksDropped) :
    (s.enterQueue n).ctr.get j = s.ctr.get j := by
  unfold State.enterQueue
  split <;> simp [State.appendCheck_get s n h]

/-- A word that has its entry in the check queue leaves the queue and the engine as they are (R117). -/
theorem State.enterQueue_of_queued {s : State} {n : Word} (h : s.spell.queued n = true) :
    (s.enterQueue n).spell.checkq = s.spell.checkq ∧ (s.enterQueue n).spell.engine = s.spell.engine := by
  simp [State.enterQueue, h]

@[simp] theorem State.checkWord_lists (s : State) (n : Word) :
    (s.checkWord n).spell.users = s.spell.users ∧ (s.checkWord n).spell.nextWord = s.spell.nextWord ∧
      (s.checkWord n).spell.marks = s.spell.marks := by
  unfold State.checkWord
  (repeat' split) <;> simp

theorem State.checkWord_get (s : State) (n : Word) {j : Counter} (h : j ≠ .checksDropped) :
    (s.checkWord n).ctr.get j = s.ctr.get j := by
  unfold State.checkWord
  (repeat' split) <;> simp [State.enterQueue_get _ n h]

@[simp] theorem State.runSweep_lists (k : Nat) (s : State) :
    (State.runSweep k s).spell.users = s.spell.users ∧ (State.runSweep k s).spell.nextWord = s.spell.nextWord ∧
      (State.runSweep k s).spell.marks = s.spell.marks := by
  induction k generalizing s with
  | zero => simp [State.runSweep]
  | succ k ih =>
    unfold State.runSweep
    dsimp only
    (repeat' split) <;> simp [ih]

theorem State.runSweep_get (k : Nat) (s : State) {j : Counter} (h : j ≠ .checksDropped) :
    (State.runSweep k s).ctr.get j = s.ctr.get j := by
  induction k generalizing s with
  | zero => simp [State.runSweep]
  | succ k ih =>
    unfold State.runSweep
    dsimp only
    (repeat' split) <;> simp [ih, State.checkWord_get _ _ h]

@[simp] theorem State.spellOn_lists (s : State) :
    s.spellOn.spell.users = s.spell.users ∧ s.spellOn.spell.nextWord = s.spell.nextWord ∧
      s.spellOn.spell.marks = s.spell.marks := by
  simp [State.spellOn]

theorem State.spellOn_get (s : State) {j : Counter} (h : j ≠ .checksDropped) :
    s.spellOn.ctr.get j = s.ctr.get j := by
  simp [State.spellOn, State.runSweep_get _ _ h]

theorem State.foldl_checkWord_get (l : List Word) (s : State) {j : Counter} (h : j ≠ .checksDropped) :
    (l.foldl State.checkWord s).ctr.get j = s.ctr.get j := by
  induction l generalizing s with
  | nil => rfl
  | cons a l ih => rw [List.foldl_cons, ih, State.checkWord_get _ _ h]

/-- A new segmentation raises no counter but CHECKS_DROPPED. -/
theorem State.respell_get (s : State) {j : Counter} (h : j ≠ .checksDropped) : s.respell.ctr.get j = s.ctr.get j := by
  unfold State.respell
  dsimp only
  rw [State.spellOn_get _ h, State.foldl_checkWord_get _ _ h]
  simp

/-! ### What a new segmentation leaves of the text (R111, R112) -/

@[simp] theorem plain_length (l : List Entry) : (plain l).length = l.length := by simp [plain]

/-- Setting the references changes no more of the entries and records than those. -/
theorem State.setRefs_text (s : State) (refs : List (Word × List Nat)) :
    plain (s.setRefs refs).line.entries = plain s.line.entries ∧
      plainRecs (s.setRefs refs).comp.recs = plainRecs s.comp.recs ∧
      (s.setRefs refs).line = { s.line with entries := (s.setRefs refs).line.entries } ∧
      (s.setRefs refs).comp = { s.comp with recs := (s.setRefs refs).comp.recs } := by
  unfold State.setRefs
  split
  · refine ⟨rfl, ?_, rfl, rfl⟩
    simp only [plainRecs, List.map_map]
    apply List.ext_getElem
    · simp
    · intro i h1 h2; simp
  · refine ⟨?_, rfl, rfl, rfl⟩
    simp [plain, List.map_map, Function.comp_def]

/-- In DIRECT the composition keeps its references, in LINE the line record does. -/
theorem State.setRefs_other (s : State) (refs : List (Word × List Nat)) :
    (s.comp.modeInEffect = .direct → (s.setRefs refs).comp = s.comp) ∧
      (s.comp.modeInEffect = .line → (s.setRefs refs).line = s.line) := by
  unfold State.setRefs
  constructor <;> intro h <;> rw [h]

@[simp] theorem State.foldl_checkWord_text (l : List Word) (s : State) :
    (l.foldl State.checkWord s).line = s.line ∧ (l.foldl State.checkWord s).comp = s.comp := by
  induction l generalizing s with
  | nil => simp
  | cons a l ih => simp [ih]

/-- A new segmentation changes no more of the text than the word references. -/
theorem State.respell_text (s : State) :
    plain s.respell.line.entries = plain s.line.entries ∧
      plainRecs s.respell.comp.recs = plainRecs s.comp.recs ∧
      s.respell.line = { s.line with entries := s.respell.line.entries } ∧
      s.respell.comp = { s.comp with recs := s.respell.comp.recs } := by
  unfold State.respell
  dsimp only
  simp only [State.spellOn_frame, State.foldl_checkWord_text]
  exact State.setRefs_text { s with spell := _ } _

/-- In DIRECT a new segmentation leaves the Composer, in LINE the line record. -/
theorem State.respell_other (s : State) :
    (s.comp.modeInEffect = .direct → s.respell.comp = s.comp) ∧
      (s.comp.modeInEffect = .line → s.respell.line = s.line) := by
  unfold State.respell
  dsimp only
  simp only [State.spellOn_frame, State.foldl_checkWord_text]
  generalize (s.segments.foldl matchSegment _) = m
  exact State.setRefs_other { s with spell := m.spell.keepWords _ } m.refs

end Sys2Proof.Machine
end

