-- ==== Sys2Proof/Tests/Slice0.lean ====
section
/-! SUPPORT. Tests of the model: the well-formedness smoke test, small tests of one step each with results worked
out by hand from the manual, and for each statement with hypotheses a witness that meets them. -/

namespace Sys2Proof.Tests

-- One theorem at a time: each holds a thread with a large stack while the kernel evaluates it.
set_option Elab.async false

open Machine

/-! ### Ill-formed commands are refused -/

/-- 53 feed bytes: one more than the longest block (R168). -/
def longFeed : List FeedByte := List.replicate 53 ⟨0, false⟩

/-- 48 parameter bytes: one more than can follow a command code (R168). -/
def longParams : List Byte := List.replicate 48 0

theorem test_long_feed_is_ill_formed :
    (Instr.huntCandidateBlock longFeed).wellFormed = false ∧ (Instr.confirmBlock longFeed true).wellFormed = false ∧
      (Instr.confirmStrayByte longFeed).wellFormed = false ∧ (Instr.lockedStrayByte longFeed).wellFormed = false ∧
      (Instr.badBlock longFeed).wellFormed = false ∧ (Instr.keyBlock longFeed).wellFormed = false ∧
      (Instr.textBlock longFeed).wellFormed = false ∧ (Instr.controlBlock longFeed true).wellFormed = false ∧
      (Instr.unknownKindBlock longFeed).wellFormed = false := by decide

theorem test_long_params_are_ill_formed :
    (Instr.set longParams).wellFormed = false ∧ (Instr.tableOpen longParams).wellFormed = false ∧
      (Instr.tableWrite longParams).wellFormed = false ∧ (Instr.tableSeal longParams).wellFormed = false ∧
      (Instr.tableDrop longParams).wellFormed = false ∧ (Instr.tabAdd longParams).wellFormed = false ∧
      (Instr.tabRemove longParams).wellFormed = false ∧ (Instr.userWordAdd longParams).wellFormed = false ∧
      (Instr.userWordRemove longParams).wellFormed = false := by decide

/-! ### Small states -/

/-- The state that a command leaves, if it leaves one. -/
def run (i : Instr) (s : State) : Option State :=
  match exec i s with
  | .next t => some t
  | _ => none

/-- A command answers a next state. -/
theorem next_of_run {i : Instr} {s : State} (h : (run i s).isSome = true) : ∃ t, exec i s = .next t := by
  unfold run at h
  split at h
  · exact ⟨_, ‹_›⟩
  · simp at h

/-- Bytes of table memory at an address, those that are not 0. -/
def at' (a : Nat) (l : List Byte) : Memory := l.zipIdx.filterMap (fun (b, i) => if b = 0 then none else some (a + i, b))

/-- A wheel map for wheel 17 in segments 0 to 57, a key map in segments 58 to 93 and a lexicon in 94 to 119, laid out as
section 12.7 says: the wheel has a space, an underscore (petal 95, class 3, advance 10), 'a' (petal 1, class 3,
advance 10) and a dead accent 0xB4 (petal 94, class 1); key 1 is SHIFT, 2 CODE, 3 SHIFT_LOCK, 5 RETURN with repeat,
36 'a' and in SHIFT 'A' with repeat, 62 the accent; the lexicon knows "ab". -/
def tables : Memory :=
  at' 0 [17, 0x5F, 10] ++ at' 32 [1, 0, 1, 10] ++ at' 284 [1, 95, 3, 10] ++ at' 292 [1, 1, 3, 10]
    ++ at' 624 [0x81, 94, 1, 4]
    ++ at' 930 [3, 1, 3, 2, 3, 3] ++ at' 938 [0x43, 5] ++ at' 1000 [0x41, 0x61] ++ at' 1052 [2, 0xB4]
    ++ at' 1192 [0x41, 0x41]
    ++ at' 1585 [1, 2] ++ at' 1744 [1, 0x90, 0, 1] ++ at' 1904 [0, 2, 1, 2]

def wheelSlot : Slot := ⟨.sealed, .wheelMap, 17, 0, 58, [], false, 0⟩
def keySlot : Slot := ⟨.sealed, .keyMap, 0, 58, 36, [], false, 0⟩
def lexSlot : Slot := ⟨.sealed, .lexicon, 0, 94, 26, [], false, 0⟩

/-- The part ready to type in DIRECT from LOCAL keys, at the left margin 120: homing is over on wheel 17, the mechanism
is IDLE with the carriage there, and a wheel map and a key map are active. -/
def idle : State :=
  { State.reset with
    ret := .powerOn
    tab := { State.reset.tab with mem := tables, slots := [wheelSlot, keySlot] ++ List.replicate 10 Slot.emptySlot }
    seq := { Sequencer.held with
      state := .idle, carriage := some 120, petal := some 0, lift := some .rest, wheelCode := 17 } }

/-- A key action offered to the Composer, with key 36 held. -/
def withKey (s : State) (a : KeyAction) : State :=
  { s with keyq := ⟨[36], false⟩, intake := ⟨[(36, .none)], false, some ⟨36, a, false⟩, none, none⟩ }

/-- REMOTE text waiting in the queue (R23, R174). -/
def remote (s : State) (codes : List Byte) : State :=
  { s with comp := { s.comp with source := .remoteText }, txt := ⟨codes, 0, 96 - codes.length, false⟩ }

/-- The Composer in LINE with some records and a cursor (R39). -/
def inLine (s : State) (recs : List CompRec) (cursor : Nat) : State :=
  { s with comp := { s.comp with mode := .line, recs := recs, cursor := cursor } }

/-- A CHAR record and a SPACE record, 12 units wide, and a TAB record. -/
def charRec (code : Byte) : CompRec := ⟨code, .char, false, false, 12, none⟩
def spaceRec : CompRec := ⟨0x20, .space, false, false, 12, none⟩
def tabRec : CompRec := ⟨0x09, .tab, false, false, 0, none⟩

/-- Orders that fill `n` places of the print queue. -/
def loaded (s : State) (n : Nat) : State :=
  { s with seq := { s.seq with queue := List.replicate n .indexPage, state := .paused } }

theorem test_tables_are_canonical : tables.wf = true := by decide +kernel

/-! ### One step of each command, with the result worked out from the manual -/

/-- The feed bytes of START, HEAD 0x10, LEN 1, key 36 and CHECK 0x10 ^ 0x01 ^ 0x24 = 0x35 (R168). -/
def keyFeed : List FeedByte := [⟨0xD4, false⟩, ⟨0x10, false⟩, ⟨0x01, false⟩, ⟨0x24, false⟩, ⟨0x35, false⟩]

def locked (s : State) : State := { s with rx := ⟨.locked, [], []⟩ }

def tell (s : State) : List Event := s.ret.reports.filterMap (fun r => match r with | .event e _ => some e | _ => none)

def gives {α : Type} [DecidableEq α] (i : Instr) (s : State) (f : State → α) (a : α) : Bool := (run i s).map f = some a

theorem test_reset_rows :
    gives .resetAsserted idle (fun t => (t.resetHeld, t.seq.state, t.tab.slots.length, t.disp.current)) (true, .unhomed, 12, none) ∧
      gives .resetReleased (State.held [] false 0) id State.reset := by decide +kernel

theorem test_hunt_and_confirm :
    gives (.huntCandidateBlock keyFeed) State.reset (fun t => (t.rx.sync, t.ctr.huntDiscards, t.keyq.queue)) (.confirm, 1, []) ∧
      gives (.confirmBlock keyFeed true) { State.reset with rx := ⟨.confirm, [], []⟩ }
        (fun t => (t.rx.sync, t.keyq.queue, t.rx.window)) (.locked, [36], []) := by decide +kernel

theorem test_stray_bytes :
    gives (.confirmStrayByte [⟨0x00, false⟩]) { State.reset with rx := ⟨.confirm, [], []⟩ } (fun t => t.rx.sync) .hunt ∧
      gives (.lockedStrayByte [⟨0xFF, false⟩, ⟨0x00, false⟩]) (locked idle)
        (fun t => (t.rx.sync, t.ctr.syncLosses, tell t)) (.hunt, 1, [.linkLost]) := by decide +kernel

theorem test_blocks_in_locked :
    gives (.badBlock [⟨0xD4, false⟩, ⟨0x10, false⟩, ⟨0x00, false⟩, ⟨0x11, false⟩]) (locked idle)
        (fun t => (t.rx.sync, t.ctr.badBlocks, t.rx.window)) (.locked, 1, [true]) ∧
      gives (.keyBlock keyFeed) (locked idle) (fun t => (t.keyq.queue, t.rx.window)) ([36], [false]) ∧
      gives (.textBlock [⟨0xD4, false⟩, ⟨0x20, false⟩, ⟨0x02, false⟩, ⟨0x61, false⟩, ⟨0x62, false⟩, ⟨0x21, false⟩])
        { locked idle with txt := ⟨[], 1, 95, false⟩ }
        (fun t => (t.txt.queue, t.txt.balance, t.ctr.textOverruns, tell t)) ([0x61], 0, 1, [.textOverrun 1]) ∧
      gives (.unknownKindBlock [⟨0xD4, false⟩, ⟨0x40, false⟩, ⟨0x00, false⟩, ⟨0x40, false⟩]) (locked idle)
        (fun t => t.ctr.unknownKinds) 1 := by decide +kernel

/-- A CONTROL block that carries PAUSE (0x0C): CHECK 0x30 ^ 0x01 ^ 0x0C = 0x3D. -/
theorem test_control_block :
    gives (.controlBlock [⟨0xD4, false⟩, ⟨0x30, false⟩, ⟨0x01, false⟩, ⟨0x0C, false⟩, ⟨0x3D, false⟩] true) (locked idle)
      (fun t => (t.seq.state, t.ret.reports))
      (.paused, [.event (.mechState .paused .command) false, .answer 0x0C .done []]) := by decide +kernel

theorem test_set_clamps_and_waits :
    gives (.set [3, 0, 9]) idle (fun t => (t.set.lineSpacing, t.ret.reports))
        (4, [.answer 0x01 .doneClamped [0, 4, 0]]) ∧
      gives (.set [2, 0, 1]) { idle with line := { idle.line with entries := [⟨0, 0x61, .char, 108, 12, [], 0, false, none⟩] } }
        (fun t => (t.comp.pitch, t.comp.later.pitch, t.ret.reports)) (.p10, some .p12, [.answer 0x01 .donePending [0, 1, 1]]) := by
  decide +kernel

/-- STATUS is 21 bytes long and begins with source, mode, mechanism state (3, IDLE) and reason (section 12.4). -/
theorem test_queries :
    gives .queryStatus idle
        (fun t => t.ret.reports.map (fun r => match r with | .answer _ o d => (o, d.length, d.take 4) | _ => (.busy, 0, [])))
        [(.done, 21, [0, 0, 3, 0])] ∧
      gives (.queryCounters 1) { idle with ctr := { Counters.zero with badBlocks := 0x0102 } }
        (fun t => t.ret.reports.map (fun r => match r with | .answer _ o d => (o, d.length) | _ => (.busy, 0)))
        [(.done, 21)] ∧
      gives (.queryDirectory 12) idle (fun t => t.ret.reports) [.answer 0x02 .badIndex []] ∧
      gives (.queryLine 0) idle (fun t => t.ret.reports) [.answer 0x02 .done [0, 0, 0]] ∧
      gives (.queryWords 0) idle (fun t => t.ret.reports) [.answer 0x02 .done [0]] ∧
      gives (.queryUserWord 0) { idle with spell := { idle.spell with users := [[1, 2]] } } (fun t => t.ret.reports)
        [.answer 0x02 .done [2, 1, 2]] := by decide +kernel

theorem test_table_rows :
    gives (.tableOpen [2, 0, 5, 0, 58]) idle (fun t => (slotAt t.tab.slots 2).first) 94 ∧
      gives (.tableWrite (0 :: 0 :: 1 :: List.replicate 16 0xAA))
        { idle with tab := ⟨[], [⟨.opened, .keyMap, 1, 3, 2, [false, false], false, 0⟩], none⟩ }
        (fun t => (t.tab.mem.read 63, t.tab.mem.read 64, t.tab.mem.read 79, t.tab.mem.read 80, t.ret.reports))
        (0, 0xAA, 0xAA, 0, [.answer 0x04 .done [0, 1]]) ∧
      gives (.tableSeal [0, 0x12, 0x34, 0])
        { idle with tab := ⟨[], [⟨.opened, .keyMap, 1, 3, 2, [true, true], false, 0⟩], none⟩ }
        (fun t => (t.tab.sealing, t.ret.reserved)) (some ⟨0, 0x1234, false, 32, 0, 0⟩, 1) ∧
      gives .sealComplete
        { idle with
          tab := ⟨[], [⟨.opened, .keyMap, 1, 3, 2, [true, true], false, 0⟩], some ⟨0, 0x1234, false, 32, 0, 0⟩⟩
          ret := { idle.ret with reserved := 1 } }
        (fun t => (t.tab.sealing, (slotAt t.tab.slots 0).state, t.ret.reports.length, t.ret.reserved)) (none, .opened, 1, 0) ∧
      gives (.tableDrop [1]) idle (fun t => (t.active .keyMap, t.ret.reports)) (none, [.answer 0x06 .done [2]]) := by
  decide +kernel

theorem test_list_rows :
    gives (.tabAdd [0, 200, 0]) idle (fun t => t.comp.tabs) [⟨200, false⟩] ∧
      gives (.tabRemove [0, 200]) idle (fun t => t.ret.reports) [.answer 0x08 .notFound []] ∧
      gives .tabsClear { idle with comp := { idle.comp with tabs := [⟨200, false⟩] } } (fun t => t.comp.tabs) [] ∧
      gives (.userWordAdd [1, 2]) idle (fun t => t.spell.users) [[1, 2]] ∧
      gives (.userWordRemove [1, 2]) { idle with spell := { idle.spell with users := [[1, 2], [3, 4]] } }
        (fun t => t.spell.users) [[3, 4]] := by decide +kernel

theorem test_pause_and_resume :
    gives .pause idle (fun t => (t.seq.state, t.seq.reason)) (.paused, .command) ∧
      gives (.resume false) { idle with seq := { idle.seq with state := .paused, reason := .paper } }
        (fun t => (t.seq.state, t.ret.reports)) (.paused, [.answer 0x0D .inconsistent []]) ∧
      gives (.pauseKey true) (withKey { idle with seq := { idle.seq with state := .paused, reason := .key } } (.func .pause))
        (fun t => t.seq.state) .idle := by decide +kernel

theorem test_fault_and_credit_rows :
    gives .ackFault { idle with
        drv := { idle.drv with faults := [⟨.openLoad, .lift, 1, false⟩, ⟨.openLoad, .wheel, 2, true⟩] } }
        (fun t => (t.drv.faults.length, t.ret.reports))
        (1, [.event (.faultCleared .openLoad .lift) false, .answer 0x0E .notHalted [1]]) ∧
      gives .queryFaults idle (fun t => t.ret.reports.length) 1 ∧
      gives .creditRestate { idle with txt := ⟨[0x61], 90, 5, false⟩ }
        (fun t => (t.txt.balance, t.txt.unsent, t.txt.restate)) (0, 95, true) ∧
      gives .clearCounters { idle with ctr := { Counters.zero with strikes := 9 } } (fun t => t.ctr) .zero := by decide +kernel

theorem test_restarts :
    gives .restartLink (locked idle) (fun t => (t.rx.sync, t.ret.reports))
        (.hunt, [.answer 0x11 .done [], .event .linkLost false]) ∧
      gives .restartText (remote idle [0x61]) (fun t => (t.txt.queue, t.txt.unsent)) ([], 96) ∧
      gives .restartMech (loaded idle 3) (fun t => (t.seq.queue, t.seq.state)) ([], .homing) ∧
      gives .restartTables idle (fun t => (t.active .wheelMap, t.tab.mem.read 0)) (none, 17) ∧
      gives .restartCounters { idle with ctr := { Counters.zero with lines := 9 } } (fun t => t.ctr.lines) 0 ∧
      gives .restartAll { idle with seq := { idle.seq with heat := 7 } } (fun t => (t.seq.state, t.seq.heat, t.active .keyMap))
        (.homing, 7, none) := by decide +kernel

/-- Key 1 is SHIFT in the NORMAL layer, so key 36 pressed after it is 'A' (R15). -/
theorem test_key_press_and_release :
    gives .keyPress { idle with keyq := ⟨[36], false⟩, intake := { idle.intake with held := [(1, .func .shift false)] } }
        (fun t => (t.selected, t.keyq.queue)) (some (.char 0x41), [36]) ∧
      gives .keyRelease { idle with
          keyq := ⟨[0x81, 36], false⟩, intake := { idle.intake with held := [(1, .func .shift false)] } }
        (fun t => (t.intake.held, t.keyq.queue)) ([], [36]) := by decide +kernel

theorem test_typematic :
    gives .typematicCountdownExpiry { idle with intake := { idle.intake with timer := some ⟨36, .char 0x61, false⟩ } }
        (fun t => (t.selected, t.intake.timer)) (some (.char 0x61), some ⟨36, .char 0x61, true⟩) ∧
      gives .typematicPeriodicExpiry { idle with intake := { idle.intake with timer := some ⟨36, .char 0x61, false⟩ } }
        (fun t => t.selected) none := by decide +kernel

/-- 'a' at 120 with P10 is a STRIKE at 120, and the position goes on by 12 (R29, R48). -/
theorem test_character_and_space :
    gives .characterKeyAction (withKey idle (.char 0x61))
        (fun t => (t.comp.logical, t.seq.queue, t.seq.state)) (132, [.strike 0x61 120 .base (some 0) 0], .running) ∧
      gives .space (withKey idle (.func .space)) (fun t => (t.comp.logical, t.seq.queue, t.line.entries.length)) (132, [], 1) := by
  decide +kernel

/-- A dead accent is struck and does not advance (R30). -/
theorem test_dead_key :
    gives .deadKeyAction (withKey idle (.dead 0xB4))
      (fun t => (t.comp.logical, t.seq.queue)) (120, [.strike 0xB4 120 .base (some 0) 0]) := by decide +kernel

theorem test_line_ends :
    gives .returnKey (withKey idle (.func .returnKey)) (fun t => (t.seq.queue, t.ctr.lines)) ([.index 2], 1) ∧
      gives .paperUp (withKey idle (.func .paperUp)) (fun t => t.seq.queue) [.index 2] ∧
      gives .paperDown (withKey idle (.func .paperDown)) (fun t => t.seq.queue) [.index (-2)] ∧
      gives .halfUp (withKey idle (.func .halfUp)) (fun t => t.seq.queue) [.index 1] ∧
      gives .halfDown (withKey idle (.func .halfDown)) (fun t => t.seq.queue) [.index (-1)] := by decide +kernel

theorem test_position_keys :
    gives .backspace (withKey idle (.func .backspace)) (fun t => t.comp.logical) 108 ∧
      gives .tab (withKey { idle with comp := { idle.comp with tabs := [⟨120, false⟩, ⟨200, false⟩] } } (.func .tab))
        (fun t => t.comp.logical) 200 ∧
      gives .marginRelease (withKey idle (.func .marginRelease)) (fun t => t.comp.flags.marginReleased) true := by
  decide +kernel

theorem test_line_setting_keys :
    gives .marginLeft (withKey { idle with comp := { idle.comp with logical := 240 } } (.func .marginLeft))
        (fun t => (t.comp.left, t.comp.later.left)) (240, none) ∧
      gives .marginRight (withKey { idle with comp := { idle.comp with logical := 200 } } (.func .marginRight))
        (fun t => (t.comp.right, t.disp.beeper)) (1080, some ⟨.refused, 0, false⟩) ∧
      gives .pitchCycle (withKey idle (.func .pitchCycle)) (fun t => t.comp.pitch) .p12 ∧
      gives .modeToggle (withKey idle (.func .modeToggle)) (fun t => t.comp.mode) .line ∧
      gives .sourceToggle (withKey idle (.func .sourceToggle)) (fun t => t.comp.source) .remoteText := by decide +kernel

theorem test_tab_keys :
    gives .tabSet (withKey idle (.func .tabSet)) (fun t => t.comp.tabs) [⟨120, false⟩] ∧
      gives .decimalTabSet (withKey idle (.func .decimalTabSet)) (fun t => t.comp.tabs) [⟨120, true⟩] ∧
      gives .tabClear (withKey idle (.func .tabClear)) (fun t => t.disp.beeper) (some ⟨.refused, 0, false⟩) := by decide +kernel

theorem test_toggles :
    gives .justifyCycle (withKey (inLine idle [] 0) (.func .justifyCycle)) (fun t => t.comp.choice) .justify ∧
      gives .spellToggle (withKey idle (.func .spellToggle)) (fun t => t.set.spell) true ∧
      gives .boldToggle (withKey idle (.func .boldToggle)) (fun t => t.comp.bold) true ∧
      gives .underlineToggle (withKey idle (.func .underlineToggle)) (fun t => t.comp.underline) true := by decide +kernel

/-- An entry of the line record for 'a' at 120 with its one strike. -/
def entryA (status : StrikeStatus) : Entry := ⟨0, 0x61, .char, 120, 12, [⟨0, .base, 120, status⟩], 0, false, none⟩

/-- One 'a' typed at 120, its strike as given. -/
def typed (s : State) (status : StrikeStatus) : State :=
  { s with
    line := { s.line with entries := [entryA status], nextSeq := 1 }
    comp := { s.comp with logical := 132 }
    seq := { s.seq with nextStrike := 1 } }

/-- A printed 'a' of petal 1 at level 6 is taken back by a LIFT at level 6 + 2 (R98); RELOCATE goes to 132 (R105). -/
theorem test_corrections :
    gives .correct (withKey (typed idle (.printed 1 17 6)) (.func .correct))
        (fun t => (t.comp.logical, t.seq.queue)) (120, [.lift 1 17 120 8 (some 0)]) ∧
      gives .wordCorrect (withKey (typed idle (.printed 1 16 6)) (.func .wordCorrect))
        (fun t => (t.comp.logical, tell t)) (132, [.correctRefused .wrongWheel]) ∧
      gives .lineCorrect (withKey idle (.func .lineCorrect)) (fun t => tell t) [.correctRefused .nothing] ∧
      gives .relocate (withKey (typed idle (.printed 1 17 6)) (.func .relocate))
        (fun t => (t.comp.logical, t.seq.queue)) (132, [.move 132]) := by decide +kernel

theorem test_cursor_keys :
    gives .cursorLeft (withKey (inLine idle [charRec 0x61] 1) (.func .cursorLeft)) (fun t => t.comp.cursor) 0 ∧
      gives .cursorRight (withKey (inLine idle [charRec 0x61] 0) (.func .cursorRight)) (fun t => t.comp.cursor) 1 := by
  decide +kernel

/-- The word "ab" typed and complete in the word table. -/
def word (v : Verdict) : SpellWord := ⟨0, 0, 0, [1, 2], 2, false, v, 0, true, false⟩

def withWord (s : State) (v : Verdict) : State :=
  { s with
    spell := { s.spell with words := [word v], nextWord := 1 }
    line := { s.line with entries := [{ entryA .waiting with word := some 0 }], nextSeq := 1 } }

/-- A word that an earlier release request completed is carried by a word wrap (R114): complete no more, its verdict and
its generation stand. -/
theorem test_carried_word :
    let s := { withWord idle .miss with spell := { (withWord idle .miss).spell with requested := some 0 } }
    ((s.retireWords (fun _ => false)).spell.words, (s.retireWords (fun _ => false)).spell.requested) =
      ([{ word .miss with complete := false }], none) := by decide +kernel

/-- A PENDING word that is completed and checked again keeps its one entry in the check queue (R117). -/
theorem test_one_entry_in_the_check_queue :
    let s := { withWord idle .pending with
      set := { idle.set with spell := true }
      tab := { idle.tab with slots := [wheelSlot, keySlot, lexSlot] ++ List.replicate 9 Slot.emptySlot }
      spell := { (withWord idle .pending).spell with
        words := [{ word .pending with complete := false }], checkq := [(0, 0)], engine := some ⟨9, 0, [1], .atEnd, 4⟩ } }
    ((s.completeWords (fun _ => true)).spell.checkq, (s.completeWords (fun _ => true)).spell.words) =
      ([(0, 0)], [word .pending]) := by decide +kernel

/-- A word enters the check queue while a lookup of it runs on, as its entry has left the queue (R116, R117); a MISS word
that USER_WORD_ADD makes USER keeps its entry, a PENDING one does not (R117, R126). -/
theorem test_entries_of_the_check_queue :
    let s (v : Verdict) (q : List (Word × Byte)) : State := { withWord idle v with
      set := { idle.set with spell := true }
      spell := { (withWord idle v).spell with checkq := q, engine := some ⟨0, 0, [1, 2], .atEnd, 4⟩ } }
    (((s .pending []).enterQueue 0).spell.checkq, ((s .miss [(0, 0)]).addUserWord [1, 2]).spell.checkq,
      ((s .pending [(0, 0)]).addUserWord [1, 2]).spell.checkq, ((s .known []).addUserWord [1, 2]).spell.words) =
      ([(0, 0)], [(0, 0)], [], [word .known]) := by decide +kernel

theorem test_word_keys :
    gives .acceptWord (withKey (withWord idle .miss) (.func .acceptWord)) (fun t => t.spell.words.map SpellWord.verdict)
        [.accepted] ∧
      gives .addWord (withKey (withWord idle .miss) (.func .addWord)) (fun t => t.spell.users) [[1, 2]] := by decide +kernel

theorem test_remote_codes :
    gives .remotePrintableChar (remote idle [0x61]) (fun t => (t.comp.logical, t.txt.unsent)) (132, 96) ∧
      gives .remoteCr (remote idle [0x0D]) (fun t => (t.seq.queue, t.ctr.lines)) ([], 1) ∧
      gives .remoteLf (remote idle [0x0A]) (fun t => (t.seq.queue, t.ctr.lines)) ([.index 2], 0) ∧
      gives .remoteFf (remote idle [0x0C]) (fun t => t.seq.queue) [.indexPage] ∧
      gives .remoteBs (remote idle [0x08]) (fun t => t.comp.logical) 108 ∧
      gives .remoteHt (remote idle [0x09]) (fun t => t.ctr.unmappedControls) 1 ∧
      gives .unmappedControl (remote idle [0x07]) (fun t => (t.txt.queue, t.ctr.unmappedControls)) ([], 1) := by decide +kernel

theorem test_outgoing_line :
    gives .outgoingPlacementAppended
        { idle with comp := { idle.comp with outgoing := some ⟨[⟨.char, 0x61, 120, 12, [⟨.base, 0x61, 120⟩]⟩], 120, 2⟩ } }
        (fun t => (t.seq.queue, t.comp.outgoing)) ([.strike 0x61 120 .base none 0], some ⟨[], 120, 2⟩) ∧
      gives .outgoingLineEnd { idle with comp := { idle.comp with outgoing := some ⟨[], 240, 3⟩ } }
        (fun t => (t.seq.queue, t.comp.outgoing)) ([.move 240, .index 3], none) := by decide +kernel

/-- RUNNING with an order in flight. -/
def running (s : State) (o : Order) (f : Flight) : State :=
  { s with seq := { s.seq with state := .running, queue := [o], flight := some f } }

theorem test_strike_phases :
    gives .positionComplete (running idle (.strike 0x61 240 .base none 0) (.position 1 6 100))
        (fun t => (t.seq.flight, t.seq.heat, t.seq.carriage)) (some (.pulse 1 6 350), 6, some 240) ∧
      gives .heatDecayTick { idle with seq := { idle.seq with heat := 0 } } (fun t => t.seq.heat) 0 ∧
      gives .hammerPulseComplete (running idle (.strike 0x61 240 .base none 0) (.pulse 1 6 350))
        (fun t => (t.seq.flight, t.ctr.strikes)) (some (.recover 1 6 3000), 1) ∧
      gives .recoverComplete (running (typed idle .inFlight) (.strike 0x61 120 .base (some 0) 0) (.recover 1 6 3000))
        (fun t => (t.seq.state, t.line.entries)) (.idle, [entryA (.printed 1 17 6)]) := by decide +kernel

theorem test_moves_and_indexes :
    gives .moveComplete (running idle (.move 240) (.moving 1)) (fun t => (t.seq.carriage, t.seq.state)) (some 240, .idle) ∧
      gives (.indexComplete true) (running idle (.index (-1)) (.indexing 1 9000)) (fun t => t.seq.paperPos) 131 ∧
      gives (.indexComplete false) (running idle (.index 2) (.indexing 2 13000))
        (fun t => (t.seq.paperPos, t.seq.state, t.seq.reason)) (2, .paused, .paper) := by decide +kernel

theorem test_lift_motion :
    gives .liftMotionComplete { idle with seq := { idle.seq with lift := some .ribbon, liftTarget := some .rest } }
        (fun t => (t.seq.lift, t.seq.liftTarget)) (some .rest, none) ∧
      gives .liftRestTimerExpiry { idle with seq := { idle.seq with lift := some .ribbon } }
        (fun t => (t.seq.lift, t.seq.liftTarget)) (some .ribbon, some .rest) := by decide +kernel

theorem test_cover :
    gives .coverOpen idle (fun t => (t.seq.state, t.coverOpen)) (.coverOpen, true) ∧
      gives .coverClose { idle with coverOpen := true, seq := { idle.seq with state := .coverOpen } }
        (fun t => (t.seq.state, t.seq.homing, t.coverOpen)) (.homing, some .home, false) := by decide +kernel

/-- HOMING at one of its steps. -/
def homingAt (h : Homing) : State := { idle with seq := { idle.seq with state := .homing, homing := some h } }

theorem test_homing_steps :
    gives .homeSensorSeen (homingAt .home) (fun t => (t.seq.carriage, t.seq.homing)) (some 0, some (.ret 120)) ∧
      gives .homingReturnComplete (homingAt (.ret 120)) (fun t => (t.seq.carriage, t.seq.homing)) (some 120, some .index) ∧
      gives .indexMarkSeen (homingAt .index) (fun t => t.seq.homing) (some (.ident [])) ∧
      gives (.identificationRead 17) (homingAt (.ident [17])) (fun t => (t.seq.wheelCode, t.seq.homing))
        (17, some (.test .carriage)) ∧
      gives (.identificationRead 5) (homingAt (.ident [1, 2, 3])) (fun t => (t.seq.wheelCode, t.seq.homing))
        (0, some (.test .carriage)) := by decide +kernel

theorem test_homing_faults :
    gives .homeNotFound (homingAt .home) (fun t => (t.seq.state, t.seq.reason)) (.halted, .fault .homeNotFound) ∧
      gives .wheelIndexLost (homingAt .index) (fun t => (t.seq.state, t.drv.faults))
        (.halted, [⟨.wheelIndexLost, .wheel, 1, true⟩]) := by decide +kernel

theorem test_drive_stages :
    gives (.offStateTestComplete true) (homingAt (.test .paper)) (fun t => (t.seq.state, t.drv.results.paper))
        (.idle, .pass) ∧
      gives .rotationTimerExpiry idle (fun t => t.drv.rotTest) (some .running) ∧
      gives (.overcurrent .carriage) (running idle (.move 240) (.moving 1))
        (fun t => (t.seq.state, t.seq.reason, t.drv.faults)) (.halted, .fault .overcurrent, [⟨.overcurrent, .carriage, 1, true⟩]) := by
  decide +kernel

/-- A lexicon in the directory beside the two maps, and the word "ab" being looked up. -/
def looking (letters : List Nat) : State :=
  { withWord idle .pending with
    tab := { idle.tab with slots := [wheelSlot, keySlot, lexSlot] ++ List.replicate 9 Slot.emptySlot }
    spell := { idle.spell with
      words := [{ word .pending with letters := letters }], nextWord := 1, engine := some ⟨0, 0, letters, bucketStart tables 1504 letters, 100⟩ } }

theorem test_lookup :
    gives .lookupComplete (looking [1, 2]) (fun t => (t.spell.words.map SpellWord.verdict, t.ctr.checks, t.ctr.misses))
        ([.known], 1, 0) ∧
      gives .lookupComplete (looking [1, 1]) (fun t => (t.spell.words.map SpellWord.verdict, tell t, t.disp.beeper))
        ([.miss], [.spellMiss 0 [1, 1]], some ⟨.miss, 0, false⟩) := by decide +kernel

theorem test_return_line_and_beeper :
    gives .returnBlockSent idle (fun t => t.ret.sending) (some (.credit 96 true)) ∧
      gives .beeperIntervalExpiry { idle with disp := { idle.disp with beeper := some ⟨.miss, 0, false⟩ } }
        (fun t => (t.disp.beeper, t.disp.tone)) (some ⟨.miss, 1, false⟩, false) := by decide +kernel

/-- The first expiry after a cut-off has no effect or begins the silence of MISS: the two rows of the worked sequence
of section 7.3 and of R139's "request first", of which a free value chooses. -/
theorem test_first_expiry_after_cut_off (s : State) (h : s.disp.beeper = some ⟨.miss, 0, true⟩) :
    s.nextInterval.disp.beeper = some ⟨.miss, 0, false⟩ ∨ s.nextInterval.disp.beeper = some ⟨.miss, 1, false⟩ := by
  simp only [State.nextInterval, h, Sounding.next, Pattern.intervals]
  cases Config.cutOffExpiry s.free <;> simp

/-- A lift motion to REST stops when the cover opens, and an OVERCURRENT after it finds no drive (R146). -/
theorem test_cover_stops_the_lift :
    gives .coverOpen { idle with seq := { idle.seq with lift := some .ribbon, liftTarget := some .rest } }
        (fun t => (t.seq.state, t.seq.lift, t.seq.liftTarget, t.driveState .lift)) (.coverOpen, none, none, .off) := by
  decide +kernel

/-- In HUNT a LEN byte of 2 with a missing stop bit waits for the payload and the CHECK, and is then a false start
(R169). -/
theorem test_hunt_reads_the_block_first :
    gives (.huntCandidateBlock [⟨0xD4, false⟩, ⟨0x10, false⟩, ⟨2, true⟩, ⟨1, false⟩]) State.reset
        (fun t => (t.rx.sync, t.rx.buf.length)) (.hunt, 4) ∧
      gives (.huntCandidateBlock [⟨0xD4, false⟩, ⟨0x10, false⟩, ⟨2, true⟩, ⟨1, false⟩, ⟨2, false⟩, ⟨0x11, false⟩]) State.reset
        (fun t => (t.rx.sync, t.rx.buf.length)) (.hunt, 5) := by decide +kernel

/-- "a a" with 'a' typed beyond the line length of 40: "a" is released, the space is dropped, and "aa" is the new
composition (R43). -/
theorem test_word_wrap :
    gives .characterKeyAction
      (withKey { inLine idle [charRec 0x61, spaceRec, charRec 0x61] 3 with
        comp := { (inLine idle [charRec 0x61, spaceRec, charRec 0x61] 3).comp with left := 120, right := 160 } } (.char 0x61))
      (fun t => (t.comp.recs.map CompRec.code, t.comp.cursor, t.comp.outgoing.map (fun o => o.placements.length), t.ctr.lines))
      ([0x61, 0x61], 2, some 1, 1) := by decide +kernel

/-- A character that waits for room is taken in the step that frees the place (R28). -/
theorem test_room_frees_the_waiting_key :
    gives .moveComplete
      { withKey idle (.char 0x61) with
        seq := { idle.seq with
          state := .running, queue := .move 240 :: List.replicate 63 .indexPage, flight := some (.moving 1) }
        comp := { idle.comp with keyWait := some .room } }
      (fun t => (t.comp.keyWait, t.comp.logical, t.seq.queue.length)) (none, 132, 64) := by decide +kernel

/-- RESTART TEXT in LINE puts the logical position at the left margin before a pending MODE DIRECT goes into force
(R22, R47). -/
theorem test_restart_text_in_line :
    gives .restartText
      { inLine idle [charRec 0x61] 1 with
        comp := { (inLine idle [charRec 0x61] 1).comp with
          logical := 132, later := { PendingLine.none with mode := some .direct } } }
      (fun t => (t.comp.mode, t.comp.logical)) (.direct, 120) := by decide +kernel

/-! ### Witnesses: states and operands that meet the hypotheses of the statements, clause by clause -/

theorem witness_StepRunsTheFrontCommand :
    { idle with pending := [.pause] }.pending = [.pause] ∧ idle.pending = [] := by decide +kernel

theorem witness_ResetInputHoldsAndStartsThePart :
    ((State.held [] false 0).resetHeld = true ∧ (State.held [] false 0).coverOpen = false) ∧
      ((State.held [] true 0).resetHeld = true ∧ (State.held [] true 0).coverOpen = true) ∧ idle.resetHeld = false := by
  decide +kernel

theorem witness_HeldResetPassesOverCommands :
    (State.held [] false 0).resetHeld = true ∧ runsInside (State.held [] false 0).tab.slots = true ∧
      Instr.pause ≠ .resetAsserted ∧ Instr.pause ≠ .resetReleased ∧ Instr.pause ≠ .coverOpen ∧ Instr.pause ≠ .coverClose := by
  decide +kernel

/-- One stray byte before the block, 48 payload bytes (the most); LEN 49; LEN 0 with a missing stop bit; a CHECK that does
not match, with no payload, and a bad payload byte among 48; a HEAD alone, and 48 of 49 bytes after a LEN of 48. -/
theorem witness_HuntJudgesTheCandidateBlock :
    (State.reset.resetHeld = false ∧ State.reset.rx.sync = .hunt ∧ State.reset.rx.buf = [] ∧
      ∀ b ∈ [(⟨0, false⟩ : FeedByte)], isStart b = false) ∧
    (List.replicate 48 (0x61 : Byte)).length ≤ 48 ∧
    48 < (⟨49, false⟩ : FeedByte).data.toNat ∧
    (([] : List FeedByte).length = (⟨0, true⟩ : FeedByte).data.toNat ∧ (⟨0, true⟩ : FeedByte).data.toNat ≤ 48 ∧
      (⟨0, true⟩ : FeedByte).bad = true ∧ (⟨0x11, false⟩ : FeedByte).data ≠ checkByte 0x10 []) ∧
    ([(⟨0x10, false⟩ : FeedByte)].length < 2 ∧ (⟨48, false⟩ : FeedByte).data.toNat ≤ 48 ∧
      (List.replicate 48 (⟨0x61, true⟩ : FeedByte)).length ≤ (⟨48, false⟩ : FeedByte).data.toNat) ∧
    ((List.replicate 48 (⟨0x61, true⟩ : FeedByte)).length = (⟨48, false⟩ : FeedByte).data.toNat ∧
      ∃ b ∈ List.replicate 48 (⟨0x61, true⟩ : FeedByte), b.bad = true) := by
  decide +kernel

/-- The same blocks in CONFIRM, after an IDLE byte. -/
theorem witness_ConfirmJudgesTheBlock :
    ({ State.reset with rx := ⟨.confirm, [], []⟩ }.resetHeld = false ∧
      runsInside { State.reset with rx := ⟨.confirm, [], []⟩ }.tab.slots = true ∧
      { State.reset with rx := ⟨.confirm, [], []⟩ }.rx.sync = .confirm ∧
      ∀ b ∈ [(⟨0xFF, false⟩ : FeedByte)], isIdle b = true) ∧
    (List.replicate 48 (0x61 : Byte)).length ≤ 48 ∧
    48 < (⟨49, false⟩ : FeedByte).data.toNat ∧
    ([(⟨0x10, false⟩ : FeedByte)].length < 2 ∧ (⟨48, false⟩ : FeedByte).data.toNat ≤ 48 ∧
      (List.replicate 48 (⟨0x61, true⟩ : FeedByte)).length ≤ (⟨48, false⟩ : FeedByte).data.toNat) ∧
    (([] : List FeedByte).length = (⟨0, true⟩ : FeedByte).data.toNat ∧ (⟨0, true⟩ : FeedByte).data.toNat ≤ 48 ∧
      (⟨0, true⟩ : FeedByte).bad = true ∧ (⟨0x11, false⟩ : FeedByte).data ≠ checkByte 0x10 []) := by
  decide +kernel

/-- Stray bytes in CONFIRM and in LOCKED, LEN 49 and a bad LEN of 48; a window of 16 with 3 bad blocks in its last 15, so
that this one is the fourth, and an empty window. -/
theorem witness_StrayBytesAndBadBlocksLoseSync :
    let s : State := { idle with rx := ⟨.locked, [], List.replicate 13 false ++ [true, true, true]⟩ }
    ((locked idle).resetHeld = false ∧ (locked idle).rx.sync = .locked ∧ (locked idle).rx.buf = [] ∧
      { idle with rx := ⟨.confirm, [], []⟩ }.rx.sync = .confirm ∧ ∀ b ∈ [(⟨0xFF, false⟩ : FeedByte)], isIdle b = true) ∧
    (isIdle ⟨0, false⟩ = false ∧ isStart ⟨0, false⟩ = false) ∧
    (48 < (⟨49, false⟩ : FeedByte).data.toNat ∧ (⟨48, true⟩ : FeedByte).bad = true) ∧
    (s.resetHeld = false ∧ s.rx.sync = .locked ∧
      (⟨0, false⟩ : FeedByte).bad = false ∧ ([] : List FeedByte).length = (⟨0, false⟩ : FeedByte).data.toNat ∧
      (⟨0x11, false⟩ : FeedByte).data ≠ checkByte 0x10 [] ∧ ¬(s.rx.window.tail ++ [true]).count true < 4 ∧
      ((locked idle).rx.window ++ [true]).count true < 4) := by decide +kernel

/-- Three bad blocks stay in the window; 8 events find the last 8 places; TEXT as long as the balance and one longer;
kind 4, KEY with LEN 9, CONTROL with LEN 0. -/
theorem witness_LockedBlocksAreTakenByKind :
    let s : State := { idle with
      rx := ⟨.locked, [], List.replicate 13 false ++ [true, true, true]⟩
      keyq := ⟨List.replicate 8 1, false⟩, txt := ⟨[], 1, 95, false⟩ }
    (s.resetHeld = false ∧ s.rx.sync = .locked ∧ (∀ b ∈ [(⟨0xFF, false⟩ : FeedByte)], isIdle b = true) ∧
      (s.rx.window.tail ++ [false]).count true < 4) ∧
    ((0x10 : Byte).toNat / 16 = 1 ∧ (List.replicate 8 (2 : Byte)).length ≤ 8 ∧
      s.keyq.queue.length + (List.replicate 8 (2 : Byte)).length ≤ 16) ∧
    ((0x20 : Byte).toNat / 16 = 2 ∧ [(0x61 : Byte)].length ≤ s.txt.balance) ∧
    s.txt.balance < [(0x61 : Byte), 0x62].length ∧
    (((0x40 : Byte).toNat / 16 = 1 → 8 < [(0 : Byte)].length) ∧ (0x40 : Byte).toNat / 16 ≠ 2 ∧
      ((0x40 : Byte).toNat / 16 = 3 → [(0 : Byte)] = [])) ∧
    (((0x10 : Byte).toNat / 16 = 1 → 8 < (List.replicate 9 (2 : Byte)).length) ∧ (0x10 : Byte).toNat / 16 ≠ 2 ∧
      ((0x10 : Byte).toNat / 16 = 3 → List.replicate 9 (2 : Byte) = [])) ∧
    (((0x30 : Byte).toNat / 16 = 1 → 8 < ([] : List Byte).length) ∧ (0x30 : Byte).toNat / 16 ≠ 2 ∧
      ((0x30 : Byte).toNat / 16 = 3 → ([] : List Byte) = [])) := by decide +kernel

/-- SET with 47 parameters, the most, and RESUME with the sensor; code 0x12, two parameters where SET has three, one where
PAUSE has none, item 7 and selector 6. -/
theorem witness_ControlBlockRunsItsCommand :
    ((locked idle).resetHeld = false ∧ runsInside (locked idle).tab.slots = true ∧ (locked idle).rx.sync = .locked ∧
      (List.replicate 47 (0 : Byte)).length ≤ 47 ∧ (0x30 : Byte).toNat / 16 = 3 ∧
      payloadOf (.set (List.replicate 47 0)) = some (0x01, List.replicate 47 0) ∧
      ((locked idle).rx.window ++ [false]).count true < 4) ∧
    (payloadOf (.resume false) = some (0x0D, []) ∧ ∀ p, Instr.resume false = .resume p → p = false) ∧
    ((locked idle).ret.hasFree = true ∧ (locked idle).tab.sealing = none ∧ 0x11 < (0x12 : Byte).toNat ∧
      [(0 : Byte), 0].length ≠ 3 ∧ [(0 : Byte)].length ≠ 0 ∧ 6 < (7 : Byte).toNat ∧ 5 < (6 : Byte).toNat) := by
  refine ⟨by decide +kernel, ⟨by decide +kernel, ?_⟩, by decide +kernel⟩
  rintro p ⟨⟩
  rfl

/-- A state whose report queue holds some EVENTs and some ANSWERs. -/
def reporting (events answers : Nat) : State :=
  { idle with ret := { idle.ret with
      reports := List.replicate events (.event .linkLost false) ++ List.replicate answers (.answer 0x0C .done []) } }

theorem witness_FullQueuesDropAndCount :
    16 ≤ { idle with keyq := ⟨List.replicate 16 1, false⟩ }.keyq.queue.length ∧
    (((reporting 21 2).ret.reports.filter Report.isEvent).length < 22 ∧
      (reporting 21 2).ret.reports.length + (reporting 21 2).ret.reserved < 24) ∧
    22 ≤ ((reporting 22 0).ret.reports.filter Report.isEvent).length ∧
    24 ≤ (reporting 20 4).ret.reports.length + (reporting 20 4).ret.reserved := by decide +kernel

theorem witness_QueriesAnswerAndChangeNothingElse :
    let s := typed (withWord idle .miss) .waiting
    let u : State := { s with spell := { s.spell with users := [[1, 2]] } }
    (idle.commandReady ∧ u.commandReady ∧ (reporting 20 3).commandReady) ∧ 1 < (2 : Byte).toNat ∧ (11 : Byte).toNat < 12 ∧
      12 ≤ (12 : Byte).toNat ∧ (0 : Byte).toNat < u.line.entries.length ∧ idle.line.entries = [] ∧
      (u.line.entries.length ≤ (1 : Byte).toNat ∧ ¬((1 : Byte) = 0 ∧ u.line.entries = [])) ∧
      (0 : Byte).toNat < u.spell.words.length ∧ idle.spell.words = [] ∧
      (u.spell.words.length ≤ (1 : Byte).toNat ∧ ¬((1 : Byte) = 0 ∧ u.spell.words = [])) ∧
      u.spell.users[(0 : Byte).toNat]? = some [1, 2] ∧ u.spell.users.length ≤ (1 : Byte).toNat := by decide +kernel

theorem witness_QueryFaultsReportsTheFaultList :
    let s : State := { idle with drv := { idle.drv with faults := List.replicate 8 ⟨.openLoad, .lift, 255, true⟩ } }
    s.commandReady ∧ s.drv.faults.length ≤ 8 := by decide +kernel

/-- The margin judgements at their borders: 961 is 119 below the right margin 1080, and 239 is 119 above the left 120. -/
theorem witness_SetStoresOrRefuses :
    (idle.commandReady ∧ idle.quiet) ∧ [(0 : Byte), 0].length ≠ 3 ∧ 23 ≤ (23 : Byte).toNat ∧
      idle.comp.later.right.getD idle.comp.right < min 1439 (ofTwoBytes 0x03 0xC1) + 120 ∧
      min 1559 (ofTwoBytes 0x00 0xEF) < idle.comp.later.left.getD idle.comp.left + 120 := by decide +kernel

/-- Away from a boundary: values in force and others, the margins at 1439 and 1559 with the other margin pending at its
own end, and 120 apart; values beyond the range; and a boundary. -/
theorem witness_SetLineSettingWaitsForTheBoundary :
    let s := typed idle .waiting
    let wide (l r : Nat) : State := { s with comp := { s.comp with later := { s.comp.later with left := some l, right := some r } } }
    (s.commandReady ∧ s.quiet ∧ s.atBoundary = false) ∧
    ((wide 120 1559).commandReady ∧ (wide 120 1559).quiet ∧ (wide 120 1559).atBoundary = false) ∧
    (ofTwoBytes 0 1 ≤ 1 ∧ ¬(s.comp.mode = .line) ∧ s.comp.mode = .direct) ∧
    (¬(s.comp.source = .remoteText) ∧ s.comp.source = .localKeys) ∧
    (ofTwoBytes 0 3 ≤ 3 ∧ ¬(s.comp.pitch = Pitch.ofNum 3) ∧ s.comp.pitch = Pitch.ofNum 0) ∧
    (ofTwoBytes 0x05 0x9F ≤ 1439 ∧ ofTwoBytes 0x05 0x9F + 120 ≤ (wide 120 1559).comp.later.right.getD 1080 ∧
      ¬((wide 120 1559).comp.left = ofTwoBytes 0x05 0x9F)) ∧
    (ofTwoBytes 0 120 + 120 ≤ s.comp.later.right.getD s.comp.right ∧ s.comp.left = ofTwoBytes 0 120) ∧
    (ofTwoBytes 0x06 0x17 ≤ 1559 ∧ (wide 1439 1559).comp.later.left.getD 120 + 120 ≤ ofTwoBytes 0x06 0x17 ∧
      ¬((wide 1439 1559).comp.right = ofTwoBytes 0x06 0x17)) ∧
    (s.comp.later.left.getD s.comp.left + 120 ≤ ofTwoBytes 0x04 0x38 ∧ s.comp.right = ofTwoBytes 0x04 0x38) ∧
    (min 1 (ofTwoBytes 0 2) ≠ ofTwoBytes 0 2 ∧ min 3 (ofTwoBytes 0 4) ≠ ofTwoBytes 0 4 ∧
      min 1439 (ofTwoBytes 0x05 0xA0) + 120 ≤ (wide 120 1559).comp.later.right.getD 1080 ∧
      (wide 1439 1559).comp.later.left.getD 120 + 120 ≤ min 1559 (ofTwoBytes 0x06 0x18)) ∧
    (idle.commandReady ∧ idle.quiet ∧ idle.atBoundary = true) := by
  decide +kernel

/-- A directory whose slot 0 is as given, with slot 1 holding all segments from 58 on. -/
def withSlot (d : Slot) : State :=
  { idle with tab := ⟨[], d :: ⟨.sealed, .keyMap, 7, 58, 4038, [], false, 0⟩ :: List.replicate 10 Slot.emptySlot, none⟩ }

/-- Slots 11 and 12; keys 63 and 64, 7 and 8; counts 0, 1, 58, 59, 4096 and 4097; a protected slot, one that is not, and
one SEALED and not active; 4 and 6 parameters. -/
theorem witness_TableOpenAllocatesTheLowestRun :
    (idle.commandReady ∧ idle.quiet) ∧ 12 ≤ (12 : Byte).toNat ∧
    ((11 : Byte).toNat < 12 ∧ 2 < (3 : Byte).toNat ∧ 63 < (64 : Byte).toNat ∧ (1 : Byte) ≠ 0 ∧ 7 < (8 : Byte).toNat ∧
      ofTwoBytes 0 0 = 0 ∧ 4096 < ofTwoBytes 0x10 0x01) ∧
    ((0 : Byte).toNat = TableKind.wheelMap.num ∧ (63 : Byte).toNat ≤ TableKind.wheelMap.maxKey ∧
      (7 : Byte).toNat ≤ TableKind.lexicon.maxKey ∧ 0 < ofTwoBytes 0 1 ∧ ofTwoBytes 0x10 0x00 ≤ 4096) ∧
    ((withSlot { wheelSlot with guarded := true }).commandReady ∧
      (slotAt (withSlot { wheelSlot with guarded := true }).tab.slots 0).state = .sealed ∧
      (slotAt (withSlot { wheelSlot with guarded := true }).tab.slots 0).guarded = true) ∧
    (¬((slotAt (withSlot wheelSlot).tab.slots 0).state = .sealed ∧ (slotAt (withSlot wheelSlot).tab.slots 0).guarded = true) ∧
      lowestFit (occupied (setAt (withSlot wheelSlot).tab.slots 0 Slot.emptySlot)) (ofTwoBytes 0 59) = none) ∧
    ((withSlot Slot.emptySlot).quiet ∧ (slotAt (withSlot Slot.emptySlot).tab.slots 0).state ≠ .sealed ∧
      (withSlot Slot.emptySlot).seq.state ≠ .wheelWait ∧
      lowestFit (occupied (setAt (withSlot Slot.emptySlot).tab.slots 0 Slot.emptySlot)) (ofTwoBytes 0 58) = some 0) ∧
    ((withSlot { wheelSlot with key := 5 }).quiet ∧
      (slotAt (withSlot { wheelSlot with key := 5 }).tab.slots 0).state = .sealed ∧
      (slotAt (withSlot { wheelSlot with key := 5 }).tab.slots 0).guarded = false ∧
      (slotAt (withSlot { wheelSlot with key := 5 }).tab.slots 0).key ≠ (withSlot { wheelSlot with key := 5 }).selection .wheelMap ∧
      lowestFit (occupied (setAt (withSlot { wheelSlot with key := 5 }).tab.slots 0 Slot.emptySlot)) (ofTwoBytes 0 58) = some 0) ∧
    ([(0 : Byte), 0, 0, 0].length ≠ 5 ∧ [(0 : Byte), 0, 0, 0, 0, 0].length ≠ 5) := by
  decide +kernel

/-- A slot that ends with the last segment, 4095, and writes of one and two segments up to its end. -/
theorem witness_TableWriteStoresTheSegments :
    let s : State := { idle with
      tab := ⟨[], ⟨.opened, .keyMap, 1, 4094, 2, [false, false], false, 0⟩ :: List.replicate 11 Slot.emptySlot, none⟩ }
    s.commandReady ∧ runsInside s.tab.slots = true ∧ tables.wf = true ∧
      65504 + (List.replicate 32 (0xAA : Byte)).length ≤ 65536 ∧ 65503 < 65504 ∧
      31 < (List.replicate 32 (0xAA : Byte)).length := by decide +kernel

/-- An OPEN slot, wholly written or not. -/
def opened (written : List Bool) : Slot := ⟨.opened, .keyMap, 1, 58, 36, written, false, 0⟩

/-- A seal of slot 0 that has read the first segment of its 36, and the state in which it works. -/
def sealOf (d : Slot) (m : Memory) (check : Word) : Seal :=
  ⟨0, check, false, 576, 16, tableCheck ((slotBytes m d).take 16)⟩
def sealingState (d : Slot) (m : Memory) (check : Word) : State :=
  { withSlot d with
    tab := ⟨m, d :: List.replicate 11 Slot.emptySlot, some (sealOf d m check)⟩
    ret := { idle.ret with reserved := 1 } }

/-- The checks of the key map of the test tables, and of 36 segments of zeros. -/
def keyMapCheck : Word := tableCheck (slotBytes tables (opened []))
def zeroCheck : Word := tableCheck (slotBytes [] (opened []))

/-- The figure that a seal holds is that of the bytes it has read. -/
theorem sealingState_follows (d : Slot) (m : Memory) (check : Word) : (sealingState d m check).sealFollows := by
  intro e he
  cases he
  rfl

theorem witness_SealChecksAndSealsTheTable :
    [(0 : Byte), 0, 0].length ≠ 4 ∧
    (idle.commandReady ∧ 12 ≤ (12 : Byte).toNat ∧ (11 : Byte).toNat < 12 ∧ (slotAt idle.tab.slots 11).state ≠ .opened) ∧
    ((withSlot (opened [true, false])).commandReady ∧
      (slotAt (withSlot (opened [true, false])).tab.slots 0).state = .opened ∧
      ((slotAt (withSlot (opened [true, false])).tab.slots 0).written.filter (fun w => !w)).length ≠ 0) ∧
    ((withSlot (opened [true, true])).commandReady ∧
      ((slotAt (withSlot (opened [true, true])).tab.slots 0).written.filter (fun w => !w)).length = 0) ∧
    ((sealingState (opened []) tables (keyMapCheck + 1)).quiet ∧
      runsInside (sealingState (opened []) tables (keyMapCheck + 1)).tab.slots = true ∧
      (sealingState (opened []) tables (keyMapCheck + 1)).tab.sealing = some (sealOf (opened []) tables (keyMapCheck + 1)) ∧
      (sealingState (opened []) tables (keyMapCheck + 1)).sealFollows ∧ keyMapCheck ≠ keyMapCheck + 1) ∧
    ((sealingState (opened []) [] zeroCheck).quiet ∧ runsInside (sealingState (opened []) [] zeroCheck).tab.slots = true ∧
      (sealingState (opened []) [] zeroCheck).tab.sealing = some (sealOf (opened []) [] zeroCheck) ∧
      (sealingState (opened []) [] zeroCheck).sealFollows ∧ (validateTable [] (opened [])).isSome) ∧
    (validateTable tables (opened []) = none ∧
      (opened []).key ≠ (sealingState (opened []) tables keyMapCheck).selection .keyMap ∧
      (sealingState (opened []) tables keyMapCheck).sealFollows ∧
      (sealingState (opened []) tables keyMapCheck).seq.state ≠ .wheelWait) := by
  and_intros <;> first | exact sealingState_follows _ _ _ | decide +kernel

theorem witness_TableDropEmptiesTheSlot :
    (idle.commandReady ∧ idle.quiet) ∧ ([] : List Byte).length ≠ 1 ∧ 12 ≤ (12 : Byte).toNat ∧
      ((11 : Byte).toNat < 12 ∧ idle.seq.state ≠ .wheelWait ∧
        ¬((slotAt idle.tab.slots 11).state = .sealed ∧
          (slotAt idle.tab.slots 11).key = idle.selection (slotAt idle.tab.slots 11).kind)) := by decide +kernel

/-- The Composer in LINE with a TAB record and a tab stop at 200; with 24 stops; and a composition whose TAB record needs
its stop. -/
def tabbed (stops : List TabStop) (recs : List CompRec) : State :=
  { inLine idle recs recs.length with
    comp := { (inLine idle recs recs.length).comp with tabs := stops } }

def manyStops (n : Nat) : List TabStop := (List.range n).map (fun i => ⟨130 + i, false⟩)

theorem witness_TabCommandsKeepTheGuard :
    ((tabbed [⟨200, false⟩] [tabRec]).commandReady ∧ (tabbed [⟨200, false⟩] [tabRec]).quiet) ∧
    (1559 < ofTwoBytes 0x06 0x18 ∧ ofTwoBytes 0x06 0x17 ≤ 1559) ∧
    ((tabbed (manyStops 24) []).commandReady ∧ (tabbed (manyStops 24) []).quiet ∧
      (∀ u ∈ (tabbed (manyStops 24) []).comp.tabs, u.pos ≠ 1559) ∧ 24 ≤ (tabbed (manyStops 24) []).comp.tabs.length) ∧
    ((tabbed (manyStops 23) []).commandReady ∧ (tabbed (manyStops 23) []).comp.tabs.length < 24 ∧
      State.fits { tabbed (manyStops 23) [] with
        comp := { (tabbed (manyStops 23) []).comp with tabs := addStop (manyStops 23) ⟨1559, true⟩ } }
        (tabbed (manyStops 23) []).comp.recs = true) ∧
    ((∃ u ∈ (tabbed [⟨200, false⟩] [tabRec]).comp.tabs, u.pos = 200) ∧
      State.fits (tabbed [] [tabRec]) [tabRec] = false ∧ State.fits (tabbed [] []) [] = true) := by decide +kernel

theorem witness_UserWordCommandsKeepTheList :
    let s : State := { idle with spell := { idle.spell with users := [[1, 40]] } }
    let full : State := { idle with spell := { idle.spell with users := List.replicate 64 [1, 1] } }
    (s.commandReady ∧ s.quiet ∧ full.commandReady ∧ full.quiet) ∧
    ([(1 : Byte)].length < 2 ∧ 24 < (List.replicate 25 (1 : Byte)).length) ∧
    (2 ≤ [(1 : Byte), 41].length ∧ [(1 : Byte), 41].length ≤ 24 ∧ ∃ b ∈ [(1 : Byte), 41], 40 < b.toNat) ∧
    (2 ≤ [(1 : Byte), 40].length ∧ (∀ b ∈ [(1 : Byte), 40], b.toNat ≤ 40) ∧ [(1 : Byte), 40].map BitVec.toNat ∈ s.spell.users) ∧
    ((List.replicate 24 (1 : Byte)).length ≤ 24 ∧ (List.replicate 24 (1 : Byte)).map BitVec.toNat ∉ s.spell.users ∧
      s.spell.users.length < 64 ∧ (List.replicate 24 (1 : Byte)).map BitVec.toNat ∉ full.spell.users ∧
      64 ≤ full.spell.users.length) := by decide +kernel

/-- The part with the mechanism in a state. -/
def inState (m : MechState) (r : Reason) : State := { idle with seq := { idle.seq with state := m, reason := r } }

/-- PAUSED for KEY with a MOVE at the head. -/
def pausedMove : State := { inState .paused .key with seq := { (inState .paused .key).seq with queue := [.move 240] } }

/-- PAUSED with one order of any kind queued. -/
def pausedAt (o : Order) : State := { pausedMove with seq := { pausedMove.seq with queue := [o] } }

theorem witness_PauseAndResume :
    (idle.commandReady ∧ idle.quiet ∧ idle.seq.state = .idle) ∧
    ((inState .running .none).commandReady ∧ (inState .running .none).seq.flight = none) ∧
    ((inState .paused .paper).commandReady ∧ (inState .paused .paper).seq.state = .paused ∧
      (inState .paused .paper).seq.reason = .paper ∧ (inState .paused .paper).seq.pauseReq = none ∧
      (inState .paused .paper).seq.queue = []) ∧
    ((running idle (.move 240) (.moving 1)).commandReady ∧ (running idle (.move 240) (.moving 1)).quiet ∧
      (running idle (.move 240) (.moving 1)).seq.state ≠ .idle ∧ (running idle (.move 240) (.moving 1)).seq.state ≠ .paused ∧
      ¬((running idle (.move 240) (.moving 1)).seq.state = .running ∧ (running idle (.move 240) (.moving 1)).seq.flight = none)) ∧
    (pausedMove.commandReady ∧ pausedMove.quiet ∧ pausedMove.seq.state = .paused ∧ pausedMove.seq.reason ≠ .paper ∧
      pausedMove.seq.pauseReq = none ∧ pausedMove.seq.queue = [.move 240] ∧ pausedMove.seq.carriage ≠ some 240) ∧
    (∀ o ∈ [Order.strike 0x61 240 .base none 0, .lift 1 17 240 6 none, .index 2],
      (pausedAt o).commandReady ∧ (pausedAt o).quiet ∧ (pausedAt o).seq.state = .paused ∧ (pausedAt o).seq.reason ≠ .paper ∧
        (pausedAt o).seq.pauseReq = none ∧ (pausedAt o).seq.queue ≠ []) := by
  decide +kernel

/-- HALTED with some fault records. -/
def haltedWith (l : List FaultRec) : State :=
  { inState .halted (.fault .overcurrent) with drv := { idle.drv with faults := l } }

theorem witness_AckFaultClearsAndMayStartHoming :
    (idle.commandReady ∧ idle.quiet ∧ idle.seq.state ≠ .halted) ∧
    ((haltedWith [⟨.overcurrent, .lift, 1, true⟩]).commandReady ∧ (haltedWith [⟨.overcurrent, .lift, 1, true⟩]).quiet ∧
      0 < (((haltedWith [⟨.overcurrent, .lift, 1, true⟩]).drv.faults.filter FaultRec.isPresent).filter
        (fun f => (haltedWith [⟨.overcurrent, .lift, 1, true⟩]).halting f.kind)).length) ∧
    ((haltedWith [⟨.overcurrent, .lift, 1, false⟩]).commandReady ∧ (haltedWith [⟨.overcurrent, .lift, 1, false⟩]).quiet ∧
      (((haltedWith [⟨.overcurrent, .lift, 1, false⟩]).drv.faults.filter FaultRec.isPresent).filter
        (fun f => (haltedWith [⟨.overcurrent, .lift, 1, false⟩]).halting f.kind)).length = 0 ∧
      (haltedWith [⟨.overcurrent, .lift, 1, false⟩]).seq.homing = none) := by decide +kernel

theorem witness_CreditCountersAndCommandsInProgress :
    idle.commandReady ∧
    (payloadOf .pause = some (0x0C, []) ∧ idle.resetHeld = false ∧ runsInside idle.tab.slots = true ∧
      (reporting 20 4).ret.hasFree = false) ∧
    ((sealingState (opened []) [] 0).ret.hasFree = true ∧ (sealingState (opened []) [] 0).tab.sealing.isSome = true ∧
      (sealingState (opened []) [] 0).resetHeld = false ∧ runsInside (sealingState (opened []) [] 0).tab.slots = true ∧
      (0x0C : Byte) ≠ 0x11) ∧
    (sealingState (opened []) [] 0).tab.sealing = some (sealOf (opened []) [] 0) := by decide +kernel

theorem witness_RestartLinkStartsTheLinkAfresh : (locked idle).commandReady ∧ (locked idle).quiet := by decide +kernel

theorem witness_RestartTextEmptiesTheText :
    (remote idle [0x61]).commandReady ∧ (inLine idle [charRec 0x61] 1).commandReady := by decide +kernel

theorem witness_RestartMechClearsTheOrdersAndHomes :
    (loaded idle 64).commandReady ∧ (loaded idle 64).quiet ∧ (loaded idle 64).seq.flight = none ∧
      (loaded idle 64).seq.homing = none ∧ (loaded idle 64).seq.state ≠ .homing ∧ (loaded idle 64).coverOpen = false ∧
      (loaded idle 64).comp.modeInEffect = .direct ∧ (loaded idle 64).comp.later = .none := by decide +kernel

/-- An active lexicon, and none. -/
theorem witness_RestartTablesEmptiesTheDirectory :
    ((looking [1, 2]).commandReady ∧ (looking [1, 2]).quiet ∧ (looking [1, 2]).seq.state ≠ .wheelWait ∧
      ((looking [1, 2]).active .lexicon).isSome) ∧ (idle.commandReady ∧ idle.quiet ∧ (idle.active .lexicon).isNone) := by
  decide +kernel

theorem witness_RestartAllStartsThePartAfresh :
    idle.commandReady ∧ idle.seq.flight = none ∧ idle.seq.homing = none ∧ idle.seq.state ≠ .homing ∧
      idle.coverOpen = false := by decide +kernel

/-- WHEEL_WAIT with a reason, a queue, a request and a directory. -/
def waiting (r : Reason) (queue : List Order) (req : Option PauseReason) (slots : List Slot) : State :=
  { inState .wheelWait r with
    seq := { (inState .wheelWait r).seq with queue := queue, pauseReq := req }
    tab := { idle.tab with slots := slots } }

/-- Two key maps and two lexicons, with keys 0 and 7. -/
def twoSlots : List Slot :=
  [wheelSlot, keySlot, lexSlot, ⟨.sealed, .keyMap, 7, 200, 36, [], false, 0⟩, ⟨.sealed, .lexicon, 7, 300, 26, [], false, 0⟩]
    ++ List.replicate 7 Slot.emptySlot

def twoKeys : State := { idle with tab := { idle.tab with slots := twoSlots } }

/-- The five places of WHEEL_WAIT that EXPECTED_WHEEL is judged in. -/
def waitA : State := waiting .mismatch [] none idle.tab.slots
def waitB : State := waiting .noMap [] none []
def waitC : State := waiting .mismatch [] none []
def waitD : State := waiting .mismatch [.move 240] (some .key) idle.tab.slots
def waitE : State := waiting .mismatch [.move 240] none idle.tab.slots

def withKeyboard (s : State) (n : Nat) : State := { s with set := { s.set with keyboard := n } }
def withLanguage (s : State) (n : Nat) : State := { s with set := { s.set with language := n } }
def displayOff : State := { idle with set := { idle.set with display := false } }

theorem witness_SettingsActWhenTheyAreSet :
    ((idle.commandReady ∧ idle.quiet) ∧ (twoKeys.commandReady ∧ twoKeys.quiet)) ∧
    (idle.set.keyboard = min 7 (ofTwoBytes 0 0) ∧ idle.set.keyboard ≠ min 7 (ofTwoBytes 1 0) ∧
      (withKeyboard idle 7).active .keyMap = none ∧ (withKeyboard twoKeys 7).active .keyMap = some 3) ∧
    idle.seq.state ≠ .wheelWait ∧
    ((waitA.commandReady ∧ waitA.quiet ∧ waitA.seq.state = .wheelWait ∧ waitA.seq.reason = .mismatch ∧
        min 63 (ofTwoBytes 0 63) ≠ 0 ∧ min 63 (ofTwoBytes 0 63) ≠ waitA.seq.wheelCode) ∧
      (waitA.active .wheelMap ≠ none ∧ waitA.seq.pauseReq = none ∧ waitA.seq.queue = [] ∧ min 63 (ofTwoBytes 0 0) = 0)) ∧
    (waitB.commandReady ∧ waitB.quiet ∧ waitB.seq.reason = .noMap ∧ waitB.active .wheelMap = none ∧
      min 63 (ofTwoBytes 0 63) ≠ waitB.seq.wheelCode) ∧
    (waitC.commandReady ∧ waitC.quiet ∧ waitC.seq.reason = .mismatch ∧ waitC.active .wheelMap = none) ∧
    (waitD.commandReady ∧ waitD.quiet ∧ waitD.active .wheelMap ≠ none ∧ waitD.seq.pauseReq = some .key) ∧
    (waitE.commandReady ∧ waitE.quiet ∧ waitE.active .wheelMap ≠ none ∧ waitE.seq.pauseReq = none ∧ waitE.seq.queue ≠ []) ∧
    (idle.set.display = true ∧ min 1 (ofTwoBytes 0 0) = 0 ∧ displayOff.set.display = false ∧ min 1 (ofTwoBytes 0 2) = 1 ∧
      displayOff.commandReady ∧ displayOff.quiet) ∧
    (idle.set.spell = decide (min 1 (ofTwoBytes 0 0) = 1) ∧ idle.set.spell ≠ decide (min 1 (ofTwoBytes 0 2) = 1)) ∧
    ((withLanguage twoKeys (min 7 (ofTwoBytes 0 0))).active .lexicon = twoKeys.active .lexicon ∧
      (withLanguage twoKeys (min 7 (ofTwoBytes 1 0))).active .lexicon ≠ twoKeys.active .lexicon ∧
      (withLanguage twoKeys (min 7 (ofTwoBytes 0 6))).active .lexicon = none) := by
  and_intros <;> decide +kernel

/-- A key map of key 0 being sealed where none is active; an active table of each kind, not protected; and in WHEEL_WAIT a
seal, a drop, an opening and RESTART TABLES. -/
def sealingActive : State := sealingState { opened [] with key := 0 } tables keyMapCheck
def sealingWait : State :=
  { sealingActive with seq := { sealingActive.seq with state := .wheelWait, reason := .noMap, queue := [.move 240] } }

theorem witness_ReadersFollowTheDirectory :
    (sealingActive.quiet ∧ sealingActive.seq.state ≠ .wheelWait ∧ sealingActive.sealFollows ∧ runsInside sealingActive.tab.slots = true ∧
      sealingActive.tab.sealing = some (sealOf { opened [] with key := 0 } tables keyMapCheck) ∧
      tableCheck (slotBytes sealingActive.tab.mem (slotAt sealingActive.tab.slots 0)) = keyMapCheck ∧
      validateTable sealingActive.tab.mem (slotAt sealingActive.tab.slots 0) = none ∧
      (slotAt sealingActive.tab.slots 0).state = .opened ∧
      (slotAt sealingActive.tab.slots 0).key = sealingActive.selection (slotAt sealingActive.tab.slots 0).kind) ∧
    sealingActive.tab.slots.Pairwise
      (fun d e => ¬(d.state = .sealed ∧ e.state = .sealed ∧ d.kind = e.kind ∧ d.key = e.key)) ∧
    ((looking [1, 2]).quiet ∧ (looking [1, 2]).seq.state ≠ .wheelWait ∧ (looking [1, 2]).commandReady ∧
      (looking [1, 2]).tab.slots.Pairwise
        (fun d e => ¬(d.state = .sealed ∧ e.state = .sealed ∧ d.kind = e.kind ∧ d.key = e.key))) ∧
    (∀ i ∈ [0, 1, 2], (slotAt (looking [1, 2]).tab.slots i).state = .sealed ∧
      (slotAt (looking [1, 2]).tab.slots i).key = (looking [1, 2]).selection (slotAt (looking [1, 2]).tab.slots i).kind ∧
      (slotAt (looking [1, 2]).tab.slots i).guarded = false) ∧
    ((7 : Byte).toNat ≤ TableKind.keyMap.maxKey ∧ 0 < ofTwoBytes 0 36 ∧ ofTwoBytes 0 36 ≤ 4096 ∧
      lowestFit (occupied (setAt (looking [1, 2]).tab.slots 0 Slot.emptySlot)) (ofTwoBytes 0 36) = some 0) ∧
    (sealingWait.quiet ∧ sealingWait.seq.state = .wheelWait ∧ sealingWait.sealFollows ∧ runsInside sealingWait.tab.slots = true ∧
      sealingWait.tab.sealing = some (sealOf { opened [] with key := 0 } tables keyMapCheck) ∧
      tableCheck (slotBytes sealingWait.tab.mem (slotAt sealingWait.tab.slots 0)) = keyMapCheck ∧
      validateTable sealingWait.tab.mem (slotAt sealingWait.tab.slots 0) = none ∧
      sealingWait.tab.slots.Pairwise
        (fun d e => ¬(d.state = .sealed ∧ e.state = .sealed ∧ d.kind = e.kind ∧ d.key = e.key))) ∧
    (waitE.commandReady ∧ waitE.quiet ∧ waitE.seq.state = .wheelWait ∧
      waitE.tab.slots.Pairwise (fun d e => ¬(d.state = .sealed ∧ e.state = .sealed ∧ d.kind = e.kind ∧ d.key = e.key)) ∧
      ¬((slotAt waitE.tab.slots 0).state = .sealed ∧ (slotAt waitE.tab.slots 0).guarded = true) ∧
      lowestFit (occupied (setAt waitE.tab.slots 0 Slot.emptySlot)) (ofTwoBytes 0 36) = some 0) := by
  and_intros <;> first | exact sealingState_follows _ _ _ | decide +kernel

/-- A press of a key at the head. -/
def pressed (b : Byte) : State := { idle with keyq := ⟨[b], false⟩ }

def noMaps (s : State) : State := { s with tab := State.reset.tab }

/-- Keys 95 and 96 on both sides of the last key; each kind of entry; a timer in each of its phases. -/
theorem witness_KeyEventsAreResolvedAndRepeated :
    ((pressed 0xA4).resetHeld = false ∧ (pressed 0xA4).keyq.queue = [0xA4] ∧ 128 ≤ (0xA4 : Byte).toNat) ∧
    ((pressed 96).keyq.queue = [96] ∧ (96 : Byte).toNat < 128 ∧ (pressed 96).intake.offered = none ∧
      96 ≤ (96 : Byte).toNat % 128) ∧
    ((95 : Byte).toNat % 128 < 96 ∧ (noMaps (pressed 95)).activeBase .keyMap = none ∧
      (noMaps (pressed 95)).intake.offered = none) ∧
    ((pressed 95).activeBase .keyMap = some 928 ∧ keyEntryAt (pressed 95).tab.mem 928 .normal 95 = .none ∧
      keyEntryAt (pressed 1).tab.mem 928 .normal 1 = .func .shift false ∧
      keyEntryAt (pressed 2).tab.mem 928 .normal 2 = .func .code false ∧
      keyEntryAt (pressed 3).tab.mem 928 .normal 3 = .func .shiftLock false ∧
      keyEntryAt (pressed 36).tab.mem 928 .normal 36 = .char 0x61 true ∧
      keyEntryAt (pressed 62).tab.mem 928 .normal 62 = .dead 0xB4 ∧
      keyEntryAt (pressed 5).tab.mem 928 .normal 5 = .func .returnKey true) ∧
    ({ idle with intake := { idle.intake with timer := some ⟨36, .char 0x61, false⟩ } }.intake.timer
        = some ⟨36, .char 0x61, false⟩ ∧
      { idle with intake := { idle.intake with timer := some ⟨36, .char 0x61, true⟩ } }.intake.timer
        = some ⟨36, .char 0x61, true⟩ ∧ idle.intake.timer = none) ∧
    ({ idle with intake := { idle.intake with pendingRepeat := some (.char 0x61) } }.intake.pendingRepeat = some (.char 0x61) ∧
      (withKey idle (.char 0x61)).intake.pendingRepeat = none ∧
      (withKey idle (.char 0x61)).intake.offered = some ⟨36, .char 0x61, false⟩ ∧
      (∃ h ∈ (withKey idle (.char 0x61)).intake.held, h.1 = 36) ∧ idle.intake.pendingRepeat = none ∧
      idle.intake.offered = none) := by decide +kernel

def atPosition (s : State) (x : Nat) : State := { s with comp := { s.comp with logical := x } }

/-- The orders that a key of the statement on DIRECT characters gives. -/
def ordersOf (s : State) (code : Byte) (isDead : Bool) : Nat :=
  ((s.directStrikes code isDead s.comp.bold s.comp.underline).filter (fun k => k.pos ≤ 1559)).length

def inPs (s : State) : State := { s with comp := { s.comp with pitch := .ps } }

/-- A line record with `n` spaces typed. -/
def crowded (s : State) (n : Nat) : State :=
  { s with line := { s.line with
      entries := (List.range n).map (fun i => ⟨BitVec.ofNat 16 i, 0x20, .space, 120, 12, [], 0, false, none⟩)
      nextSeq := BitVec.ofNat 16 n } }

/-- 'a' at 1068, whose end is the margin 1080, and one unit later; 63 and 64 orders queued; an ABSENT 'b'; the accent; the
space; 1020, the first position near the margin; PS pitch without a map; 199 and 200 entries. -/
theorem witness_DirectCharactersArePlaced :
    ((withKey idle (.char 0x61)).turnOf (.char 0x61) ∧ (withKey idle (.dead 0xB4)).turnOf (.dead 0xB4) ∧
      (withKey idle (.func .space)).turnOf (.func .space) ∧ (withKey idle (.char 0x20)).turnOf (.char 0x20) ∧
      (withKey idle (.char 0x61)).comp.source = .localKeys ∧ (withKey idle (.char 0x61)).comp.mode = .direct) ∧
    ((withKey idle (.char 0x62)).turnOf (.char 0x62) ∧ (withKey idle (.char 0x62)).wheelEntry 0x62 = some .absent) ∧
    (¬(withKey idle (.char 0x61)).wheelEntry 0x61 = some .absent ∧ ¬(withKey idle (.char 0x61)).noWidth ∧
      (atPosition (withKey idle (.char 0x61)) 1069).turnOf (.char 0x61) ∧
      1080 < 1069 + (atPosition (withKey idle (.char 0x61)) 1069).advance 0x61 false) ∧
    ((withKey (loaded idle 64) (.char 0x61)).turnOf (.char 0x61) ∧
      64 < (withKey (loaded idle 64) (.char 0x61)).seq.queue.length + ordersOf (withKey (loaded idle 64) (.char 0x61)) 0x61 false) ∧
    ((atPosition (withKey (loaded idle 63) (.char 0x61)) 1068).turnOf (.char 0x61) ∧
      1068 + (atPosition (withKey (loaded idle 63) (.char 0x61)) 1068).advance 0x61 false ≤ 1080 ∧
      63 + ordersOf (atPosition (withKey (loaded idle 63) (.char 0x61)) 1068) 0x61 false ≤ 64 ∧
      (withKey (loaded idle 63) (.char 0x61)).line.entries.length < 200 ∧
      (withKey (loaded idle 63) (.char 0x61)).seq.state ≠ .idle) ∧
    ((inPs (noMaps (withKey idle (.char 0x61)))).turnOf (.char 0x61) ∧ (inPs (noMaps idle)).comp.pitch = .ps ∧
      (inPs (noMaps idle)).active .wheelMap = none) ∧
    ((withKey (crowded idle 200) (.char 0x61)).turnOf (.char 0x61) ∧ 200 ≤ (crowded idle 200).line.entries.length ∧
      ((crowded idle 200).line.entries.map Entry.seqNum).Nodup ∧ (crowded idle 199).line.entries.length < 200) ∧
    (1080 ≤ 1020 + 60 ∧ (atPosition (withKey idle (.char 0x61)) 1020).comp.flags.hotZone = false ∧
      (withKey idle (.char 0x61)).seq.queue = []) := by
  and_intros <;> decide +kernel

def noAutoReturn (s : State) : State := { s with set := { s.set with autoReturn := false } }
def outgoingLine (s : State) (l : List Placement) : State := { s with comp := { s.comp with outgoing := some ⟨l, 120, 2⟩ } }

/-- A record of no advance, so that 199 of them fit in the line. -/
def deadRec : CompRec := ⟨0xB4, .dead, false, false, 0, none⟩

/-- LINE with the line length 40, between the margins 120 and 160. -/
def narrow (recs : List CompRec) (cursor : Nat) : State :=
  { inLine idle recs cursor with comp := { (inLine idle recs cursor).comp with right := 160 } }

/-- 199 records and the cursor at both ends; 200 records and a TAB; a TAB without a stop. Characters: no map, an ABSENT
'b', no stop for a TAB; 200 records, and 48 units in a line of 40, with the cursor before the end, with AUTO_RETURN OFF,
without a break, with a TAB carried, with an outgoing line, and wrapping where the character fits and where it does not. -/
theorem witness_LineInsertsAtTheCursor :
    ((withKey (inLine idle (List.replicate 199 deadRec) 199) (.char 0x61)).turnOf (.char 0x61) ∧
      ((withKey (inLine idle (List.replicate 199 deadRec) 199) (.char 0x61)).active .wheelMap).isSome ∧
      (withKey (inLine idle (List.replicate 199 deadRec) 199) (.char 0x61)).wheelEntry 0x61 ≠ some .absent ∧
      (withKey (inLine idle (List.replicate 199 deadRec) 199) (.char 0x61)).wheelEntry 0xB4 ≠ some .absent ∧
      (List.replicate 199 deadRec).length < 200 ∧
      (inLine idle (List.replicate 199 deadRec ++ [charRec 0x61]) 200).fits (List.replicate 199 deadRec ++ [charRec 0x61]) = true) ∧
    ((withKey (inLine idle (List.replicate 200 deadRec) 0) (.func .tab)).turnOf (.func .tab) ∧
      200 ≤ (List.replicate 200 deadRec).length) ∧
    ((withKey (inLine idle [] 0) (.func .tab)).turnOf (.func .tab) ∧ (inLine idle [tabRec] 1).fits [tabRec] = false) ∧
    ((withKey (tabbed [⟨200, false⟩] []) (.func .tab)).turnOf (.func .tab) ∧
      (tabbed [⟨200, false⟩] [tabRec]).fits [tabRec] = true) ∧
    (let a := charRec 0x61
     let s := withKey (narrow [a, spaceRec, a] 3) (.char 0x61)
     (s.turnOf (.char 0x61) ∧ s.comp.source = .localKeys ∧ s.comp.mode = .line ∧ s.active .wheelMap ≠ none ∧
       s.natural [a, spaceRec, a, a] ≠ none ∧ s.fits [a, spaceRec, a, a] = false ∧ s.comp.cursor = s.comp.recs.length ∧
       s.set.autoReturn = true ∧ s.comp.outgoing = none ∧ s.set.holdOnMiss = false ∧ s.fits [a, a] = true) ∧
     (s.comp.recs = [a] ++ [spaceRec] ++ [a] ∧ [a].getLast? = some a ∧ a.kind ≠ .space ∧ a.kind ≠ .tab) ∧
     (noMaps s).active .wheelMap = none ∧ s.wheelEntry 0x62 = some .absent ∧ s.natural [tabRec] = none ∧
     ((narrow [a, spaceRec, a] 2).comp.cursor ≠ 3 ∧ (noAutoReturn s).set.autoReturn = false ∧
       (outgoingLine s []).comp.outgoing.isSome ∧ 200 ≤ (List.replicate 200 deadRec).length ∧
       s.fits [a, a, a, a] = false ∧ (∃ d ∈ [tabRec], d.kind = .tab))) := by
  and_intros <;> decide +kernel

/-- Twelve characters of 12 units between margins 120 apart, the cursor at the end. -/
def tooWide : State :=
  let s := inLine idle (List.replicate 12 (charRec 0x61)) 12
  { s with comp := { s.comp with left := 120, right := 240 } }

/-- Each editing key with the cursor behind one word, at the start, in an empty composition. -/
theorem witness_LineEditsAtTheCursor :
    (∀ f ∈ [Func.cursorLeft, .cursorRight], (withKey idle (.func f)).turnOf (.func f) ∧ idle.comp.mode = .direct) ∧
    (∀ f ∈ [Func.backspace, .correct], (withKey tooWide (.func f)).turnOf (.func f) ∧
      (withKey tooWide (.func f)).fits (List.replicate 11 (charRec 0x61)) = false) ∧
    (∀ f ∈ [Func.backspace, .correct, .wordCorrect, .lineCorrect, .cursorLeft, .cursorRight, .relocate],
      (rowOf true (.func f)).isSome ∧ (withKey (inLine idle [charRec 0x61, spaceRec] 1) (.func f)).turnOf (.func f) ∧
        (withKey (inLine idle [charRec 0x61, spaceRec] 2) (.func f)).turnOf (.func f) ∧
        (withKey (inLine idle [] 0) (.func f)).turnOf (.func f)) ∧
    (idle.comp.later = .none ∧ (inLine idle [spaceRec] 0).fits [spaceRec] = true ∧ (inLine idle [] 0).fits [] = true ∧
      (inLine idle [charRec 0x61, spaceRec] 1).comp.cursor ≤ (inLine idle [charRec 0x61, spaceRec] 1).comp.recs.length ∧
      1 < (inLine idle [charRec 0x61, spaceRec] 1).comp.recs.length ∧
      (inLine idle [charRec 0x61, spaceRec] 2).comp.cursor = (inLine idle [charRec 0x61, spaceRec] 2).comp.recs.length) := by
  decide +kernel

/-- RETURN needs 2 places: 62 and 63 orders queued; LF needs 1: 63 and 64; a paper key in LINE with an outgoing line, and
with 63 and 64 orders queued. -/
theorem witness_DirectLineEndsCloseTheLine :
    (∀ f ∈ [Func.returnKey, .paperUp, .paperDown, .halfUp, .halfDown],
      (withKey (loaded idle 62) (.func f)).turnOf (.func f) ∧ (withKey (loaded idle 62) (.func f)).comp.modeInEffect = .direct) ∧
    ((withKey (loaded idle 63) (.func .returnKey)).turnOf (.func .returnKey) ∧
      64 < (withKey (loaded idle 63) (.func .returnKey)).seq.queue.length + [Order.move 120, .index 2].length ∧
      (withKey (loaded idle 62) (.func .returnKey)).seq.queue.length + [Order.move 120, .index 2].length ≤ 64) ∧
    (∀ c ∈ [(0x0D : Byte), 0x0A, 0x0C],
      (remote (loaded idle 63) [c]).textTurn c [] ∧ (remote (loaded idle 63) [c]).comp.modeInEffect = .direct ∧
        (remote (loaded idle 63) [c]).seq.queue.length + [Order.indexPage].length ≤ 64 ∧
        (remote (loaded idle 64) [c]).textTurn c [] ∧ 64 < (remote (loaded idle 64) [c]).seq.queue.length + [Order.indexPage].length) ∧
    (∀ f ∈ [Func.paperUp, .paperDown, .halfUp, .halfDown],
      (withKey (outgoingLine (inLine idle [] 0) []) (.func f)).turnOf (.func f) ∧
        (withKey (inLine (loaded idle 64) [] 0) (.func f)).turnOf (.func f) ∧
        (withKey (inLine (loaded idle 63) [] 0) (.func f)).turnOf (.func f)) ∧
    ((outgoingLine (inLine idle [] 0) []).comp.outgoing.isSome ∧ 64 ≤ (inLine (loaded idle 64) [] 0).seq.queue.length ∧
      (inLine (loaded idle 63) [] 0).seq.queue.length < 64 ∧ (inLine (loaded idle 63) [] 0).comp.outgoing = none ∧
      (inLine (loaded idle 63) [] 0).comp.mode = .line ∧ (inLine (loaded idle 63) [] 0).seq.state ≠ .idle) := by
  and_intros <;> decide +kernel

theorem witness_DirectPositionKeysMoveThePosition :
    ((withKey (inLine idle [] 0) (.func .marginRelease)).turnOf (.func .marginRelease) ∧
      (inLine idle [] 0).comp.modeInEffect = .line) ∧
    ((withKey (typed idle .waiting) (.func .backspace)).turnOf (.func .backspace) ∧ (typed idle .waiting).comp.logical ≠ 0 ∧
      ((typed idle .waiting).line.entries.getLast?.map (fun e => decide (e.state ≠ .lifting))) = some true ∧
      (0 : Word) ∉ (typed idle .waiting).spell.marks) ∧
    (∀ f ∈ [Func.backspace, .tab, .marginRelease], (withKey idle (.func f)).turnOf (.func f)) ∧
    (idle.comp.modeInEffect = .direct ∧ idle.comp.source = .localKeys) ∧
    (nextStop [⟨120, false⟩, ⟨1080, false⟩] 120 1080 = some ⟨1080, false⟩ ∧ nextStop [⟨1081, false⟩] 120 1080 = none) ∧
    ((remote idle [0x08]).textTurn 0x08 [] ∧ (remote idle [0x09]).textTurn 0x09 [] ∧ (remote idle [0x1F]).textTurn 0x1F [] ∧
      (remote idle [0]).textTurn 0 [] ∧ (remote idle [0]).comp.modeInEffect = .direct ∧ (0x1F : Byte).toNat < 0x20) := by
  decide +kernel

/-- The position at the ends of the two margins' ranges and one unit beyond, at a boundary and in the middle of a line. -/
theorem witness_LineSettingKeysWaitForTheBoundary :
    (∀ f ∈ [Func.marginLeft, .marginRight, .pitchCycle, .modeToggle, .sourceToggle],
      (withKey idle (.func f)).turnOf (.func f) ∧ (withKey (typed idle .waiting) (.func f)).turnOf (.func f)) ∧
    (idle.comp.source = .localKeys ∧ (withKey idle (.func .marginLeft)).atBoundary = true ∧
      (withKey (typed idle .waiting) (.func .marginLeft)).atBoundary = false) ∧
    ((atPosition idle 960).comp.logical + 120 ≤ idle.comp.later.right.getD idle.comp.right ∧
      idle.comp.later.right.getD idle.comp.right < (atPosition idle 961).comp.logical + 120 ∧
      1439 < (atPosition idle 1440).comp.logical) ∧
    ((atPosition idle 1559).comp.logical ≤ 1559 ∧ idle.comp.later.left.getD idle.comp.left + 120 ≤ 240 ∧
      239 < idle.comp.later.left.getD idle.comp.left + 120 ∧ 1559 < (atPosition idle 1560).comp.logical) ∧
    (idle.comp.later.pitch.getD idle.comp.pitch = .p10 ∧ idle.comp.later.mode.getD idle.comp.mode = .direct ∧
      idle.comp.later.source.getD idle.comp.source = .localKeys) := by decide +kernel

def keyed (s : State) (f : Func) : State := withKey s (.func f)

theorem witness_TabKeysTogglesAndThePauseKey :
    ((keyed idle .tabSet).turnOf (.func .tabSet) ∧ (keyed idle .decimalTabSet).turnOf (.func .decimalTabSet) ∧
      (keyed idle .tabClear).turnOf (.func .tabClear) ∧ idle.comp.source = .localKeys) ∧
    (1559 < (atPosition idle 1560).comp.logical ∧ (atPosition idle 1559).comp.logical ≤ 1559 ∧
      (∀ u ∈ (keyed (tabbed (manyStops 24) []) .tabSet).comp.tabs, u.pos ≠ 120) ∧
      24 ≤ (keyed (tabbed (manyStops 24) []) .tabSet).comp.tabs.length ∧
      (keyed (tabbed (manyStops 24) []) .tabSet).turnOf (.func .tabSet) ∧
      (keyed (tabbed (manyStops 23) []) .tabSet).comp.tabs.length < 24 ∧
      (∃ u ∈ (atPosition (tabbed [⟨200, false⟩] [tabRec]) 200).comp.tabs, u.pos = 200) ∧
      (tabbed [] [tabRec]).fits [tabRec] = false ∧ (tabbed [⟨120, false⟩] []).fits [] = true) ∧
    ((keyed idle .justifyCycle).quiet ∧ (keyed idle .justifyCycle).selected = some (.func .justifyCycle) ∧
      (keyed idle .justifyCycle).comp.mode = .direct ∧ (keyed (inLine idle [] 0) .justifyCycle).quiet ∧
      (keyed (inLine idle [] 0) .justifyCycle).comp.mode = .line ∧ (keyed (inLine idle [] 0) .justifyCycle).comp.choice = .ragged) ∧
    (∀ f ∈ [Func.boldToggle, .underlineToggle, .spellToggle, .pause],
      (keyed idle f).quiet ∧ (keyed idle f).selected = some (.func f)) ∧
    { keyed idle .spellToggle with set := { idle.set with spell := true } }.set.spell = true ∧
    ((keyed (inState .running .none) .pause).quiet ∧ (keyed (inState .running .none) .pause).seq.flight = none ∧
      (keyed (running idle (.move 240) (.moving 1)) .pause).quiet ∧
      (keyed (running idle (.move 240) (.moving 1)) .pause).seq.flight ≠ none ∧
      (keyed (inState .paused .paper) .pause).quiet ∧ (keyed (inState .paused .paper) .pause).seq.reason = .paper ∧
      (keyed (inState .paused .paper) .pause).seq.pauseReq = none ∧ (keyed (inState .paused .paper) .pause).seq.queue = []) ∧
    (∀ o ∈ [Order.strike 0x61 240 .base none 0, .lift 1 17 240 6 none, .index 2],
      (keyed (pausedAt o) .pause).quiet ∧ (keyed (pausedAt o) .pause).selected = some (.func .pause) ∧
        (keyed (pausedAt o) .pause).seq.state = .paused ∧ (keyed (pausedAt o) .pause).seq.reason ≠ .paper ∧
        (keyed (pausedAt o) .pause).seq.pauseReq = none ∧ (keyed (pausedAt o) .pause).seq.queue ≠ []) := by
  and_intros <;> decide +kernel

def wordWith (letters : List Nat) (digit : Bool) : State :=
  { withWord idle .miss with spell := { idle.spell with
      words := [{ word .miss with letters := letters, length := letters.length, digit := digit }], nextWord := 1 } }

def withUsers (s : State) (l : List (List Nat)) : State := { s with spell := { s.spell with users := l } }

theorem witness_WordKeysAndLookupsGiveVerdicts :
    ((keyed (withWord idle .miss) .acceptWord).turnOf (.func .acceptWord) ∧
      (keyed (withWord idle .miss) .acceptWord).targetWord = some (word .miss) ∧ (word .miss).verdict = .miss) ∧
    ((keyed (withWord idle .known) .acceptWord).turnOf (.func .acceptWord) ∧
      (keyed (withWord idle .known) .acceptWord).targetWord = some (word .known) ∧ (word .known).verdict ≠ .miss) ∧
    ((keyed idle .addWord).turnOf (.func .addWord) ∧ (keyed idle .addWord).targetWord = none) ∧
    ((keyed (wordWith [1] false) .addWord).turnOf (.func .addWord) ∧
      ((keyed (wordWith [1] false) .addWord).targetWord.map SpellWord.length) = some 1) ∧
    ((keyed (withUsers (wordWith [1, 2] false) (List.replicate 64 [1, 1])) .addWord).turnOf (.func .addWord) ∧
      [1, 2] ∉ List.replicate 64 [1, 1] ∧ 64 ≤ (List.replicate 64 [1, 1]).length ∧ [1, 1] ∈ List.replicate 64 [1, 1]) ∧
    ((keyed (withUsers (wordWith (List.replicate 24 1) false) (List.replicate 63 [1, 1])) .addWord).turnOf (.func .addWord) ∧
      List.replicate 24 1 ∉ List.replicate 63 [1, 1] ∧ (List.replicate 63 [1, 1]).length < 64) ∧
    ((looking [1, 2]).quiet ∧ (looking [1, 2]).spell.engine = some ⟨0, 0, [1, 2], bucketStart tables 1504 [1, 2], 100⟩ ∧ (looking [1, 2]).spell.sweep = none ∧
      (looking [1, 2]).activeBase .lexicon = some 1504 ∧
      ((looking [1, 2]).spell.words.find? (fun u => u.num = 0)).map (fun w => (w.gen, w.verdict)) = some (0, .pending) ∧
      (scanLexicon (looking [1, 2]).tab.mem 1504 [1, 2]).1 = true ∧ (scanLexicon (looking [1, 1]).tab.mem 1504 [1, 1]).1 = false) ∧
    ((withUsers { looking [1, 2] with spell := { (looking [1, 2]).spell with words := [word .user] } } []).spell.words.find?
      (fun u => u.num = 0)).map SpellWord.verdict = some .user := by
  and_intros <;> decide +kernel

/-- The line of the correction witnesses: the entry behind another, which may be a space. -/
def corrected (f : Func) (l : List Entry) (queue : List Order) : State :=
  keyed { idle with
    line := { idle.line with entries := l, nextSeq := 9 }
    comp := { idle.comp with logical := 144 }
    seq := { idle.seq with queue := queue, state := .paused } } f

def spaceEntry : Entry := ⟨7, 0x20, .space, 108, 12, [], 0, false, none⟩
def liftingEntry : Entry := { entryA (.printed 1 17 6) with seqNum := 8, outstanding := 1 }

theorem witness_CorrectionKeysTakeBackTheNewestEntry :
    ((keyed idle .correct).turnOf (.func .correct) ∧ (keyed idle .wordCorrect).turnOf (.func .wordCorrect) ∧
      (keyed idle .lineCorrect).turnOf (.func .lineCorrect) ∧ (keyed idle .relocate).turnOf (.func .relocate) ∧
      idle.comp.source = .localKeys ∧ idle.comp.mode = .direct ∧ idle.line.run = none ∧
      ([spaceEntry, entryA .waiting, liftingEntry].map Entry.seqNum).Nodup) ∧
    ((∀ e ∈ [liftingEntry], e.state = .lifting) ∧ 0 < { idle.line with dropped := 1 }.dropped) ∧
    ((corrected .correct [spaceEntry, entryA .waiting, liftingEntry] []).turnOf (.func .correct) ∧
      (entryA .waiting).state = .queued ∧ (entryA .inFlight).state = .inFlight ∧ (entryA (.printed 1 17 6)).state = .inked ∧
      spaceEntry.state = .inked ∧ spaceEntry.strikes = []) ∧
    ((entryA .waiting).kind ≠ .space ∧
      ([spaceEntry].filter (fun d => d.state ≠ .lifting)).getLast? = some spaceEntry ∧ spaceEntry.kind = .space) ∧
    ((∃ k ∈ (entryA (.printed 1 16 6)).strikes, k.status = .printed 1 16 6) ∧ 16 ≠ idle.seq.wheelCode ∧
      (∀ k ∈ (entryA (.printed 1 17 6)).strikes, k.status = .printed 1 17 6) ∧ 17 = idle.seq.wheelCode) ∧
    ((corrected .correct [entryA (.printed 1 17 6)] (List.replicate 64 .indexPage)).turnOf (.func .correct) ∧
      64 < (List.replicate 64 Order.indexPage).length + 1 ∧ (List.replicate 63 Order.indexPage).length + 1 ≤ 64 ∧
      (corrected .correct [entryA (.printed 1 17 6)] (List.replicate 63 .indexPage)).turnOf (.func .correct) ∧
      (corrected .correct [] []).seq.state ≠ .idle) ∧
    ((corrected .relocate [] (List.replicate 64 .indexPage)).turnOf (.func .relocate) ∧
      64 ≤ (corrected .relocate [] (List.replicate 64 .indexPage)).seq.queue.length ∧
      (corrected .relocate [] (List.replicate 63 .indexPage)).seq.queue.length < 64) := by
  and_intros <;> decide +kernel


/-- A full print queue whose head MOVE completes, or another one, with a key or a character waiting for room. -/
def roomWait (s : State) (key text : Option WaitCause) (f : Flight) : State :=
  { s with
    seq := { idle.seq with state := .running, queue := .move 240 :: List.replicate 63 .indexPage, flight := some f }
    comp := { s.comp with keyWait := key, textWait := text } }

/-- What the step leaves before the items are evaluated again. -/
def unsettled (i : Instr) (s : State) : State :=
  (run i { s with comp := { s.comp with keyWait := none, textWait := none } }).getD s

/-- The last entry is being lifted, and SOURCE LOCAL waits for the line boundary that its removal reaches. -/
def backToLocal : State :=
  let s := withKey (remote idle [0x61]) (.func .halfUp)
  { s with
    line := { s.line with entries := [{ entryA (.printed 1 17 6) with outstanding := 1 }], nextSeq := 1 }
    seq := { s.seq with
      state := .running, queue := [.lift 1 17 120 6 (some 0)], flight := some (.recover 1 6 3000) }
    comp := { s.comp with
      keyWait := some .room, textWait := some .room
      later := { s.comp.later with source := some .localKeys } } }

/-- A remote character that waits for a wheel map in PS, one QUEUED entry before it and PITCH P10 pending. -/
def psWaiting : State :=
  let s := inPs (noMaps (remote (typed idle .waiting) [0x61]))
  { s with comp := { s.comp with textWait := some .wheelMap, later := { s.comp.later with pitch := some .p10 } } }

/-- RESTART MECH removes the entry, so that P10 goes into force, and the character is then taken (R28, R107). -/
theorem test_restart_mech_evaluates_what_waits :
    gives .restartMech psWaiting (fun t => (t.comp.pitch, t.comp.textWait, t.txt.queue, t.line.entries.map Entry.code))
      (.p10, none, [], [0x61]) := by decide +kernel

/-- MOVE_COMPLETE frees a place; OVERCURRENT on a channel at rest frees none; a key, a character and both wait for it. -/
theorem witness_WaitingItemsAreEvaluatedAgain :
    let key := roomWait (withKey idle (.char 0x61)) (some .room) none (.moving 1)
    let text := roomWait (remote idle [0x61]) none (some .room) (.moving 1)
    let pair (c d : Option WaitCause) := roomWait (withKey (remote idle [0x61]) (.func .halfUp)) c d (.moving 1)
    let both := pair (some .room) (some .room)
    let keyStays := pair (some .outgoing) (some .room)
    let neither := pair (some .outgoing) (some .verdict)
    let keyReady := pair none (some .room)
    (goesOnByItself .moveComplete = true ∧ goesOnByItself (.overcurrent .paper) = true ∧
      (payloadOf .tabsClear).isSome ∧ sealingActive.ret.reserved = 1) ∧
    (key.resetHeld = false ∧ key.selected = some (.char 0x61) ∧ rowOf false (.char 0x61) = some .characterKeyAction ∧
      key.comp.keyWait = some .room ∧ key.comp.textWait = none ∧
      (run .moveComplete { key with comp := { key.comp with keyWait := none, textWait := none } }).isSome ∧
      (unsettled .moveComplete key).seq.queue.length < key.seq.queue.length ∧
      ¬(unsettled (.overcurrent .paper) key).seq.queue.length < key.seq.queue.length ∧
      (run .characterKeyAction (unsettled .moveComplete key)).isSome) ∧
    (text.selected = none ∧ text.comp.keyWait = none ∧ text.txt.queue = [0x61] ∧ text.comp.source = .remoteText ∧
      text.comp.textWait = some .room ∧ (unsettled .moveComplete text).seq.queue.length < text.seq.queue.length ∧
      textRowOf 0x61 = .remotePrintableChar ∧ (run .remotePrintableChar (unsettled .moveComplete text)).isSome) ∧
    (both.selected = some (.func .halfUp) ∧ both.comp.source = .remoteText ∧
      (unsettled .moveComplete both).seq.queue.length < both.seq.queue.length ∧
      ((run .halfUp (unsettled .moveComplete both)).map (fun w => (w.comp.keyWait, w.comp.source, w.selected, w.keyReady)))
        = some (none, .remoteText, none, false)) ∧
    (keyStays.comp.outgoing = none ∧ (unsettled .moveComplete keyStays).seq.queue.length < keyStays.seq.queue.length ∧
      (unsettled .moveComplete keyStays).comp.source = .remoteText ∧
      { unsettled .moveComplete keyStays with comp := { keyStays.comp with textWait := none } }.keyReady = false ∧
      (run .remotePrintableChar { unsettled .moveComplete keyStays with
        comp := { keyStays.comp with textWait := none } }).isSome) ∧
    (neither.comp.outgoing = none ∧ neither.spell.words = [] ∧
      (unsettled .moveComplete neither).set.holdOnMiss = neither.set.holdOnMiss ∧
      (unsettled .moveComplete neither).comp.source = .remoteText) ∧
    (keyReady.comp.keyWait = none ∧ keyReady.comp.textWait = some .room ∧ keyReady.txt.queue = [0x61] ∧
      (unsettled .moveComplete keyReady).keyReady = true ∧
      (unsettled .moveComplete keyReady).seq.queue.length < keyReady.seq.queue.length ∧
      (unsettled .moveComplete keyReady).comp.source = .remoteText) ∧
    (backToLocal.comp.source = .remoteText ∧ backToLocal.selected = some (.func .halfUp) ∧
      backToLocal.comp.keyWait = some .room ∧ backToLocal.comp.textWait = some .room ∧ goesOnByItself .recoverComplete = true ∧
      (unsettled .recoverComplete backToLocal).comp.source = .localKeys) ∧
    ((payloadOf .restartMech).isSome ∧ psWaiting.ret.hasFree = true ∧ psWaiting.comp.keyWait = none ∧
      psWaiting.comp.source = .remoteText ∧ psWaiting.comp.textWait = some .wheelMap ∧ psWaiting.txt.queue = [0x61] ∧
      (unsettled .restartMech psWaiting).comp.source = .remoteText ∧
      (unsettled .restartMech psWaiting).keyReady = false) := by
  and_intros <;> decide +kernel

/-- 'a' at 1068, whose end is the margin, and at 1069; 62 to 64 orders queued; 200 entries; a key in REMOTE source. -/
theorem witness_RemoteCharactersArePlaced :
    ((inPs (noMaps (remote idle [0x61]))).textTurn 0x61 [] ∧ (inPs (noMaps (remote idle [0x61]))).noWidth ∧
      32 ≤ (0x20 : Byte).toNat) ∧
    ((atPosition (noAutoReturn (remote idle [0x61])) 1069).textTurn 0x61 [] ∧
      ¬(atPosition (noAutoReturn (remote idle [0x61])) 1069).noWidth ∧
      1080 < 1069 + (atPosition (noAutoReturn (remote idle [0x61])) 1069).advance 0x61 false) ∧
    ((atPosition (remote (loaded idle 63) [0x61]) 1069).textTurn 0x61 [] ∧
      62 < (atPosition (remote (loaded idle 63) [0x61]) 1069).seq.queue.length ∧
      (atPosition (remote (loaded idle 62) [0x61]) 1069).textTurn 0x61 [] ∧
      (atPosition (remote (loaded idle 62) [0x20]) 1069).textTurn 0x20 [] ∧
      (atPosition (remote (loaded idle 62) [0x61]) 1069).seq.queue.length ≤ 62 ∧
      ((atPosition (remote (loaded idle 62) [0x61]) 1069).lineEnd .full).comp.source = .remoteText ∧
      ((atPosition (remote (loaded idle 62) [0x61]) 1069).lineEnd .full).comp.logical
        + ((atPosition (remote (loaded idle 62) [0x61]) 1069).lineEnd .full).advance 0x61 false
        ≤ ((atPosition (remote (loaded idle 62) [0x61]) 1069).lineEnd .full).comp.right) ∧
    ((remote idle [0x62]).textTurn 0x62 [] ∧ (remote idle [0x62]).wheelEntry 0x62 = some .absent) ∧
    ((atPosition (remote (loaded idle 64) [0x61]) 1068).textTurn 0x61 [] ∧
      1068 + (atPosition (remote (loaded idle 64) [0x61]) 1068).advance 0x61 false ≤ 1080 ∧
      64 < 64 + ordersOf (remote (loaded idle 64) [0x61]) 0x61 false ∧
      63 + ordersOf (remote (loaded idle 63) [0x61]) 0x61 false ≤ 64 ∧ (remote (loaded idle 63) [0x61]).seq.state ≠ .idle) ∧
    ((remote (crowded idle 200) [0x61]).textTurn 0x61 [] ∧ ((crowded idle 200).line.entries.map Entry.seqNum).Nodup) ∧
    (rowOf true (.func .returnKey) = some .returnKey ∧ (keyed (remote idle []) .returnKey).turnOf (.func .returnKey) ∧
      (keyed (remote idle []) .returnKey).comp.source = .remoteText) := by
  and_intros <;> decide +kernel

def placeA : Placement := ⟨.char, 0x61, 120, 12, [⟨.base, 0x61, 120⟩]⟩

/-- "a" in LINE under HOLD_ON_MISS, its word complete with a verdict. -/
def heldLine (v : Verdict) (override : Bool) : State :=
  { keyed (inLine idle [charRec 0x61] 1) .returnKey with
    set := { idle.set with holdOnMiss := true }
    comp := { (inLine idle [charRec 0x61] 1).comp with override := override }
    spell := { idle.spell with words := [word v], nextWord := 1 } }

/-- With an outgoing line; without; abandoning its justification; under HOLD_ON_MISS with a PENDING word, a MISS, the
override, and a KNOWN word; placements at 64 and 65 orders; the line end at 62 and 63, the cursor anywhere. -/
theorem witness_ReleasesBecomeTheOutgoingLine :
    ((∀ v ∈ [Verdict.pending, .miss, .known], (heldLine v false).turnOf (.func .returnKey) ∧
        (heldLine v false).set.holdOnMiss = true ∧ (heldLine v false).comp.override = false ∧
        (heldLine v false).comp.outgoing = none ∧ (heldLine v false).comp.mode = .line ∧
        (heldLine v false).spell.sweep = none ∧ (heldLine v false).spell.checkq = []) ∧
      (heldLine .miss true).comp.override = true ∧ (heldLine .miss true).turnOf (.func .returnKey) ∧
      (word .pending).complete = true ∧ (word .pending).detached = false ∧
      (word .pending).last < (heldLine .pending false).comp.recs.length) ∧
    ((keyed (outgoingLine (inLine idle [charRec 0x61] 1) []) .returnKey).turnOf (.func .returnKey) ∧
      (keyed (outgoingLine (inLine idle [charRec 0x61] 1) []) .returnKey).comp.outgoing.isSome) ∧
    ((keyed (inLine idle [charRec 0x61] 1) .returnKey).turnOf (.func .returnKey) ∧
      (keyed (inLine idle [charRec 0x61] 1) .returnKey).comp.outgoing = none ∧
      (keyed (inLine idle [charRec 0x61] 1) .returnKey).set.holdOnMiss = false ∧
      (State.applyChoice (inLine idle [charRec 0x61] 1) .ragged [charRec 0x61]
        (((inLine idle [charRec 0x61] 1).natural [charRec 0x61]).getD [])).abandoned = none) ∧
    (State.applyChoice (inLine idle [charRec 0x61, spaceRec, charRec 0x61] 3) .justify [charRec 0x61, spaceRec, charRec 0x61]
        (((inLine idle [charRec 0x61, spaceRec, charRec 0x61] 3).natural [charRec 0x61, spaceRec, charRec 0x61]).getD [])).abandoned.isSome ∧
    ((outgoingLine (loaded idle 64) [placeA]).quiet ∧ (outgoingLine (loaded idle 64) [placeA]).seq.state ≠ .idle ∧
      64 < 64 + (placeA.strikes.filter (fun k => k.pos ≤ 1559)).length ∧
      63 + (placeA.strikes.filter (fun k => k.pos ≤ 1559)).length ≤ 64) ∧
    (62 < (outgoingLine (loaded idle 63) []).seq.queue.length ∧ (outgoingLine (loaded idle 62) []).seq.queue.length ≤ 62 ∧
      (outgoingLine (inLine (loaded idle 62) [] 0) []).comp.source = .localKeys ∧
      (outgoingLine (inLine (loaded idle 62) [] 0) []).comp.mode = .line ∧
      (outgoingLine (inLine (loaded idle 62) [charRec 0x61] 1) []).comp.recs ≠ [] ∧
      (outgoingLine (inLine (loaded idle 62) [] 0) []).quiet) := by
  and_intros <;> decide +kernel

def strikeO : Order := .strike 0x61 120 .base (some 0) 0
def heated (s : State) (h : Nat) : State := { s with seq := { s.seq with heat := h } }

/-- H plus the level at 255 and at 256, in POSITION and at the decay tick. -/
theorem witness_StrikesPassTheHeatCheck :
    ((heated (running idle strikeO (.position 1 6 10)) 249).quiet ∧
      (heated (running idle strikeO (.position 1 6 10)) 249).seq.queue = strikeO :: [] ∧
      (heated (running idle strikeO (.position 1 6 10)) 249).seq.flight = some (.position 1 6 10) ∧
      (heated (running idle strikeO (.position 1 6 10)) 249).seq.liftTarget = none ∧ 249 + 6 ≤ 255 ∧
      (heated (running idle strikeO (.position 1 6 10)) 250).quiet ∧ 255 < 250 + 6) ∧
    ((∀ petal level, idle.seq.flight ≠ some (.heatWait petal level)) ∧ idle.resetHeld = false ∧
      (heated (running idle strikeO (.heatWait 1 6)) 250).seq.flight = some (.heatWait 1 6) ∧ 250 - 1 + 6 ≤ 255 ∧
      (heated (running idle strikeO (.heatWait 1 6)) 251).seq.flight = some (.heatWait 1 6) ∧ 255 < 251 - 1 + 6) := by
  refine ⟨by decide +kernel, ?_, by decide +kernel⟩
  intro p l h
  exact absurd h (by simp [idle, Sequencer.held])

/-- One 'a' being taken back by one or two LIFT orders. -/
def lifting (n : Nat) (skipped : Bool) : State :=
  { running idle (.lift 1 17 120 8 (some 0)) (.recover 1 8 3000) with
    line := { idle.line with
      entries := [{ entryA (.printed 1 17 6) with outstanding := n, liftSkipped := skipped }], nextSeq := 1 } }

theorem witness_OrdersCompleteAndLeaveTheQueue :
    ((running idle strikeO (.pulse 1 6 350)).quiet ∧ (running idle strikeO (.pulse 1 6 350)).seq.queue = strikeO :: [] ∧
      (running idle strikeO (.pulse 1 6 350)).seq.flight = some (.pulse 1 6 350) ∧
      (running idle strikeO (.pulse 1 6 350)).seq.coverStop = false) ∧
    ((running (typed idle .inFlight) strikeO (.recover 1 6 3000)).quiet ∧
      (running (typed idle .inFlight) strikeO (.recover 1 6 3000)).seq.flight = some (.recover 1 6 3000)) ∧
    ((running idle (.lift 1 17 120 8 none) (.recover 1 8 3000)).seq.queue = .lift 1 17 120 8 none :: [] ∧
      (lifting 2 false).seq.queue = .lift 1 17 120 8 (some 0) :: [] ∧ (lifting 2 false).quiet ∧
      ((lifting 2 false).line.entries.find? (fun d => d.seqNum = 0)).map Entry.outstanding = some 2 ∧
      ((lifting 1 true).line.entries.find? (fun d => d.seqNum = 0)).map (fun e => (e.outstanding, e.liftSkipped)) = some (1, true) ∧
      ((lifting 1 false).line.entries.find? (fun d => d.seqNum = 0)).map (fun e => (e.outstanding, e.liftSkipped)) = some (1, false)) ∧
    ((running idle (.move 1559) (.moving 1)).quiet ∧ (running idle (.move 1559) (.moving 1)).seq.flight = some (.moving 1)) ∧
    ((running idle (.index (-1)) (.indexing 1 9000)).quiet ∧
      (running idle (.index (-1)) (.indexing 1 9000)).seq.flight = some (.indexing 1 9000) ∧
      131 = (((running idle (.index (-1)) (.indexing 1 9000)).seq.paperPos + (-1 : Int))
        % (2 * (running idle (.index (-1)) (.indexing 1 9000)).set.pageLength : Nat)).toNat ∧
      (running idle .indexPage (.indexing 132 533000)).seq.state = .running) := by
  and_intros <;> decide +kernel

/-- RUNNING with a queue and nothing in flight. -/
def heading (l : List Order) : State := { idle with seq := { idle.seq with state := .running, queue := l } }
def expecting (s : State) (n : Nat) : State := { s with set := { s.set with expectedWheel := n } }

theorem witness_TheHeadOrderStarts :
    ((heading []).seq.state = .running ∧ (heading []).seq.flight = none ∧ (heading []).seq.pauseReq = none ∧
      (heading []).seq.queue = [] ∧ { (heading []).seq with pauseReq := some .key }.pauseReq = some .key) ∧
    ((expecting (heading [strikeO]) 16).seq.queue = strikeO :: [] ∧ (expecting (heading [strikeO]) 16).set.expectedWheel ≠ 0 ∧
      (expecting (heading [strikeO]) 16).set.expectedWheel ≠ (heading [strikeO]).seq.wheelCode ∧
      (expecting (heading [strikeO]) 17).set.expectedWheel = (heading [strikeO]).seq.wheelCode ∧
      (noMaps (heading [strikeO])).active .wheelMap = none ∧ (heading [strikeO]).active .wheelMap ≠ none ∧
      (heading [strikeO]).wheelEntry 0x61 = some (.petal 1 3 10 false) ∧ (heading [strikeO]).wheelEntry 0x62 = some .absent) ∧
    ((heading [.lift 1 17 120 8 none]).seq.wheelCode = 17 ∧ 16 ≠ (heading [.lift 1 16 120 8 none]).seq.wheelCode ∧
      ((lifting 2 false).line.entries.find? (fun d => d.seqNum = 0)).map Entry.outstanding = some 2 ∧
      ((lifting 1 false).line.entries.find? (fun d => d.seqNum = 0)).map Entry.outstanding = some 1) ∧
    ((heading [.move 120]).seq.carriage = some 120 ∧ (heading [.move 1559]).seq.carriage ≠ some 1559 ∧
      (heading [.index (-2)]).seq.queue = .index (-2) :: [] ∧ (heading [.indexPage]).seq.queue = .indexPage :: []) := by
  and_intros <;> decide +kernel

def liftMoving (s : State) (d : LiftPos) : State := { s with seq := { s.seq with lift := some .ribbon, liftTarget := some d } }

theorem witness_TheLiftMovesAndRests :
    ((liftMoving (running idle strikeO (.position 1 6 10)) .rest).quiet ∧
      (liftMoving (running idle strikeO (.position 1 6 10)) .rest).seq.liftTarget = some .rest ∧
      (liftMoving (running idle strikeO (.position 1 6 10)) .rest).seq.flight = some (.position 1 6 10) ∧
      (liftMoving (running idle strikeO (.position 1 6 10)) .rest).seq.queue = strikeO :: []) ∧
    ((liftMoving idle .rest).quiet ∧ ∀ petal level us, (liftMoving idle .rest).seq.flight ≠ some (.position petal level us)) ∧
    (idle.resetHeld = false ∧ idle.seq.lift = some .rest ∧
      { idle.seq with lift := some .ribbon }.lift ≠ some .rest ∧ { idle.seq with lift := some .ribbon }.liftTarget = none ∧
      { idle.seq with lift := some .ribbon }.flight = none ∧ { idle.seq with lift := some .ribbon }.state ≠ .halted) := by
  refine ⟨by decide +kernel, ⟨by decide +kernel, ?_⟩, by decide +kernel⟩
  intro p l u h
  exact absurd h (by simp [liftMoving, idle, Sequencer.held])

def covered (s : State) : State := { s with coverOpen := true }
def coverStopped (s : State) : State := { s with coverOpen := true, seq := { s.seq with coverStop := true } }

theorem witness_TheCoverStopsAndHomes :
    ((covered idle).quiet ∧ (covered idle).coverOpen = true ∧ idle.coverOpen = false) ∧
    ((inState .halted .none).quiet ∧ (inState .coverOpen .none).quiet ∧ (inState .paused .paper).quiet ∧
      (inState .wheelWait .noMap).quiet ∧ (inState .unhomed .none).quiet ∧ (heading [strikeO]).quiet ∧
      (heading [strikeO]).seq.flight = none) ∧
    ((homingAt (.ret 1559)).quiet ∧ (homingAt (.ret 1559)).seq.state = .homing ∧
      (homingAt (.ret 1559)).seq.homing = some (.ret 1559)) ∧
    ((running idle strikeO (.position 1 6 10)).quiet ∧ (running idle strikeO (.position 1 6 10)).seq.queue = strikeO :: [] ∧
      (running idle strikeO (.position 1 6 10)).seq.flight = some (.position 1 6 10) ∧
      (running idle strikeO (.position 1 6 10)).seq.carriage = some 120 ∧
      (running idle strikeO (.heatWait 1 6)).seq.flight = some (.heatWait 1 6) ∧
      (running idle (.move 1559) (.moving 1)).seq.flight = some (.moving 1) ∧
      (running idle (.index (-2)) (.indexing 2 13000)).seq.flight = some (.indexing 2 13000) ∧ 2 = (-2 : Int).natAbs ∧
      (running idle strikeO (.pulse 1 6 350)).seq.flight = some (.pulse 1 6 350) ∧
      (running idle strikeO (.recover 1 6 3000)).seq.flight = some (.recover 1 6 3000)) ∧
    ((running idle .indexPage (.indexing 132 533000)).quiet ∧
      (running idle .indexPage (.indexing 132 533000)).seq.flight = some (.indexing 132 533000) ∧
      (lifting 2 false).quiet ∧ (lifting 2 false).seq.flight = some (.recover 1 8 3000) ∧
      (lifting 2 false).seq.queue = .lift 1 17 120 8 (some 0) :: [] ∧
      ((lifting 2 false).line.entries.find? (fun d => d.seqNum = 0)).map Entry.outstanding = some 2 ∧
      ((lifting 1 true).line.entries.find? (fun d => d.seqNum = 0)).map (fun e => (e.outstanding, e.liftSkipped)) = some (1, true) ∧
      ((lifting 1 false).line.entries.find? (fun d => d.seqNum = 0)).map (fun e => (e.outstanding, e.liftSkipped)) = some (1, false) ∧
      (running idle (.lift 1 17 120 8 none) (.recover 1 8 3000)).seq.queue = .lift 1 17 120 8 none :: [] ∧
      (coverStopped (running idle (.lift 1 17 120 8 none) (.pulse 1 8 400))).quiet ∧
      (coverStopped (running idle (.lift 1 17 120 8 none) (.pulse 1 8 400))).seq.flight = some (.pulse 1 8 400)) ∧
    ((coverStopped (running idle strikeO (.pulse 1 6 350))).quiet ∧
      (coverStopped (running idle strikeO (.pulse 1 6 350))).seq.coverStop = true ∧
      (coverStopped (running idle strikeO (.pulse 1 6 350))).seq.state = .running) ∧
    (idle.seq.state ≠ .coverOpen ∧ (covered (inState .coverOpen .none)).quiet ∧
      (covered (inState .coverOpen .none)).seq.homing = none) := by
  and_intros <;> decide +kernel

/-- Each step; the reads at their first, at a pair, and at four without one. -/
theorem witness_HomingPlacesTheMechanism :
    ((homingAt .home).quiet ∧ (homingAt .home).seq.homing = some .home ∧
      (homingAt (.ret 1559)).seq.homing = some (.ret 1559) ∧ (homingAt .index).seq.homing = some .index) ∧
    ((homingAt (.ident [])).seq.homing = some (.ident []) ∧ [63].getLast? = some (63 : BitVec 6).toNat ∧
      [1, 2, 3].getLast? = some 3 ∧ 3 ≠ (4 : BitVec 6).toNat ∧ [1, 2, 3].length = 3 ∧ [1, 2].getLast? = some 2 ∧
      [1, 2].length ≠ 3) ∧
    (State.active { homingAt (.ident [17]) with seq := { idle.seq with wheelCode := 17 } } .wheelMap = some 0 ∧
      State.active { homingAt (.ident [17]) with seq := { idle.seq with wheelCode := 0 } } .wheelMap ≠ some 0) := by
  decide +kernel

def maskedReport (s : State) : State :=
  { s with set := { s.set with maskOpenLoad := .report, maskHomeNotFound := .report, maskIndexLost := .report } }
def faultList (n : Nat) : List FaultRec := List.replicate n ⟨.openLoad, .lift, 1, true⟩

theorem witness_FaultsAreListedAndStopTheMechanism :
    ((haltedWith [⟨.overcurrent, .lift, 255, true⟩]).drv.faults.find? (fun f => f.kind = .overcurrent && f.ch = .lift)
        = some ⟨.overcurrent, .lift, 255, true⟩ ∧
      (∀ f ∈ faultList 7, ¬(f.kind = .overcurrent ∧ f.ch = .lift)) ∧ (faultList 7).length < 8 ∧
      (∀ f ∈ faultList 8, ¬(f.kind = .overcurrent ∧ f.ch = .lift)) ∧ 8 ≤ (faultList 8).length) ∧
    ((homingAt .home).quiet ∧ (homingAt .home).seq.state = .homing ∧ (homingAt .home).seq.flight = none ∧
      (homingAt .home).seq.coverStop = false ∧ (homingAt .home).set.maskHomeNotFound = .halt ∧
      (maskedReport (homingAt .home)).quiet ∧ (maskedReport (homingAt .home)).set.maskHomeNotFound = .report ∧
      (homingAt .index).quiet ∧ (homingAt .index).set.maskIndexLost = .halt ∧
      (maskedReport (homingAt .index)).set.maskIndexLost = .report) ∧
    (idle.quiet ∧ idle.driveState .carriage ≠ .driving) ∧
    ((running idle strikeO (.pulse 1 6 350)).quiet ∧ (running idle strikeO (.pulse 1 6 350)).seq.state = .running ∧
      (running idle strikeO (.pulse 1 6 350)).seq.homing = none ∧
      (running idle strikeO (.pulse 1 6 350)).seq.queue = .strike 0x61 120 .base (some 0) 0 :: []) ∧
    ((running idle (.lift 1 17 120 8 none) (.pulse 1 8 400)).quiet ∧
      (running idle strikeO (.position 1 6 10)).seq.petal ≠ some 1 ∧
      (running idle (.strike 0x61 240 .base none 0) (.position 1 6 10)).seq.carriage ≠ some 240 ∧
      (liftMoving (running idle strikeO (.position 1 6 10)) .ribbon).seq.liftTarget.isSome ∧
      (running idle (.move 1559) (.moving 1)).seq.flight = some (.moving 1) ∧
      (liftMoving (running idle (.move 1559) (.moving 1)) .rest).seq.liftTarget.isSome ∧
      (running idle (.index (-2)) (.indexing 2 13000)).seq.flight = some (.indexing 2 13000) ∧ 2 = (-2 : Int).natAbs ∧
      (running idle .indexPage (.indexing 132 533000)).seq.flight = some (.indexing 132 533000)) ∧
    ((homingAt (.ret 1559)).seq.homing = some (.ret 1559) ∧ (homingAt (.ident [])).seq.homing = some (.ident []) ∧
      (liftMoving (homingAt (.test .paper)) .rest).seq.liftTarget.isSome) ∧
    ((liftMoving idle .rest).quiet ∧ (liftMoving idle .rest).seq.state = .idle ∧ (liftMoving idle .rest).seq.liftTarget.isSome ∧
      (liftMoving (inState .paused .key) .rest).seq.state = .paused ∧
      (liftMoving (inState .coverOpen .none) .rest).seq.state = .coverOpen) := by
  and_intros <;> decide +kernel

def testing (s : State) : State := { s with drv := { s.drv with rotTest := some .running } }

theorem witness_OffStateTestsRunInHomingAndRotation :
    (idle.resetHeld = false ∧ idle.seq.state = .idle ∧ idle.drv.rotTest = none ∧ (heading []).seq.state ≠ .idle ∧
      (heading []).seq.state ≠ .halted ∧ (liftMoving idle .rest).driveState .lift = .driving ∧
      (liftMoving idle .rest).drv.rotTest = none ∧
      idle.driveState .carriage ≠ .driving ∧ idle.driveState .wheel ≠ .driving ∧ idle.driveState .hammer ≠ .driving ∧
      idle.driveState .lift ≠ .driving ∧ idle.driveState .paper ≠ .driving) ∧
    ((testing idle).quiet ∧ (testing idle).seq.flight = none ∧ (testing idle).seq.coverStop = false ∧
      (testing idle).seq.homing = none ∧ (testing idle).drv.rotTest = some .running ∧ (testing idle).drv.rotation = .carriage ∧
      (maskedReport (testing idle)).set.maskOpenLoad = .report ∧ (testing idle).set.maskOpenLoad = .halt ∧
      (testing (inState .halted .none)).seq.state = .halted) ∧
    ((homingAt (.test .carriage)).quiet ∧ (homingAt (.test .carriage)).seq.state = .homing ∧
      (homingAt (.test .carriage)).seq.homing = some (.test .carriage) ∧
      (homingAt (.test .paper)).seq.homing = some (.test .paper)) ∧
    ((expecting (homingAt (.test .paper)) 16).set.expectedWheel ≠ 0 ∧
      (expecting (homingAt (.test .paper)) 16).set.expectedWheel ≠ (homingAt (.test .paper)).seq.wheelCode ∧
      (noMaps (homingAt (.test .paper))).active .wheelMap = none ∧ (homingAt (.test .paper)).set.expectedWheel = 0 ∧
      (homingAt (.test .paper)).active .wheelMap ≠ none ∧ (homingAt (.test .paper)).seq.pauseReq = none ∧
      (homingAt (.test .paper)).seq.queue = [] ∧
      { (homingAt (.test .paper)).seq with pauseReq := some .command }.pauseReq = some .command ∧
      { (homingAt (.test .paper)).seq with queue := [strikeO] }.queue ≠ []) := by
  and_intros <;> decide +kernel

/-- The return line with a count, a credit, some reports and an image. -/
def returning (count : Nat) (reports : List Report) (im : Option Image) (unsent : Nat) : State :=
  { idle with
    ret := ⟨reports, 0, false, count, none⟩, txt := ⟨[], 96 - unsent, unsent, false⟩, disp := { idle.disp with slot := im } }

theorem witness_TheArbiterChoosesByPriority :
    ({ idle.ret with sending := some (.displayFirst Image.first) }.sending = some (.displayFirst Image.first)) ∧
    (idle.resetHeld = false ∧ (∀ im, idle.ret.sending ≠ some (.displayFirst im)) ∧
      (returning 4 [] (some Image.first) 96).disp.slot = some Image.first ∧
      (returning 4 [] (some Image.first) 96).ret.arbCount = 4) ∧
    (¬((returning 3 [] (some Image.first) 1).disp.slot.isSome ∧ (returning 3 [] (some Image.first) 1).ret.arbCount = 4) ∧
      0 < (returning 3 [] (some Image.first) 1).txt.unsent ∧ idle.txt.restate = true) ∧
    ((returning 3 [.event .linkLost false] (some Image.first) 0).ret.reports = [.event .linkLost false] ∧
      (returning 3 [.event .linkLost false] (some Image.first) 0).ret.arbCount ≠ 4 ∧
      ¬(0 < (returning 3 [.event .linkLost false] (some Image.first) 0).txt.unsent ∨
        (returning 3 [.event .linkLost false] (some Image.first) 0).txt.restate = true)) ∧
    ((returning 3 [] (some Image.first) 0).ret.reports = [] ∧ (returning 0 [] none 0).disp.slot = none ∧
      ¬(0 < (returning 0 [] none 0).txt.unsent ∨ (returning 0 [] none 0).txt.restate = true)) := by
  refine ⟨by decide +kernel, ⟨by decide +kernel, ?_, by decide +kernel⟩, by decide +kernel, by decide +kernel, by decide +kernel⟩
  intro im h
  exact absurd h (by simp [idle, ReturnLine.powerOn])

def sounding (p : Pattern) (n : Nat) (cut : Bool) : State := { idle with disp := { idle.disp with beeper := some ⟨p, n, cut⟩ } }

theorem witness_TheBeeperSoundsItsPatterns :
    ({ idle.set with beeper := false }.beeper = false ∧ idle.set.beeper = true ∧ idle.disp.beeper = none ∧
      (sounding .refused 0 false).disp.beeper = some ⟨.refused, 0, false⟩ ∧
      (sounding .bell 0 false).disp.beeper = some ⟨.bell, 0, false⟩ ∧
      (sounding .miss 0 true).disp.beeper = some ⟨.miss, 0, true⟩ ∧
      (sounding .miss 0 false).disp.beeper = some ⟨.miss, 0, false⟩ ∧
      (sounding .miss 1 false).disp.beeper = some ⟨.miss, 1, false⟩ ∧
      (sounding .miss 2 false).disp.beeper = some ⟨.miss, 2, false⟩ ∧ idle.resetHeld = false) := by decide +kernel

/-- A command waiting in a state at the borders of the invariants: H at 255, a strike at 1559, the last events. -/
def atBorders : State :=
  { heated (typed idle .waiting) 255 with
    pending := [.heatDecayTick]
    comp := { idle.comp with logical := 1560 }
    line := { idle.line with
      entries := [⟨0, 0x61, .char, 1548, 12, [⟨0, .base, 1559, .waiting⟩], 0, false, none⟩], nextSeq := 1 }
    disp := { idle.disp with slot := none, current := none } }

/-- The same with the image of the state. -/
def atBordersShown : State := atBorders.formImage

theorem step_answers {s : State} {c : Instr} {l : List Instr} (h : s.pending = c :: l)
    (hr : (run c { s with pending := l }).isSome = true) : ∃ t, step s = .next t := by
  obtain ⟨t, ht⟩ := next_of_run hr
  exact ⟨t, by simp only [step, h, ht]⟩

theorem atBordersShown_steps : ∃ t, step atBordersShown = .next t :=
  step_answers (c := .heatDecayTick) (l := []) (by decide +kernel) (by decide +kernel)

theorem witness_CreditSumIsKept : atBordersShown.creditWhole ∧ ∃ t, step atBordersShown = .next t :=
  ⟨by unfold State.creditWhole; decide +kernel, atBordersShown_steps⟩

theorem witness_HeatAndTravelBoundsAreKept :
    atBordersShown.heatBounded ∧ atBordersShown.strikesInTravel ∧ ∃ t, step atBordersShown = .next t := by
  refine ⟨by unfold State.heatBounded; decide +kernel, ?_, atBordersShown_steps⟩
  have hq : atBordersShown.seq.queue = [] := by decide +kernel
  unfold State.strikesInTravel
  rw [hq]
  exact ⟨fun o ho => absurd ho (List.not_mem_nil), by decide +kernel⟩

/-- A seal that works on slot 0, as a step finds it. -/
def sealingStep : State := { sealingState (opened []) tables keyMapCheck with pending := [.sealComplete] }

theorem sealingStep_steps : ∃ t, step sealingStep = .next t :=
  step_answers (c := .sealComplete) (l := []) (by decide +kernel) (by decide +kernel)

theorem witness_TableStoreStaysWhole :
    sealingStep.tab.mem.wf = true ∧ sealingStep.directoryWhole ∧ sealingStep.sealFollows ∧ sealingStep.sealedOnce ∧ ∃ t, step sealingStep = .next t := by
  refine ⟨by decide +kernel, ?_, sealingState_follows (opened []) tables keyMapCheck,
    by unfold State.sealedOnce; decide +kernel, sealingStep_steps⟩
  refine ⟨by decide +kernel, by decide +kernel, by decide +kernel, by decide +kernel, ?_⟩
  intro e he
  have hs : sealingStep.tab.sealing = some (sealOf (opened []) tables keyMapCheck) := by decide +kernel
  rw [hs] at he
  cases he
  decide +kernel

theorem witness_ReportQueueBoundsAreKept : sealingStep.reportsBounded ∧ ∃ t, step sealingStep = .next t :=
  ⟨by unfold State.reportsBounded; decide +kernel, sealingStep_steps⟩

theorem witness_DisplayImageIsKeptCurrent :
    atBordersShown.windowAligned ∧ atBordersShown.imageCurrent ∧ ∃ t, step atBordersShown = .next t :=
  ⟨by unfold State.windowAligned; decide +kernel, by unfold State.imageCurrent; decide +kernel, atBordersShown_steps⟩

theorem witness_QueuesAndListsKeepTheirPlaces : atBordersShown.listsBounded ∧ ∃ t, step atBordersShown = .next t :=
  ⟨by unfold State.listsBounded; decide +kernel, atBordersShown_steps⟩

end Sys2Proof.Tests
end

section
/-! PROOF of O23. What acknowledging the faults does (R150): the list with its cleared records gone and told, the
answer, and the homing that HALTED leaves for. -/

namespace Sys2Proof.Machine

/-! ### Frames as a whole -/

theorem State.same_trans {s t u : State} {p : Part} (hst : s.same t p) (htu : t.same u p) : s.same u p := by
  cases p
  case image => exact ⟨htu.1.trans hst.1, htu.2.trans hst.2⟩
  all_goals exact Eq.trans htu hst

theorem State.keeps_trans {s t u : State} {l : List Part} (hst : s.keeps t l) (htu : t.keeps u l) : s.keeps u l :=
  fun p hp => State.same_trans (hst p hp) (htu p hp)

/-- A frame that lists more parts says less. -/
theorem State.keeps_mono {s t : State} {l m : List Part} (h : s.keeps t l) (hlm : l ⊆ m) : s.keeps t m :=
  fun p hp => h p (fun hl => hp (hlm hl))

theorem State.keeps_formImage (s : State) : s.keeps s.formImage [.image] :=
  fun p hp => s.formImage_same p (by simpa using hp)

/-! ### The change of mechanism state (R67) -/

theorem State.enter_of_ne {s : State} {st : MechState} (h : s.seq.state ≠ st) (r : Reason) :
    s.enter st r = s.changedTo st r := by
  simp [State.enter, State.changedTo, h]

@[simp] theorem State.changedTo_seq (s : State) (st : MechState) (r : Reason) :
    (s.changedTo st r).seq = { s.seq with state := st, reason := r } := by
  simp [State.changedTo]

@[simp] theorem State.changedTo_drv (s : State) (st : MechState) (r : Reason) :
    (s.changedTo st r).drv = { s.drv with rotTest := none } := by
  simp [State.changedTo]

/-- What an EVENT does to the report queue and the counters depends on these alone (R177). -/
theorem State.event_reports_congr {s t : State} (hr : s.ret = t.ret) (hc : s.ctr = t.ctr) (e : Event) :
    (s.event e).ret = (t.event e).ret ∧ (s.event e).ctr = (t.event e).ctr := by
  unfold State.event
  rw [hr, hc]
  split <;> exact ⟨rfl, rfl⟩

/-- The reports of a change of mechanism state are those of its EVENT MECH_STATE. -/
theorem State.changedTo_reports {s t : State} (hr : s.ret = t.ret) (hc : s.ctr = t.ctr) (st : MechState) (r : Reason) :
    (s.changedTo st r).ret = (t.event (.mechState st r)).ret ∧
      (s.changedTo st r).ctr = (t.event (.mechState st r)).ctr := by
  unfold State.changedTo
  apply State.event_reports_congr
  exacts [hr, hc]

theorem State.keeps_changedTo (s : State) (st : MechState) (r : Reason) :
    s.keeps (s.changedTo st r) [.seq, .drv, .ctr, .ret] := by
  intro p hp
  cases p <;> simp_all [State.same, State.changedTo]

/-! ### Homing from HALTED (R69, R150) -/

/-- With no homing under way, HALTED is left for homing with the lift sent to REST, or for COVER_OPEN. -/
theorem State.startHoming_of_halted {s : State} (hst : s.seq.state = .halted) (hh : s.seq.homing = none) :
    s.startHoming = if s.coverOpen then s.changedTo .coverOpen .none
      else State.changedTo { s with
        seq := { s.seq with homing := some .home, liftTarget := s.seq.askLift .rest } } .homing .none := by
  have habandon : s.abandonHoming = s := by simp [State.abandonHoming, hh]
  have hpause : s.seq.pauseToRequest = s.seq := by simp [Sequencer.pauseToRequest, hst]
  simp only [State.startHoming, habandon, hpause]
  rw [State.enter_of_ne (by simp [hst]), State.enter_of_ne (by simp [hst])]

theorem State.startHoming_seq_of_halted {s : State} (hst : s.seq.state = .halted) (hh : s.seq.homing = none) :
    s.startHoming.seq = if s.coverOpen then { s.seq with state := .coverOpen, reason := .none }
      else { s.seq with
        state := .homing, reason := .none, homing := some .home, liftTarget := s.seq.askLift .rest } := by
  rw [State.startHoming_of_halted hst hh]
  split <;> simp

theorem State.startHoming_drv_of_halted {s : State} (hst : s.seq.state = .halted) (hh : s.seq.homing = none) :
    s.startHoming.drv = { s.drv with rotTest := none } := by
  rw [State.startHoming_of_halted hst hh]
  split <;> simp

theorem State.startHoming_reports_of_halted {s : State} (hst : s.seq.state = .halted) (hh : s.seq.homing = none) :
    let v := s.event (if s.coverOpen then .mechState .coverOpen .none else .mechState .homing .none)
    s.startHoming.ret = v.ret ∧ s.startHoming.ctr = v.ctr := by
  rw [State.startHoming_of_halted hst hh]
  split <;> apply State.changedTo_reports <;> rfl

theorem State.keeps_startHoming_of_halted {s : State} (hst : s.seq.state = .halted) (hh : s.seq.homing = none) :
    s.keeps s.startHoming [.seq, .drv, .ctr, .ret] := by
  rw [State.startHoming_of_halted hst hh]
  split
  · exact s.keeps_changedTo _ _
  · refine State.keeps_trans ?_ (State.keeps_changedTo _ _ _)
    intro p hp
    cases p <;> simp_all [State.same]

/-! ### Acknowledging (R150) -/

/-- The state in which ACK_FAULT is answered: the place of the answer reserved, and the records whose present flag is
clear gone from the list and told. -/
def State.listCleared (s : State) : State :=
  State.tellCleared { s.reserve with drv := { s.drv with faults := s.drv.faults.filter FaultRec.isPresent } }
    (s.drv.faults.filter (fun f => !f.isPresent))

/-- The number of halting records that remain. -/
def State.haltingLeft (s : State) : Nat := s.haltingCount (s.drv.faults.filter FaultRec.isPresent)

@[simp] theorem State.listCleared_drv (s : State) :
    s.listCleared.drv = { s.drv with faults := s.drv.faults.filter FaultRec.isPresent } := by
  simp [State.listCleared]

@[simp] theorem State.listCleared_frame (s : State) :
    s.listCleared.seq = s.seq ∧ s.listCleared.comp = s.comp ∧ s.listCleared.coverOpen = s.coverOpen ∧
      s.listCleared.disp = s.disp := by
  simp [State.listCleared]

theorem State.keeps_listCleared_answer (s : State) (o : CmdOutcome) (data : List Byte) :
    s.keeps (s.listCleared.answer 0x0E o data) [.seq, .drv, .ctr, .ret] := by
  intro p hp
  cases p <;> simp_all [State.same, State.listCleared]

/-- No item of a feed waits, so the step that answers, and homes where it is to, ends with the image alone. -/
theorem State.ackFaults_reserve_of_quiet {s : State} (hq : s.quiet) :
    s.reserve.ackFaults = State.formImage
      (if s.seq.state = .halted then
        let t := s.listCleared.answer 0x0E .done [byteOf s.haltingLeft]
        if s.haltingLeft = 0 then t.startHoming else t
      else s.listCleared.answer 0x0E .notHalted [byteOf s.haltingLeft]) := by
  obtain ⟨-, hkey, htext⟩ := hq
  have hsettle {t : State} (hc : t.comp = s.comp) : t.settle s.reserve = t.formImage :=
    State.settle_of_quiet (by rw [hc, hkey]) (by rw [hc, htext]) false
  by_cases hst : s.seq.state = .halted
  · rw [if_pos hst, ← hsettle (by dsimp only; split <;> simp)]
    exact if_pos hst
  · rw [if_neg hst, ← hsettle (by simp)]
    exact if_neg hst

theorem exec_ackFault_of_ready {s : State} (h : s.commandReady) : exec .ackFault s = .next s.reserve.ackFaults := by
  change live s (fun s => s.takeControl 0x0E []) = _
  rw [State.takeControl_of_ready h, State.command_ackFault]
  rfl

theorem exec_ackFault_of_not_halted {s : State} (h : s.commandReady) (hq : s.quiet) (hst : s.seq.state ≠ .halted) :
    exec .ackFault s = .next (s.listCleared.answer 0x0E .notHalted [byteOf s.haltingLeft]).formImage := by
  rw [exec_ackFault_of_ready h, State.ackFaults_reserve_of_quiet hq, if_neg hst]

theorem exec_ackFault_of_halting_left {s : State} (h : s.commandReady) (hq : s.quiet) (hst : s.seq.state = .halted)
    (hn : 0 < s.haltingLeft) :
    exec .ackFault s = .next (s.listCleared.answer 0x0E .done [byteOf s.haltingLeft]).formImage := by
  rw [exec_ackFault_of_ready h, State.ackFaults_reserve_of_quiet hq, if_pos hst]
  simp only [if_neg hn.ne']

theorem exec_ackFault_of_none_halting {s : State} (h : s.commandReady) (hq : s.quiet) (hst : s.seq.state = .halted)
    (hn : s.haltingLeft = 0) :
    exec .ackFault s =
      .next (s.listCleared.answer 0x0E .done [byteOf s.haltingLeft]).startHoming.formImage := by
  rw [exec_ackFault_of_ready h, State.ackFaults_reserve_of_quiet hq, if_pos hst]
  simp only [if_pos hn]

/-- Settles O23: in HALTED with no halting record left, the homing starts from the state already answered. -/
theorem ackFaultClearsAndMayStartHoming : Obligations.AckFaultClearsAndMayStartHoming := by
  intro s h hq
  refine ⟨fun f hf => (List.mem_filter.mp hf).2, exec_ackFault_of_not_halted h hq, exec_ackFault_of_halting_left h hq,
    fun hst hn hh => ⟨_, exec_ackFault_of_none_halting h hq hst hn, ?_⟩⟩
  set a := s.listCleared.answer 0x0E .done [byteOf s.haltingLeft]
  have hcover : a.coverOpen = s.coverOpen := by simp [a]
  have hseq : a.seq = s.seq := by simp [a]
  have hdrv : a.drv = { s.drv with faults := s.drv.faults.filter FaultRec.isPresent } := by simp [a]
  have hdisp : a.startHoming.disp = s.disp := by simp [a]
  have hsta : a.seq.state = .halted := by rw [hseq, hst]
  have hha : a.seq.homing = none := by rw [hseq, hh]
  have hframe : s.keeps a.startHoming [.seq, .drv, .ctr, .ret] :=
    State.keeps_trans (s.keeps_listCleared_answer _ _) (State.keeps_startHoming_of_halted hsta hha)
  refine ⟨?drv, ?seq, ?reports, ?frame, ?image⟩
  case drv => simp [State.startHoming_drv_of_halted hsta hha, hdrv]
  case seq => simp [State.startHoming_seq_of_halted hsta hha, hcover, hseq]
  case reports =>
    have hreports := State.startHoming_reports_of_halted hsta hha
    rw [hcover] at hreports
    simp only [State.formImage_frame]
    exact hreports
  case frame =>
    exact State.keeps_trans (State.keeps_mono hframe (by simp))
      (State.keeps_mono a.startHoming.keeps_formImage (by simp))
  case image => exact State.imageFollows_formImage (by rw [hdisp]) (by rw [hdisp])

end Sys2Proof.Machine
end

section
/-! PROOF of O17. What TABLE_WRITE does (R159): the judgement of a write in the order of its checks, the data and marks
stored, and the bytes written read back. -/

namespace Sys2Proof.Machine

/-! ### Reading back what was written (R154, R159) -/

/-- The rest of the data lies behind its first byte, so it is written without touching that byte again. -/
theorem Memory.read_writeBytes_getElem (vs : List Byte) (m : Memory) (x k : Nat) (hm : m.wf = true)
    (hx : x + vs.length ≤ tableBytes) (hk : k < vs.length) : (m.writeBytes x vs).read (x + k) = vs[k] := by
  induction vs generalizing m x k with
  | nil => simp at hk
  | cons v vs ih =>
    simp only [List.length_cons] at hx hk
    rw [Memory.writeBytes]
    cases k with
    | zero =>
      rw [Memory.read_writeBytes_outside vs _ (x + 1) (x + 0) (by omega)]
      exact Memory.read_write_self m x v hm
    | succ k =>
      have hrest := ih (m.write x v) (x + 1) k (Memory.wf_write m x v (by omega) hm) (by omega) (by omega)
      rwa [Nat.add_assoc, Nat.add_comm 1 k] at hrest

/-! ### The judgement of a write (R159) -/

theorem exec_tableWrite_of_ready {s : State} (h : s.commandReady) (hr : runsInside s.tab.slots = true)
    (params : List Byte) : exec (.tableWrite params) s = .next (s.reserve.cmdTableWrite params) := by
  change liveTables s (fun s => s.takeControl 0x04 params) = _
  rw [liveTables, if_pos hr, State.takeControl_of_ready h, State.command_tableWrite]

theorem State.cmdTableWrite_of_badLength (s : State) (slot hi lo : Byte) {data : List Byte}
    (h : data.length ≠ 16 ∧ data.length ≠ 32) :
    s.cmdTableWrite (slot :: hi :: lo :: data) = s.answer 0x04 .badLength [] := if_neg (not_or.mpr h)

theorem State.cmdTableWrite_of_length (s : State) (slot hi lo : Byte) {data : List Byte}
    (h : data.length = 16 ∨ data.length = 32) :
    s.cmdTableWrite (slot :: hi :: lo :: data) = s.writeSlot slot.toNat (ofTwoBytes hi lo) data := if_pos h

theorem State.writeSlot_of_no_slot (s : State) {i : Nat} (h : slotCount ≤ i) (index : Nat) (data : List Byte) :
    s.writeSlot i index data = s.answer 0x04 .badIndex [] := if_pos h

section
variable (s : State) {i index : Nat} {data : List Byte} (hi : i < slotCount)
include hi

theorem State.writeSlot_of_not_opened (h : (slotAt s.tab.slots i).state ≠ .opened) :
    s.writeSlot i index data = s.answer 0x04 .notOpen [] :=
  (if_neg hi.not_ge).trans (if_pos h)

theorem State.writeSlot_of_past_run (ho : (slotAt s.tab.slots i).state = .opened)
    (h : (slotAt s.tab.slots i).count < index + data.length / 16) :
    s.writeSlot i index data = s.answer 0x04 .badIndex [] :=
  (if_neg hi.not_ge).trans ((if_neg (not_not.mpr ho)).trans (if_pos h))

theorem State.writeSlot_of_inside_run (ho : (slotAt s.tab.slots i).state = .opened)
    (h : index + data.length / 16 ≤ (slotAt s.tab.slots i).count) :
    s.writeSlot i index data = (s.writeSegments i index data).answer 0x04 .done
      (twoBytes (slotAt (s.writeSegments i index data).tab.slots i).unwritten) :=
  (if_neg hi.not_ge).trans ((if_neg (not_not.mpr ho)).trans (if_neg h.not_gt))

end

/-- Settles O17: the checks in the order of R159, each at the state with the answer's place reserved; then the memory, read
outside the data by the frame of a run of writes and inside them by induction on the data. -/
theorem tableWriteStoresTheSegments : Obligations.TableWriteStoresTheSegments := by
  refine ⟨?judged, ?memory⟩
  case judged =>
    intro s slot hi lo data h hr i index n d d'
    rw [exec_tableWrite_of_ready h hr]
    congr 1
    split
    next hlen => rw [State.cmdTableWrite_of_badLength _ _ _ _ hlen, State.reserve_answer]
    next hlen =>
    rw [State.cmdTableWrite_of_length _ _ _ _ (by omega)]
    split
    next hslot => rw [State.writeSlot_of_no_slot _ hslot, State.reserve_answer]
    next hslot =>
    have hi : i < slotCount := not_le.mp hslot
    split
    next hclosed => rw [s.reserve.writeSlot_of_not_opened hi hclosed, State.reserve_answer]
    next hopen =>
    have ho : d.state = .opened := not_not.mp hopen
    split
    next hpast => rw [s.reserve.writeSlot_of_past_run hi ho hpast, State.reserve_answer]
    next hrun =>
    rw [s.reserve.writeSlot_of_inside_run hi ho (not_lt.mp hrun)]
    exact (s.writeSegments i index data).reserve_answer _ _ _
  case memory =>
    intro m x y data hm hx
    refine ⟨Memory.read_writeBytes_outside data m x y, fun k hk hy => ?_⟩
    rw [hy]
    exact Memory.read_writeBytes_getElem data m x k hm hx hk

end Sys2Proof.Machine
end

section
/-! PROOF, shared by O56, O58, O59 and O60. What no operation of the part does to the items that the invariants bound:
one relation between the state before and after, kept by every shared operation and so by every step. -/

namespace Sys2Proof.Machine

/-! ### The items that the invariants bound -/

/-- The items of a state that the invariants on bounds read. -/
structure View where
  heat     : Nat
  queue    : List Order
  entries  : List Entry
  window   : Nat
  keys     : List Byte
  recs     : Nat
  tabs     : List TabStop
  words    : Nat
  checkq   : Nat
  users    : Nat
  faults   : Nat
  blocks   : Nat
  reports  : List Report
  reserved : Nat
  sealing  : Option Seal
  shows    : Bool
  waiting  : Option Image

/-- The items of a state that the invariants on bounds read. -/
def State.view (s : State) : View where
  heat := s.seq.heat
  queue := s.seq.queue
  entries := s.line.entries
  window := s.disp.window
  keys := s.keyq.queue
  recs := s.comp.recs.length
  tabs := s.comp.tabs
  words := s.spell.words.length
  checkq := s.spell.checkq.length
  users := s.spell.users.length
  faults := s.drv.faults.length
  blocks := s.rx.window.length
  reports := s.ret.reports
  reserved := s.ret.reserved
  sealing := s.tab.sealing
  shows := s.set.display
  waiting := s.disp.slot

/-- The strikes of an entry stand within the carriage travel (R54, R65). -/
def Entry.inTravel (e : Entry) : Prop := ∀ k ∈ e.strikes, k.pos ≤ lastPosition

/-- Every strike queued or recorded stands within the carriage travel (R54, R65). -/
def View.inTravel (a : View) : Prop := (∀ o ∈ a.queue, o.inTravel) ∧ ∀ e ∈ a.entries, e.inTravel

/-- The tab stops keep to their places and stand in order, each position once (R44). -/
def stopsOrdered (l : List TabStop) : Prop := l.length ≤ tabPlaces ∧ l.Pairwise (fun t u => t.pos < u.pos)

/-- The number of EVENTs among some reports (R177). -/
def eventsIn (l : List Report) : Nat := (l.filter Report.isEvent).length

/-- With DISPLAY OFF no image waits in the slot (R137). -/
def View.dark (a : View) : Prop := a.shows = false → a.waiting = none

/-- From one view to another every bound that held holds (R39, R44, R54, R66, R76, R89, R111, R117, R126, R133, R137,
R148, R171, R173). -/
structure Bounded (a b : View) : Prop where
  heat    : a.heat ≤ 255 → b.heat ≤ 255
  travel  : a.inTravel → b.inTravel
  queue   : a.queue.length ≤ queuePlaces → b.queue.length ≤ queuePlaces
  entries : a.entries.length ≤ entryPlaces → b.entries.length ≤ entryPlaces
  window  : a.window % 8 = 0 → b.window % 8 = 0
  keys    : a.keys.length ≤ keyPlaces → b.keys.length ≤ keyPlaces
  recs    : a.recs ≤ recPlaces → b.recs ≤ recPlaces
  tabs    : stopsOrdered a.tabs → stopsOrdered b.tabs
  words   : a.words ≤ wordPlaces → b.words ≤ wordPlaces
  checkq  : a.checkq ≤ checkPlaces → b.checkq ≤ checkPlaces
  users   : a.users ≤ userPlaces → b.users ≤ userPlaces
  faults  : a.faults ≤ faultPlaces → b.faults ≤ faultPlaces
  blocks  : a.blocks ≤ windowPlaces → b.blocks ≤ windowPlaces
  dark    : a.dark → b.dark

/-- From one view to another the report queue has changed by EVENTs alone (R177), and no seal has started or ended. -/
structure ToldOnly (a b : View) : Prop where
  fill     : a.reports.length + a.reserved ≤ reportPlaces → b.reports.length + b.reserved ≤ reportPlaces
  events   : eventsIn a.reports ≤ eventPlaces → eventsIn b.reports ≤ eventPlaces
  reserved : b.reserved = a.reserved
  sealing  : b.sealing = a.sealing

/-- From one view to another the bounds have been kept, and nothing but EVENTs has been reported. -/
structure Evolves (a b : View) : Prop extends Bounded a b, ToldOnly a b

theorem Bounded.refl (a : View) : Bounded a a := ⟨id, id, id, id, id, id, id, id, id, id, id, id, id, id⟩

theorem Bounded.trans {a b c : View} (h : Bounded a b) (k : Bounded b c) : Bounded a c where
  heat := k.heat ∘ h.heat
  travel := k.travel ∘ h.travel
  queue := k.queue ∘ h.queue
  entries := k.entries ∘ h.entries
  window := k.window ∘ h.window
  keys := k.keys ∘ h.keys
  recs := k.recs ∘ h.recs
  tabs := k.tabs ∘ h.tabs
  words := k.words ∘ h.words
  checkq := k.checkq ∘ h.checkq
  users := k.users ∘ h.users
  faults := k.faults ∘ h.faults
  blocks := k.blocks ∘ h.blocks
  dark := k.dark ∘ h.dark

theorem ToldOnly.refl (a : View) : ToldOnly a a := ⟨id, id, rfl, rfl⟩

theorem ToldOnly.trans {a b c : View} (h : ToldOnly a b) (k : ToldOnly b c) : ToldOnly a c where
  fill := k.fill ∘ h.fill
  events := k.events ∘ h.events
  reserved := k.reserved.trans h.reserved
  sealing := k.sealing.trans h.sealing

theorem Evolves.refl (a : View) : Evolves a a := ⟨.refl a, .refl a⟩

theorem Evolves.trans {a b c : View} (h : Evolves a b) (k : Evolves b c) : Evolves a c :=
  ⟨h.toBounded.trans k.toBounded, h.toToldOnly.trans k.toToldOnly⟩

/-- From `s` to `t` the bounds have been kept, and nothing but EVENTs has been reported. An update of items outside the
view leaves the view the same by definition. -/
def State.evolves (s t : State) : Prop := Evolves s.view t.view

variable {s t : State}

theorem State.evolves.refl (s : State) : s.evolves s := Evolves.refl _

theorem State.evolves.trans {u : State} (h : s.evolves t) (k : t.evolves u) : s.evolves u := Evolves.trans h k

/-! ### Updates of single items -/

theorem State.evolves.orders (h : s.evolves t) {q : Sequencer} {r : LineRecord} (hh : q.heat = t.seq.heat)
    (hl : t.seq.queue.length ≤ queuePlaces → q.queue.length ≤ queuePlaces)
    (he : t.line.entries.length ≤ entryPlaces → r.entries.length ≤ entryPlaces)
    (ht : t.view.inTravel → (∀ o ∈ q.queue, o.inTravel) ∧ ∀ f ∈ r.entries, f.inTravel) :
    s.evolves { t with seq := q, line := r } :=
  Evolves.trans h { Evolves.refl t.view with heat := fun h => hh.le.trans h, queue := hl, entries := he, travel := ht }

theorem State.evolves.withSpell (h : s.evolves t) {p : Spelling}
    (hw : t.spell.words.length ≤ wordPlaces → p.words.length ≤ wordPlaces)
    (hc : t.spell.checkq.length ≤ checkPlaces → p.checkq.length ≤ checkPlaces)
    (hu : t.spell.users.length ≤ userPlaces → p.users.length ≤ userPlaces) : s.evolves { t with spell := p } :=
  Evolves.trans h { Evolves.refl t.view with words := hw, checkq := hc, users := hu }

/-- A change of the Spelling Unit that lengthens none of its lists. -/
theorem State.evolves.spell_le (h : s.evolves t) {p : Spelling} (hw : p.words.length ≤ t.spell.words.length)
    (hc : p.checkq.length ≤ t.spell.checkq.length) (hu : p.users.length ≤ t.spell.users.length) :
    s.evolves { t with spell := p } :=
  h.withSpell hw.trans hc.trans hu.trans

theorem State.evolves.recs (h : s.evolves t) {c : Composer}
    (hr : t.comp.recs.length ≤ recPlaces → c.recs.length ≤ recPlaces) (ht : c.tabs = t.comp.tabs) :
    s.evolves { t with comp := c } :=
  Evolves.trans h { Evolves.refl t.view with recs := hr, tabs := fun h => show stopsOrdered c.tabs from ht ▸ h }

theorem State.evolves.stops (h : s.evolves t) {c : Composer} (ht : stopsOrdered t.comp.tabs → stopsOrdered c.tabs)
    (hr : c.recs = t.comp.recs) : s.evolves { t with comp := c } :=
  Evolves.trans h
    { Evolves.refl t.view with recs := fun h => show c.recs.length ≤ recPlaces from hr ▸ h, tabs := ht }

theorem State.evolves.windowTo (h : s.evolves t) {d : Display} (hw : t.disp.window % 8 = 0 → d.window % 8 = 0)
    (hs : d.slot = t.disp.slot) : s.evolves { t with disp := d } :=
  Evolves.trans h { Evolves.refl t.view with window := hw, dark := fun hd hoff => hs.trans (hd hoff) }

/-- An image waits in the slot after a change only with DISPLAY ON (R137). -/
theorem State.evolves.display (h : s.evolves t) {c : Settings} {d : Display} (hw : d.window = t.disp.window)
    (hs : c.display = true ∨ d.slot = none) : s.evolves { t with set := c, disp := d } := by
  refine Evolves.trans h { Evolves.refl t.view with window := fun h8 => ?_, dark := fun _ hoff => ?_ }
  · exact (congrArg (· % 8) hw).trans h8
  · exact hs.elim (fun hon => absurd (hon.symm.trans hoff) (by decide)) id

theorem State.evolves.slot (h : s.evolves t) {d : Display} (hw : d.window = t.disp.window)
    (hs : t.set.display = true ∨ d.slot = none) : s.evolves { t with disp := d } :=
  h.display (c := t.set) hw hs

theorem State.evolves.faults (h : s.evolves t) {d : Drives}
    (hf : t.drv.faults.length ≤ faultPlaces → d.faults.length ≤ faultPlaces) : s.evolves { t with drv := d } :=
  Evolves.trans h { Evolves.refl t.view with faults := hf }

theorem State.evolves.keys (h : s.evolves t) {k : KeyQueue}
    (hk : t.keyq.queue.length ≤ keyPlaces → k.queue.length ≤ keyPlaces) : s.evolves { t with keyq := k } :=
  Evolves.trans h { Evolves.refl t.view with keys := hk }

/-! ### Events, signals and the image (R136, R139, R177, R185) -/

theorem State.evolves.event (h : s.evolves t) (e : Event) : s.evolves (t.event e) := by
  refine h.trans ?_
  unfold State.event
  split
  case isTrue hfree =>
    rw [ReturnLine.takesEvent, Bool.and_eq_true, decide_eq_true_eq, ReturnLine.hasFree_iff] at hfree
    refine { Evolves.refl t.view with fill := fun _ => ?_, events := fun _ => ?_ }
    · simp only [State.view, List.length_append, List.length_singleton]
      omega
    · have hone : eventsIn (t.ret.reports ++ [.event e t.ret.lost]) = t.ret.eventCount + 1 := by
        simp [eventsIn, ReturnLine.eventCount, List.filter_cons, Report.isEvent]
      exact hone.le.trans hfree.1
  case isFalse => exact .refl _

theorem State.evolves.raise (h : s.evolves t) (k : Counter) (n : Nat) : s.evolves (t.raise k n) := h

theorem State.evolves.signal (h : s.evolves t) (p : Pattern) : s.evolves (t.signal p) := by
  unfold State.signal
  (repeat' split) <;> exact h

theorem State.evolves.formImage (h : s.evolves t) : s.evolves t.formImage := by
  unfold State.formImage
  split
  case isTrue hon => exact h.slot rfl (.inl hon)
  case isFalse => exact h

theorem State.evolves.freshImage (h : s.evolves t) : s.evolves t.freshImage :=
  (h.slot (d := { t.disp with lastSent := none, slot := none }) rfl (.inr rfl)).formImage

/-- The window moves by multiples of 8 (R133). -/
theorem windowFor_mod (w c : Nat) (h : w % 8 = 0) : windowFor w c % 8 = 0 := by
  unfold windowFor
  split
  · omega
  · split <;> omega

theorem State.evolves.moveWindow (h : s.evolves t) : s.evolves t.moveWindow :=
  h.windowTo (windowFor_mod _ _) rfl

end Sys2Proof.Machine
end

section
/-! PROOF, shared by O56, O58, O59 and O60: the Spelling Unit keeps the bounds. -/

namespace Sys2Proof.Machine

variable {s t : State}

/-! ### Records leave the word table (R112, R113, R115) -/

theorem Spelling.keepWords_words_le (p : Spelling) (keep : SpellWord → Bool) :
    (p.keepWords keep).words.length ≤ p.words.length := List.length_filter_le _ _

theorem Spelling.keepWords_checkq_le (p : Spelling) (keep : SpellWord → Bool) :
    (p.keepWords keep).checkq.length ≤ p.checkq.length := List.length_filter_le _ _

@[simp] theorem changeWord_length (l : List SpellWord) (n : Word) (f : SpellWord → SpellWord) :
    (changeWord l n f).length = l.length := List.length_map _

theorem State.evolves.keepWords (h : s.evolves t) {p : Spelling} (keep : SpellWord → Bool)
    (hw : p.words.length = t.spell.words.length) (hc : p.checkq.length ≤ t.spell.checkq.length)
    (hu : p.users.length ≤ t.spell.users.length) : s.evolves { t with spell := p.keepWords keep } :=
  h.spell_le ((p.keepWords_words_le keep).trans hw.le) ((p.keepWords_checkq_le keep).trans hc) hu

theorem State.evolves.setVerdict (h : s.evolves t) (n : Word) (v : Verdict) : s.evolves (t.setVerdict n v) :=
  h.keepWords _ (changeWord_length _ _ _) le_rfl le_rfl

/-- A record found by its number has it, so the table is shorter without that number. -/
theorem Spelling.keepWords_lt_of_mem {p : Spelling} {n : Word} (h : ∃ w ∈ p.words, w.num = n) :
    (p.keepWords (fun w => w.num ≠ n)).words.length < p.words.length := by
  obtain ⟨w, hw, rfl⟩ := h
  exact List.length_filter_lt_length_iff_exists.mpr ⟨w, hw, by simp⟩

theorem evictee_mem {words : List SpellWord} {n : Word} (h : evictee words = some n) : ∃ w ∈ words, w.num = n := by
  unfold evictee at h
  split at h
  case h_1 w hw => exact ⟨w, List.mem_of_find?_eq_some hw, Option.some.inj h⟩
  case h_2 =>
    split at h
    case h_1 w hw => exact ⟨w, List.mem_of_find?_eq_some hw, Option.some.inj h⟩
    case h_2 =>
      obtain ⟨w, hw, rfl⟩ := Option.map_eq_some_iff.mp h
      exact ⟨w, List.mem_of_mem_head? hw, rfl⟩

theorem evictee_isSome {words : List SpellWord} (h : words ≠ []) : (evictee words).isSome := by
  unfold evictee
  split
  · rfl
  · split
    · rfl
    · obtain ⟨w, l, rfl⟩ := List.exists_cons_of_ne_nil h
      rfl

/-- Room for one more record (R115). -/
theorem Spelling.makeRoom_words_lt {p : Spelling} (h : p.words.length ≤ wordPlaces) :
    p.makeRoom.words.length < wordPlaces := by
  unfold Spelling.makeRoom Spelling.givesWay
  by_cases hp : p.words.length < wordPlaces
  · simp only [hp, if_true]
  · obtain ⟨n, hn⟩ := Option.isSome_iff_exists.mp (evictee_isSome (List.ne_nil_of_length_pos (l := p.words)
      (by simp only [wordPlaces] at hp; omega)))
    simp only [hp, if_false, hn]
    exact (Spelling.keepWords_lt_of_mem (evictee_mem hn)).trans_le h

theorem Spelling.makeRoom_checkq_le (p : Spelling) : p.makeRoom.checkq.length ≤ p.checkq.length := by
  unfold Spelling.makeRoom
  split
  · exact p.keepWords_checkq_le _
  · exact le_rfl

/-! ### Matching (R112) -/

@[simp] theorem Spelling.makeRoom_users (p : Spelling) : p.makeRoom.users = p.users := by
  unfold Spelling.makeRoom
  split <;> rfl

/-- The lists of the Spelling Unit are no longer than their places, given those of another. -/
structure Spelling.Within (p q : Spelling) : Prop where
  words  : p.words.length ≤ wordPlaces → q.words.length ≤ wordPlaces
  checkq : p.checkq.length ≤ checkPlaces → q.checkq.length ≤ checkPlaces
  users  : q.users = p.users

theorem Spelling.Within.refl (p : Spelling) : p.Within p := ⟨id, id, rfl⟩

theorem Spelling.Within.trans {p q r : Spelling} (h : p.Within q) (k : q.Within r) : p.Within r :=
  ⟨k.words ∘ h.words, k.checkq ∘ h.checkq, k.users.trans h.users⟩

theorem Spelling.within_endRequest (p : Spelling) (w : SpellWord) (g : Segment) : p.Within (p.endRequest w g) := by
  unfold Spelling.endRequest
  split <;> exact ⟨id, id, rfl⟩

theorem matchSegment_within (m : MatchPass) (g : Segment) : m.spell.Within (matchSegment m g).spell := by
  unfold matchSegment
  dsimp only
  split
  case h_1 n hn =>
    split
    case h_1 w hw =>
      have hq := (m.spell.within_endRequest w g).checkq
      have hu := (m.spell.within_endRequest w g).users
      dsimp only
      split
      · exact ⟨(changeWord_length _ _ _).le.trans, fun h => (List.length_filter_le _ _).trans (hq h), hu⟩
      · exact ⟨(changeWord_length _ _ _).le.trans, hq, hu⟩
    case h_2 => exact .refl _
  case h_2 =>
    split
    · exact .refl _
    · refine ⟨fun h => ?_, m.spell.makeRoom_checkq_le.trans, m.spell.makeRoom_users⟩
      have := Spelling.makeRoom_words_lt h
      simp only [List.length_append, List.length_singleton]
      omega

theorem foldl_matchSegment_within (l : List Segment) (m : MatchPass) :
    m.spell.Within (l.foldl matchSegment m).spell := by
  induction l generalizing m with
  | nil => exact .refl _
  | cons g l ih => exact (matchSegment_within m g).trans (ih _)

theorem State.evolves.within (h : s.evolves t) {p : Spelling} (hp : t.spell.Within p) : s.evolves { t with spell := p } :=
  h.withSpell hp.words hp.checkq (fun hu => (congrArg List.length hp.users).le.trans hu)

/-- Word references change no strike and no count of records. -/
theorem State.evolves.setRefs (h : s.evolves t) (refs : List (Word × List Nat)) : s.evolves (t.setRefs refs) := by
  unfold State.setRefs
  split
  · exact h.recs (fun h => by simpa using h) rfl
  · refine h.orders rfl id (List.length_map _).le.trans (fun hk => ⟨hk.1, ?_⟩)
    intro f hf
    obtain ⟨e, he, rfl⟩ := List.mem_map.mp hf
    exact hk.2 e he

/-! ### Checks, the check queue and the engine (R116, R117, R119) -/

theorem State.evolves.dropOldest (h : s.evolves t) : s.evolves t.dropOldest := by
  unfold State.dropOldest
  split
  case h_1 n g rest hq =>
    split
    · refine .raise (.setVerdict (h.spell_le (p := { t.spell with checkq := rest }) le_rfl ?_ le_rfl) _ _) _ _
      rw [hq]
      exact Nat.le_succ _
    · exact h
  case h_2 => exact h

/-- A place of the check queue is free (R117). -/
theorem State.dropOldest_checkq_lt (h : s.spell.checkq.length ≤ checkPlaces) :
    s.dropOldest.spell.checkq.length < checkPlaces := by
  unfold State.dropOldest
  split
  case h_1 n g rest hq =>
    split
    · have hle : rest.length < checkPlaces := by
        rw [hq, List.length_cons] at h
        omega
      exact (Spelling.keepWords_checkq_le _ _).trans_lt hle
    case isFalse hlt => exact not_le.mp hlt
  case h_2 hq => simp [hq, checkPlaces]

theorem takeLookup_length_le (words : List SpellWord) (start : List Nat → BucketPlace × Nat) (q : List (Word × Byte)) :
    (takeLookup words start q).2.length ≤ q.length := by
  induction q with
  | nil => exact le_rfl
  | cons e rest ih =>
    unfold takeLookup
    split
    · exact Nat.le_succ _
    · exact ih.trans (Nat.le_succ _)

theorem State.evolves.pumpEngine (h : s.evolves t) : s.evolves t.pumpEngine := by
  unfold State.pumpEngine
  split
  · exact h
  · exact h.spell_le le_rfl (takeLookup_length_le _ _ _) le_rfl

theorem State.evolves.appendCheck (h : s.evolves t) (n : Word) : s.evolves (t.appendCheck n) := by
  refine h.trans ?_
  have hdrop := (State.evolves.refl t).dropOldest
  unfold State.appendCheck
  dsimp only
  split
  · exact hdrop
  · refine .pumpEngine { hdrop with
      words := fun hw => (changeWord_length _ _ _).le.trans (hdrop.words hw)
      checkq := fun hc => ?_ }
    have hfree := State.dropOldest_checkq_lt hc
    simp only [State.view, List.length_append, List.length_singleton]
    omega

theorem State.evolves.enterQueue (h : s.evolves t) (n : Word) : s.evolves (t.enterQueue n) := by
  unfold State.enterQueue
  split
  · exact h.spell_le (changeWord_length _ _ _).le le_rfl le_rfl
  · exact h.appendCheck n

theorem State.evolves.checkWord (h : s.evolves t) (n : Word) : s.evolves (t.checkWord n) := by
  unfold State.checkWord
  split
  · exact h
  · split
    · exact h
    · exact h.setVerdict _ _
    · exact h.enterQueue _

theorem State.evolves.checkWords (h : s.evolves t) (l : List Word) : s.evolves (l.foldl State.checkWord t) := by
  induction l generalizing t with
  | nil => exact h
  | cons n l ih => exact ih (h.checkWord n)

theorem State.evolves.runSweep (h : s.evolves t) (k : Nat) : s.evolves (State.runSweep k t) := by
  induction k generalizing t with
  | zero => exact h
  | succ k ih =>
    unfold State.runSweep
    dsimp only
    split
    · exact h
    case h_2 n hn =>
      split
      · exact h
      · split
        · exact h
        · apply ih
          split
          · exact h.checkWord n
          · exact h

theorem State.evolves.spellOn (h : s.evolves t) : s.evolves t.spellOn := h.pumpEngine.runSweep _

theorem State.evolves.startSweep (h : s.evolves t) : s.evolves t.startSweep := by
  unfold State.startSweep
  exact .spellOn h

theorem State.evolves.respell (h : s.evolves t) : s.evolves t.respell := by
  unfold State.respell
  dsimp only
  refine .spellOn (.checkWords (.setRefs (h.within ?_) _) _)
  refine (foldl_matchSegment_within t.segments ⟨t.spell, [], [], [], []⟩).trans ?_
  exact ⟨(Spelling.keepWords_words_le _ _).trans, (Spelling.keepWords_checkq_le _ _).trans, rfl⟩

/-! ### Line ends, releases and changes of the lexicon (R113, R121 to R126) -/

theorem State.evolves.completeWords (h : s.evolves t) (within : SpellWord → Bool) :
    s.evolves (t.completeWords within) := by
  unfold State.completeWords
  refine .checkWords ?_ _
  exact h.spell_le (by simp) le_rfl le_rfl

theorem State.evolves.retireWords (h : s.evolves t) (within : SpellWord → Bool) :
    s.evolves (t.retireWords within) := by
  unfold State.retireWords
  exact .spellOn (h.keepWords _ (List.length_map _) le_rfl le_rfl)

theorem State.evolves.spellLineEnd (h : s.evolves t) : s.evolves t.spellLineEnd := by
  unfold State.spellLineEnd
  dsimp only
  refine .retireWords ?_ _
  exact h.completeWords _

theorem State.evolves.markBoundary (h : s.evolves t) : s.evolves t.markBoundary := by
  unfold State.markBoundary
  split
  · exact h
  · split
    · exact h
    · exact .respell h

theorem State.evolves.trimMarks (h : s.evolves t) : s.evolves t.trimMarks := h

theorem State.evolves.lexiconChanged (h : s.evolves t) : s.evolves t.lexiconChanged := by
  unfold State.lexiconChanged
  dsimp only
  have hrespell (p : Spelling) (hw : p.words.length = t.spell.words.length) (hc : p.checkq = [])
      (hu : p.users = t.spell.users) : s.evolves (State.respell { t with spell := p.purge }) :=
    .respell (h.keepWords _ hw (by simp [hc]) (by rw [hu]))
  split
  · exact .startSweep (hrespell _ (List.length_map _) rfl rfl)
  · exact hrespell _ (List.length_map _) rfl rfl

theorem State.evolves.setSpell (h : s.evolves t) (v : Bool) : s.evolves (t.setSpell v) := by
  unfold State.setSpell
  dsimp only
  split
  · exact h
  · have hset : s.evolves { t with set := { t.set with spell := v } } := h
    split
    · exact .startSweep (hset.keepWords _ (List.length_map _) le_rfl le_rfl)
    · exact hset.keepWords _ (List.length_map _) (Nat.zero_le _) le_rfl

theorem State.evolves.addUserWord (h : s.evolves t) (letters : List Nat) (hroom : t.spell.users.length < userPlaces) :
    s.evolves (t.addUserWord letters) := by
  unfold State.addUserWord
  dsimp only
  refine .spellOn (h.withSpell ?_ ?_ ?_)
  · exact ((Spelling.keepWords_words_le _ _).trans (List.length_map _).le).trans
  · exact ((Spelling.keepWords_checkq_le _ _).trans (List.length_filter_le _ _)).trans
  · intro
    show (t.spell.users ++ [letters]).length ≤ userPlaces
    rw [List.length_append, List.length_singleton]
    exact hroom

theorem State.evolves.removeUserWord (h : s.evolves t) (letters : List Nat) : s.evolves (t.removeUserWord letters) := by
  unfold State.removeUserWord
  dsimp only
  exact .startSweep (h.spell_le ((Spelling.keepWords_words_le _ _).trans (List.length_map _).le)
    (Spelling.keepWords_checkq_le _ _) (List.length_filter_le _ _))

theorem State.evolves.applyLookup (h : s.evolves t) (l : Lookup) (found : Bool) : s.evolves (t.applyLookup l found) := by
  unfold State.applyLookup
  split
  · exact h
  · split
    · split
      · exact h.setVerdict _ _
      · exact (((h.setVerdict _ _).raise _ _).signal _).event _
    · exact h

theorem State.evolves.completeLookup (h : s.evolves t) : s.evolves t.completeLookup := by
  unfold State.completeLookup
  split
  · exact h
  · refine .spellOn (.applyLookup ?_ _ _)
    exact h

end Sys2Proof.Machine
end

section
/-! PROOF, shared by O56, O58, O59 and O60: line boundaries, the line record and the Print Sequencer keep the bounds. -/

namespace Sys2Proof.Machine

variable {s t : State}

/-! ### Line boundaries (R25, R26) -/

theorem Composer.applyPending_recs_le (c : Composer) (j : Justify) :
    (c.applyPending j).recs.length ≤ c.recs.length := by
  unfold Composer.applyPending
  dsimp only
  (repeat' split) <;> first | exact le_rfl | exact Nat.zero_le _

theorem Composer.applyPending_tabs (c : Composer) (j : Justify) : (c.applyPending j).tabs = c.tabs := by
  unfold Composer.applyPending
  dsimp only
  (repeat' split) <;> rfl

theorem State.evolves.reachBoundary (h : s.evolves t) : s.evolves t.reachBoundary := by
  have hcomp := h.recs (t.comp.applyPending_recs_le t.set.justify).trans (t.comp.applyPending_tabs t.set.justify)
  have hwindow := hcomp.windowTo (d := { t.disp with window := 0 }) (fun _ => rfl) rfl
  unfold State.reachBoundary
  dsimp only
  split
  · exact hwindow.respell
  · exact hwindow

theorem State.evolves.boundaryAfter (h : s.evolves t) (was : Bool) : s.evolves (t.boundaryAfter was) := by
  unfold State.boundaryAfter
  split
  · exact h.reachBoundary
  · exact h

theorem State.evolves.setLine (h : s.evolves t) (v : LineValue) : s.evolves (t.setLine v).1 := by
  unfold State.setLine
  split
  · refine .reachBoundary ?_
    exact h
  · split <;> exact h

/-! ### Order references and the entries (R65, R89 to R95) -/

theorem Order.inTravel_dropRef {o : Order} (h : o.inTravel) : o.dropRef.inTravel := by
  cases o <;> exact h

theorem dropRefsTo_inTravel {l : List Order} (n : Word) (h : ∀ o ∈ l, o.inTravel) : ∀ o ∈ dropRefsTo n l, o.inTravel := by
  intro o ho
  obtain ⟨p, hp, rfl⟩ := List.mem_map.mp ho
  split
  · exact Order.inTravel_dropRef (h p hp)
  · exact h p hp

theorem dropRefs_inTravel {l : List Order} (h : ∀ o ∈ l, o.inTravel) : ∀ o ∈ dropRefs l, o.inTravel := by
  intro o ho
  obtain ⟨p, hp, rfl⟩ := List.mem_map.mp ho
  exact Order.inTravel_dropRef (h p hp)

theorem State.evolves.removeEntry (h : s.evolves t) (n : Word) : s.evolves (t.removeEntry n) :=
  h.orders rfl (List.length_map _).le.trans (List.length_filter_le _ _).trans
    (fun ht => ⟨dropRefsTo_inTravel n ht.1, fun e he => ht.2 e (List.mem_of_mem_filter he)⟩)

/-- An entry changed has no other strikes than it had, but for their status (R91, R94). -/
theorem State.evolves.changeEntry (h : s.evolves t) (n : Word) {f : Entry → Entry}
    (hf : ∀ e, (∀ g ∈ t.line.entries, g.inTravel) → e ∈ t.line.entries → (f e).inTravel) :
    s.evolves { t with line := t.line.change n f } := by
  refine h.orders rfl id (List.length_map _).le.trans (fun ht => ⟨ht.1, fun e he => ?_⟩)
  obtain ⟨g, hg, rfl⟩ := List.mem_map.mp he
  split
  · exact hf g ht.2 hg
  · exact ht.2 g hg

theorem State.evolves.followText (h : s.evolves t) : s.evolves t.followText := by
  unfold State.followText
  refine .moveWindow (.respell ?_)
  exact h

theorem State.evolves.textChanged (h : s.evolves t) (was : Bool) : s.evolves (t.textChanged was) :=
  h.followText.boundaryAfter was

theorem State.evolves.dropOldestEntry (h : s.evolves t) : s.evolves t.dropOldestEntry := by
  unfold State.dropOldestEntry
  split
  · exact h
  · split
    · exact h
    · exact h.removeEntry _

/-- A place of the line record is free (R89). -/
theorem State.dropOldestEntry_entries_lt (h : t.line.entries.length ≤ entryPlaces) :
    t.dropOldestEntry.line.entries.length < entryPlaces := by
  unfold State.dropOldestEntry
  split
  · assumption
  · split
    case h_1 hnil => simp [hnil, entryPlaces]
    case h_2 e l hl =>
      refine lt_of_lt_of_le ?_ h
      exact List.length_filter_lt_length_iff_exists.mpr ⟨e, by simp [hl], by simp⟩

theorem State.evolves.emptyRecord (h : s.evolves t) : s.evolves t.emptyRecord := by
  refine h.orders rfl (List.length_map _).le.trans (fun _ => Nat.zero_le _)
    (fun ht => ⟨dropRefs_inTravel ht.1, fun e he => ?_⟩)
  cases he

/-! ### Appending strikes (R54, R66, R93) -/

@[simp] theorem strikeOrders_length (ref : Option Word) (n : Word) (l : List Strike) :
    (strikeOrders ref n l).length = l.length := by
  induction l generalizing n with
  | nil => rfl
  | cons k l ih => simp [strikeOrders, ih]

theorem strikeOrders_inTravel (ref : Option Word) (n : Word) {l : List Strike} (h : ∀ k ∈ l, k.pos ≤ lastPosition) :
    ∀ o ∈ strikeOrders ref n l, o.inTravel := by
  induction l generalizing n with
  | nil => intro o ho; cases ho
  | cons k l ih =>
    intro o ho
    rcases List.mem_cons.mp ho with rfl | ho
    · exact h k List.mem_cons_self
    · exact ih _ (fun j hj => h j (List.mem_cons_of_mem _ hj)) o ho

theorem strikeRecords_inTravel (n : Word) {l : List Strike} (h : ∀ k ∈ l, k.pos ≤ lastPosition) :
    ∀ k ∈ strikeRecords n l, k.pos ≤ lastPosition := by
  induction l generalizing n with
  | nil => intro o ho; cases ho
  | cons k l ih =>
    intro o ho
    rcases List.mem_cons.mp ho with rfl | ho
    · exact h k List.mem_cons_self
    · exact ih _ (fun j hj => h j (List.mem_cons_of_mem _ hj)) o ho

/-- The strikes that enter the queue are those within the travel (R54). -/
theorem inTravel_pos {set : List Strike} : ∀ k ∈ inTravel set, k.pos ≤ lastPosition :=
  fun _ hk => of_decide_eq_true (List.mem_filter.mp hk).2

theorem State.evolves.appendStrikes (h : s.evolves t) (ref : Option Word) (set : List Strike)
    (hroom : t.seq.queue.length + (inTravel set).length ≤ queuePlaces) : s.evolves (t.appendStrikes ref set) := by
  have horders : s.evolves { t with seq := { t.seq with
      queue := t.seq.queue ++ strikeOrders ref t.seq.nextStrike (inTravel set)
      nextStrike := t.seq.nextStrike + BitVec.ofNat 16 (inTravel set).length } } := by
    refine h.orders rfl (fun _ => ?_) id (fun ht => ⟨?_, ht.2⟩)
    · simpa using hroom
    · exact List.forall_mem_append.mpr ⟨ht.1, strikeOrders_inTravel _ _ inTravel_pos⟩
  unfold State.appendStrikes
  dsimp only
  split <;> exact horders

theorem State.dropOldestEntry_queue_length (t : State) :
    t.dropOldestEntry.seq.queue.length = t.seq.queue.length := by
  unfold State.dropOldestEntry
  split
  · rfl
  · split
    · rfl
    · simp [State.removeEntry, dropRefsTo]

theorem State.evolves.appendEntry (h : s.evolves t) (code : Byte) (kind : EntryKind) (pos adv : Nat) (set : List Strike)
    (hroom : t.seq.queue.length + (inTravel set).length ≤ queuePlaces) :
    s.evolves (t.appendEntry code kind pos adv set) := by
  refine h.trans ?_
  have hdrop := (State.evolves.refl t).dropOldestEntry
  unfold State.appendEntry
  dsimp only
  refine .appendStrikes ?_ _ _ ((congrArg (· + _) t.dropOldestEntry_queue_length).le.trans hroom)
  refine { hdrop with entries := ?entries, travel := ?travel }
  case entries =>
    intro he
    have hfree := State.dropOldestEntry_entries_lt he
    simp only [State.view, List.length_append, List.length_singleton]
    omega
  case travel =>
    intro ht
    refine ⟨(hdrop.travel ht).1, List.forall_mem_append.mpr ⟨(hdrop.travel ht).2, ?_⟩⟩
    intro e he
    cases List.mem_singleton.mp he
    exact strikeRecords_inTravel _ inTravel_pos

/-! ### The Print Sequencer's reports (R77, R94, R101) -/

theorem Entry.changeStrike_inTravel {e : Entry} (num : Word) (f : StrikeStatus → StrikeStatus) (h : e.inTravel) :
    (e.changeStrike num f).inTravel := by
  intro k hk
  obtain ⟨j, hj, rfl⟩ := List.mem_map.mp hk
  split <;> exact h j hj

theorem State.evolves.reportStrike (h : s.evolves t) (ref : Option Word) (num : Word) (f : StrikeStatus → StrikeStatus) :
    s.evolves (t.reportStrike ref num f) := by
  unfold State.reportStrike
  split
  · exact h
  · exact h.changeEntry _ (fun e hall he => Entry.changeStrike_inTravel _ _ (hall e he))

theorem State.evolves.reportInFlight (h : s.evolves t) (o : Order) : s.evolves (t.reportInFlight o) := by
  unfold State.reportInFlight
  split
  · exact h.reportStrike _ _ _
  · exact h

theorem State.evolves.reportLeftFlight (h : s.evolves t) (o : Order) : s.evolves (t.reportLeftFlight o) := by
  unfold State.reportLeftFlight
  split
  · exact h.reportStrike _ _ _
  · exact h

theorem State.evolves.reportLift (h : s.evolves t) (ref : Option Word) (skipped : Bool) :
    s.evolves (t.reportLift ref skipped) := by
  unfold State.reportLift
  split
  · exact h
  case h_2 e he =>
    obtain ⟨n, -, hfind⟩ := Option.bind_eq_some_iff.mp he
    have hmem : e ∈ t.line.entries := List.mem_of_find?_eq_some hfind
    dsimp only
    split
    · exact h
    · split
      · exact h.changeEntry _ (fun _ hall _ => hall e hmem)
      · split
        · refine .textChanged ?_ _
          exact h.changeEntry _ (fun _ hall _ => hall e hmem)
        · exact (h.removeEntry _).textChanged _

theorem State.evolves.reportDone (h : s.evolves t) (petal wheel level : Nat) (o : Order) :
    s.evolves (t.reportDone petal wheel level o) := by
  unfold State.reportDone
  split
  · exact h.reportStrike _ _ _
  · exact h.reportLift _ _
  · exact h

theorem State.evolves.reportSkipped (h : s.evolves t) (o : Order) : s.evolves (t.reportSkipped o) := by
  unfold State.reportSkipped
  split
  · exact h.reportStrike _ _ _
  · exact h.reportLift _ _
  · exact h

/-! ### Mechanism states and faults (R67, R148, R149) -/

theorem State.evolves.enter (h : s.evolves t) (st : MechState) (r : Reason) : s.evolves (t.enter st r) := by
  unfold State.enter
  split
  · exact h
  · refine .event ?_ _
    exact h

theorem State.evolves.enterWheelWait (h : s.evolves t) (c : WheelCondition) : s.evolves (t.enterWheelWait c) := by
  unfold State.enterWheelWait
  split
  · exact (h.enter _ _).event _
  · exact (h.enter _ _).event _
  · exact h

theorem State.evolves.raiseFault (h : s.evolves t) (k : FaultKind) (ch : Channel) : s.evolves (t.raiseFault k ch) := by
  unfold State.raiseFault
  dsimp only
  split
  case h_1 r hr =>
    have hlist (f : FaultRec → FaultRec) :
        s.evolves { t with drv := { t.drv with faults := changeFault t.drv.faults k ch f } } :=
      h.faults (List.length_map _).le.trans
    split
    · exact hlist _
    · exact (hlist _).event _
  case h_2 =>
    split
    case isTrue hlt =>
      refine .event (h.faults (fun _ => ?_)) _
      simp only [List.length_append, List.length_singleton]
      omega
    · exact h

theorem State.evolves.clearFault (h : s.evolves t) (k : FaultKind) (ch : Channel) : s.evolves (t.clearFault k ch) :=
  h.faults (List.length_map _).le.trans

theorem State.evolves.driven (h : s.evolves t) (ch : Channel) : s.evolves (t.driven ch) := h.clearFault _ _

theorem State.evolves.drivenIf (h : s.evolves t) (b : Bool) (ch : Channel) : s.evolves (t.drivenIf b ch) := by
  unfold State.drivenIf
  split
  · exact h.driven ch
  · exact h

/-! ### Executing orders (R72 to R82) -/

theorem State.evolves.tailOrder (h : s.evolves t) {q : Sequencer} (hh : q.heat = t.seq.heat)
    (hq : q.queue = t.seq.queue.tail) : s.evolves { t with seq := q } := by
  refine h.orders (r := t.line) hh (fun hl => ?_) id (fun ht => ⟨fun o ho => ht.1 o ?_, ht.2⟩)
  · rw [hq, List.length_tail]
    omega
  · exact List.mem_of_mem_tail (hq ▸ ho)

theorem State.evolves.popOrder (h : s.evolves t) : s.evolves t.popOrder := h.tailOrder rfl rfl

theorem State.evolves.startPosition (h : s.evolves t) (o : Order) (petal level : Nat) :
    s.evolves (t.startPosition o petal level) := by
  unfold State.startPosition
  refine .reportInFlight ?_ _
  exact h

theorem State.evolves.skipOrder (h : s.evolves t) (o : Order) : s.evolves (t.skipOrder o) := by
  unfold State.skipOrder
  refine .reportSkipped ?_ _
  split
  · exact h.popOrder.event _
  · exact h.popOrder.raise _ _

theorem State.evolves.runOrders (h : s.evolves t) (n : Nat) : s.evolves (State.runOrders n t) := by
  induction n generalizing t with
  | zero => exact h
  | succ n ih =>
    unfold State.runOrders
    split
    · refine .enter ?_ _ _
      exact h
    · split
      · exact h.enter _ _
      · split
        · exact h.startPosition _ _ _
        · exact ih (h.skipOrder _)
        · exact h.enterWheelWait _
        · exact ih h.popOrder
        · exact h
        · exact h

theorem State.evolves.runQueue (h : s.evolves t) : s.evolves t.runQueue := h.runOrders _

theorem State.evolves.enterReady (h : s.evolves t) : s.evolves t.enterReady := by
  unfold State.enterReady
  split
  · refine .enter ?_ _ _
    exact h
  · split
    · exact h.enter _ _
    · exact (h.enter _ _).runQueue

theorem State.evolves.kick (h : s.evolves t) : s.evolves t.kick := by
  unfold State.kick
  split
  · exact (h.enter _ _).runQueue
  · exact h

theorem State.evolves.appendOrders (h : s.evolves t) {l : List Order}
    (hroom : t.seq.queue.length + l.length ≤ queuePlaces) (hl : ∀ o ∈ l, o.inTravel) : s.evolves (t.appendOrders l) := by
  unfold State.appendOrders
  refine .kick (h.orders (r := t.line) rfl (fun _ => ?_) id (fun ht => ⟨?_, ht.2⟩))
  · rwa [List.length_append]
  · exact List.forall_mem_append.mpr ⟨ht.1, hl⟩

theorem State.evolves.rejudge (h : s.evolves t) : s.evolves t.rejudge := by
  unfold State.rejudge
  split
  · split
    · exact h.enterReady
    · split
      · exact h
      · exact h.enterWheelWait _
    · split
      · exact h
      · exact h.enterWheelWait _
  · exact h

/-- A pulse begins only where H keeps to 255 (R76). -/
theorem State.evolves.heatCheck (h : s.evolves t) (petal level : Nat) : s.evolves (t.heatCheck petal level) := by
  unfold State.heatCheck
  dsimp only
  split
  case isTrue hle => exact { h with heat := fun _ => hle }
  · split <;> exact h

theorem State.evolves.positionComplete (h : s.evolves t) : s.evolves t.positionComplete := by
  unfold State.positionComplete
  split
  · split
    · refine .heatCheck ?_ _ _
      exact ((h.drivenIf _ _).drivenIf _ _).drivenIf _ _
    · exact h
  · exact h

theorem State.evolves.countPulse (h : s.evolves t) : s.evolves t.countPulse := by
  unfold State.countPulse
  split <;> exact h

theorem State.evolves.finishOrder (h : s.evolves t) (petal level : Nat) : s.evolves (t.finishOrder petal level) := by
  unfold State.finishOrder
  split
  · exact h.popOrder.reportDone _ _ _ _
  · exact h

theorem State.evolves.afterIndex (h : s.evolves t) (paper : Bool) : s.evolves (t.afterIndex paper) := by
  unfold State.afterIndex
  split
  · exact h.runQueue
  · refine .enter ?_ _ _
    exact h

theorem State.evolves.indexComplete (h : s.evolves t) (paper : Bool) : s.evolves (t.indexComplete paper) := by
  unfold State.indexComplete
  split
  · refine .afterIndex (.popOrder ?_) _
    exact h.driven _
  · exact h

theorem State.evolves.moveComplete (h : s.evolves t) : s.evolves t.moveComplete := by
  unfold State.moveComplete
  split
  · refine .runQueue (.popOrder ?_)
    exact h.driven _
  · exact h

/-! ### Motions stopped on the way and homing (R69 to R71, R74, R81) -/

theorem State.evolves.stopCarriage (h : s.evolves t) (dest : Nat) : s.evolves (t.stopCarriage dest) := by
  unfold State.stopCarriage
  split <;> exact h

theorem State.evolves.stopWheel (h : s.evolves t) (dest : Nat) : s.evolves (t.stopWheel dest) := by
  unfold State.stopWheel
  split <;> exact h

theorem State.evolves.stopTurning (h : s.evolves t) : s.evolves t.stopTurning := by
  unfold State.stopTurning
  split <;> exact h

theorem State.evolves.stopLift (h : s.evolves t) : s.evolves t.stopLift := by
  unfold State.stopLift
  split <;> exact h

/-- An INDEX keeps its place in the queue with the count not yet moved (R81). -/
theorem State.evolves.stopPaper (h : s.evolves t) (k : Nat) : s.evolves (t.stopPaper k) := by
  unfold State.stopPaper State.drawReached
  dsimp only
  split
  case h_1 c rest hq =>
    split
    · refine .popOrder ?_
      exact h
    · refine h.orders (r := t.line) rfl (fun hl => ?_) id (fun ht => ⟨fun o ho => ?_, ht.2⟩)
      · simpa [hq] using hl
      · rcases List.mem_cons.mp ho with rfl | ho
        · trivial
        · exact ht.1 o (by simp [State.view, hq, ho])
  case h_2 =>
    split
    · refine .popOrder ?_
      exact h
    · exact h
  case h_3 => exact h

theorem State.evolves.abandonFlight (h : s.evolves t) : s.evolves t.abandonFlight := by
  unfold State.abandonFlight
  split
  · refine .reportLeftFlight ?_ _
    dsimp only
    split
    · exact (h.stopCarriage _).stopWheel _
    · exact h.stopCarriage _
    · exact h.stopPaper _
    · exact h
  · exact h

theorem State.evolves.abandonHoming (h : s.evolves t) : s.evolves t.abandonHoming := by
  unfold State.abandonHoming
  split
  · exact h
  · refine .stopLift ?_
    dsimp only
    split
    · exact h.stopCarriage _
    · exact h.stopCarriage _
    · exact h.stopTurning
    · exact h.stopTurning
    · exact h

theorem Sequencer.pauseToRequest_eq (q : Sequencer) : ∃ r, q.pauseToRequest = { q with pauseReq := r } := by
  unfold Sequencer.pauseToRequest
  split <;> exact ⟨_, rfl⟩

theorem State.evolves.pauseToRequest (h : s.evolves t) : s.evolves { t with seq := t.seq.pauseToRequest } := by
  obtain ⟨r, hr⟩ := t.seq.pauseToRequest_eq
  rw [hr]
  exact h

theorem State.evolves.halt (h : s.evolves t) (k : FaultKind) : s.evolves (t.halt k) := by
  unfold State.halt
  split
  · exact h
  · exact .enter (.pauseToRequest h.abandonFlight.abandonHoming.stopLift) _ _

theorem State.evolves.fault (h : s.evolves t) (k : FaultKind) (ch : Channel) : s.evolves (t.fault k ch) := by
  unfold State.fault
  dsimp only
  split
  · exact (h.raiseFault _ _).halt _
  · exact h.raiseFault _ _

theorem State.evolves.homingFault (h : s.evolves t) (k : FaultKind) (ch : Channel) : s.evolves (t.homingFault k ch) := by
  unfold State.homingFault
  split
  · exact h.fault _ _
  · refine .enter ?_ _ _
    exact h.fault _ _

theorem State.evolves.startHoming (h : s.evolves t) : s.evolves t.startHoming := by
  unfold State.startHoming
  dsimp only
  have hreq := h.abandonHoming.pauseToRequest
  split
  · exact hreq.enter _ _
  · refine .enter ?_ _ _
    exact hreq

theorem State.evolves.homeSeen (h : s.evolves t) : s.evolves t.homeSeen := by
  unfold State.homeSeen
  split
  · exact (h.driven _).clearFault _ _
  · exact h

theorem State.evolves.returnComplete (h : s.evolves t) : s.evolves t.returnComplete := by
  unfold State.returnComplete
  split
  · exact h.driven _
  · exact h

theorem State.evolves.indexSeen (h : s.evolves t) : s.evolves t.indexSeen := by
  unfold State.indexSeen
  split
  · exact (h.driven _).clearFault _ _
  · exact h

theorem State.evolves.identified (h : s.evolves t) (code : Nat) : s.evolves (t.identified code) := by
  unfold State.identified
  dsimp only
  have hevent : s.evolves (State.event { t with seq := { t.seq with wheelCode := code } } (.wheelIdentified code)) := by
    refine .event ?_ _
    exact h
  split
  · exact hevent
  · split
    · exact hevent
    · exact hevent.event _

theorem State.evolves.identRead (h : s.evolves t) (code : Nat) : s.evolves (t.identRead code) := by
  unfold State.identRead
  split
  · split
    · exact h
    · refine .identified ?_ _
      exact h.driven _
  · exact h

theorem State.evolves.homingEnd (h : s.evolves t) : s.evolves t.homingEnd := by
  unfold State.homingEnd
  dsimp only
  split
  · refine .enterReady ?_
    exact h
  · refine .enterWheelWait ?_ _
    exact h

theorem State.evolves.homeLost (h : s.evolves t) : s.evolves t.homeLost := by
  unfold State.homeLost
  split
  · refine .homingFault ?_ _ _
    exact h
  · exact h

theorem State.evolves.indexLost (h : s.evolves t) : s.evolves t.indexLost := by
  unfold State.indexLost
  split
  · refine .homingFault ?_ _ _
    exact h
  · exact h

/-! ### Tests, the lift, pauses and the cover (R79, R83 to R86, R142 to R146) -/

theorem State.evolves.testResult (h : s.evolves t) (ch : Channel) (pass : Bool) : s.evolves (t.testResult ch pass) := by
  unfold State.testResult
  dsimp only
  split
  · refine .clearFault ?_ _ _
    exact h
  · refine .fault ?_ _ _
    exact h

theorem State.evolves.nextTest (h : s.evolves t) (ch : Channel) : s.evolves (t.nextTest ch) := by
  unfold State.nextTest
  split
  · exact h
  · split
    · exact h.homingEnd
    · exact h

theorem State.evolves.testComplete (h : s.evolves t) (pass : Bool) : s.evolves (t.testComplete pass) := by
  unfold State.testComplete
  split
  · exact (h.testResult _ _).nextTest _
  · split
    · refine .testResult ?_ _ _
      exact h
    · exact h

theorem State.evolves.rotationExpiry (h : s.evolves t) : s.evolves t.rotationExpiry := by
  unfold State.rotationExpiry
  split <;> exact h

theorem State.evolves.liftComplete (h : s.evolves t) : s.evolves t.liftComplete := by
  unfold State.liftComplete
  split
  · exact h
  · exact h.driven _

theorem State.evolves.restExpiry (h : s.evolves t) : s.evolves t.restExpiry := by
  unfold State.restExpiry
  split <;> exact h

theorem State.evolves.overcurrent (h : s.evolves t) (ch : Channel) : s.evolves (t.overcurrent ch) := by
  unfold State.overcurrent
  split
  · exact h.fault _ _
  · exact h

theorem State.evolves.pauseNow (h : s.evolves t) (r : PauseReason) : s.evolves (t.pauseNow r) := by
  unfold State.pauseNow
  refine .enter ?_ _ _
  exact h

theorem State.evolves.askPause (h : s.evolves t) (r : PauseReason) : s.evolves (t.askPause r) := by
  unfold State.askPause
  split
  · exact h
  · exact h.pauseNow r
  · split
    · exact h.pauseNow r
    · exact h
  · exact h

theorem State.evolves.askResume (h : s.evolves t) {paper : Bool} {u : State} (hu : t.askResume paper = some u) :
    s.evolves u := by
  unfold State.askResume at hu
  split at hu
  · cases hu
  · cases hu
    exact h.enterReady

theorem State.evolves.enterCover (h : s.evolves t) : s.evolves t.enterCover := by
  unfold State.enterCover
  exact .enter h.stopLift.pauseToRequest _ _

theorem State.evolves.endCoverStop (h : s.evolves t) : s.evolves t.endCoverStop := by
  unfold State.endCoverStop
  dsimp only
  have hcover : s.evolves (State.enterCover { t with seq := { t.seq with coverStop := false } }) := by
    refine .enterCover ?_
    exact h
  split
  · exact hcover
  · exact hcover.startHoming

theorem State.evolves.pulseComplete (h : s.evolves t) : s.evolves t.pulseComplete := by
  unfold State.pulseComplete
  split
  · dsimp only
    split
    · exact ((h.countPulse.driven _).finishOrder _ _).endCoverStop
    · exact h.countPulse.driven _
  · exact h

theorem State.evolves.recoverComplete (h : s.evolves t) : s.evolves t.recoverComplete := by
  unfold State.recoverComplete
  split
  · exact (h.finishOrder _ _).runQueue
  · exact h

theorem State.evolves.heatTick (h : s.evolves t) : s.evolves t.heatTick := by
  have hcooler : s.evolves { t with seq := { t.seq with heat := t.seq.heat - 1 } } :=
    { h with heat := fun hs => (Nat.sub_le _ _).trans (h.heat hs) }
  unfold State.heatTick
  dsimp only
  split
  · exact hcooler.heatCheck _ _
  · exact hcooler

theorem State.evolves.openCover (h : s.evolves t) : s.evolves t.openCover := by
  have hopen : s.evolves { t with coverOpen := true } := h
  unfold State.openCover
  dsimp only
  split
  · exact h
  · split
    · exact h
    · exact h
    · exact hopen.abandonHoming.enterCover
    · split
      · exact h
      · exact (hopen.finishOrder _ _).enterCover
      · exact hopen.enterCover
      · exact hopen.abandonFlight.enterCover
    · exact hopen.enterCover

theorem State.evolves.closeCover (h : s.evolves t) : s.evolves t.closeCover := by
  have hclosed : s.evolves { t with coverOpen := false } := h
  unfold State.closeCover
  dsimp only
  split
  · exact hclosed.startHoming
  · exact h

end Sys2Proof.Machine
end

section
/-! PROOF, shared by O56, O58, O59 and O60: the evaluation of every item of a feed, and the end of a step, keep the
bounds. -/

namespace Sys2Proof.Machine

variable {s t : State}

/-! ### Evaluations and the correction keys (R28, R96 to R105) -/

theorem State.evolves.refused (h : s.evolves t) : s.evolves (Eval.refused t).state := h.signal _

theorem State.hasRoom_iff (t : State) (n : Nat) : t.hasRoom n = true ↔ t.seq.queue.length + n ≤ queuePlaces :=
  decide_eq_true_iff

theorem State.evolves.withRoom (h : s.evolves t) (n : Nat) {f : State → State}
    (hf : t.seq.queue.length + n ≤ queuePlaces → s.evolves (f t)) : s.evolves (t.withRoom n f).state := by
  unfold State.withRoom
  split
  case isTrue hroom => exact hf ((t.hasRoom_iff n).mp hroom)
  · exact h

theorem State.evolves.refuseCorrect (h : s.evolves t) (r : CorrectReason) : s.evolves (t.refuseCorrect r).state :=
  (h.event _).refused

theorem lastWhere_mem {α : Type} {p : α → Bool} {l : List α} {a : α} (h : lastWhere p l = some a) : a ∈ l := by
  induction l with
  | nil => cases h
  | cons b l ih =>
    unfold lastWhere at h
    split at h
    case h_1 c hc => exact List.mem_cons_of_mem _ (ih (hc.trans h))
    case h_2 =>
      split at h
      · cases h
        exact List.mem_cons_self
      · cases h

theorem withoutOrders_inTravel {l : List Order} (n : Word) (h : ∀ o ∈ l, o.inTravel) :
    ∀ o ∈ withoutOrders n l, o.inTravel := fun o ho => h o (List.mem_of_mem_filter ho)

theorem State.evolves.cancelEntry (h : s.evolves t) (e : Entry) : s.evolves (t.cancelEntry e) := by
  unfold State.cancelEntry
  refine .textChanged ?_ _
  exact h.orders (q := t.seq.withQueue (withoutOrders e.seqNum t.seq.queue)) (r := t.line.remove e.seqNum) rfl
    (List.length_filter_le _ _).trans (List.length_filter_le _ _).trans
    (fun ht => ⟨withoutOrders_inTravel _ ht.1, fun f hf => ht.2 f (List.mem_of_mem_filter hf)⟩)

/-- A LIFT goes where its strike has printed (R100). -/
theorem State.liftOrders_inTravel (t : State) {e : Entry} (h : e.inTravel) : ∀ o ∈ t.liftOrders e, o.inTravel := by
  intro o ho
  obtain ⟨k, hk, hsome⟩ := List.mem_filterMap.mp ho
  have hpos := h k (List.mem_reverse.mp hk)
  split at hsome <;> cases hsome
  exact hpos

theorem Entry.lifting_inTravel {e : Entry} (n : Nat) (h : e.inTravel) : (e.lifting n).inTravel :=
  fun k hk => h k (List.mem_of_mem_filter hk)

theorem State.evolves.liftEntry (h : s.evolves t) {e : Entry} (he : e ∈ t.line.entries)
    (hroom : (withoutOrders e.seqNum t.seq.queue).length + (t.liftOrders e).length ≤ queuePlaces) :
    s.evolves (t.liftEntry e) := by
  unfold State.liftEntry State.appendOrders
  dsimp only
  refine .textChanged (.kick ?_) _
  refine h.orders (q := { t.seq.withQueue (withoutOrders e.seqNum t.seq.queue) with
      queue := withoutOrders e.seqNum t.seq.queue ++ t.liftOrders e })
    (r := t.line.change e.seqNum (fun f => f.lifting (t.liftOrders e).length)) rfl
    (fun _ => by rwa [List.length_append]) (List.length_map _).le.trans (fun ht => ⟨?_, fun f hf => ?_⟩)
  · exact List.forall_mem_append.mpr ⟨withoutOrders_inTravel _ ht.1, t.liftOrders_inTravel (ht.2 e he)⟩
  · obtain ⟨g, hg, rfl⟩ := List.mem_map.mp hf
    split
    · exact Entry.lifting_inTravel _ (ht.2 g hg)
    · exact ht.2 g hg

theorem State.correctTarget_mem {e : Entry} (h : t.correctTarget = some e) : e ∈ t.line.entries := lastWhere_mem h

/-- An entry is lifted only where there is room for its LIFT orders (R100). -/
theorem State.correctStep_lift {e : Entry} (h : t.correctStep e = .lift) :
    (withoutOrders e.seqNum t.seq.queue).length + (t.liftOrders e).length ≤ queuePlaces := by
  unfold State.correctStep at h
  split at h
  · cases h
  · cases h
  · cases h
  · split at h
    · cases h
    · split at h
      · cases h
      · split at h
        · assumption
        · cases h

theorem State.evolves.directCorrect (h : s.evolves t) : s.evolves t.directCorrect.state := by
  unfold State.directCorrect
  split
  · exact h.refuseCorrect _
  case h_2 e he =>
    split
    · exact h
    · exact h.refuseCorrect _
    · exact h.cancelEntry e
    case h_4 hlift => exact h.liftEntry (State.correctTarget_mem he) (State.correctStep_lift hlift)

theorem State.evolves.correctRun (h : s.evolves t) (n : Nat) (r : CorrectionRun) :
    s.evolves (State.correctRun n t r).state := by
  induction n generalizing t r with
  | zero => exact h
  | succ n ih =>
    unfold State.correctRun
    split
    · split
      · exact h
      · exact h.refuseCorrect _
    case h_2 e he =>
      split
      · exact h
      · split
        · exact h
        · exact h.refuseCorrect _
        · exact ih (h.cancelEntry e) _
        case h_4 hlift => exact ih (h.liftEntry (State.correctTarget_mem he) (State.correctStep_lift hlift)) _

theorem State.evolves.directRun (h : s.evolves t) (start : RunPhase) : s.evolves (t.directRun start).state :=
  h.correctRun _ _

theorem State.evolves.directRelocate (h : s.evolves t) : s.evolves t.directRelocate.state := by
  unfold State.directRelocate
  refine h.withRoom _ (fun hroom => .appendOrders ?_ hroom ?_)
  · exact h
  · exact fun o ho => by cases List.mem_singleton.mp ho; trivial

/-! ### Characters and line ends in DIRECT (R29 to R35) -/

theorem State.evolves.hotZoneCheck (h : s.evolves t) (p : Nat) : s.evolves (t.hotZoneCheck p) := by
  unfold State.hotZoneCheck
  split
  · refine .event (.signal ?_ _) _
    exact h
  · exact h

theorem State.evolves.syncCursor (h : s.evolves t) : s.evolves t.syncCursor := by
  unfold State.syncCursor
  split <;> exact h

theorem LineEnd.orders_length (left spacing : Nat) (k : LineEnd) : (k.orders left spacing).length = k.places := by
  cases k <;> rfl

theorem LineEnd.orders_inTravel (left spacing : Nat) (k : LineEnd) : ∀ o ∈ k.orders left spacing, o.inTravel := by
  cases k <;> simp [LineEnd.orders, Order.inTravel]

theorem State.evolves.lineEnd (h : s.evolves t) (k : LineEnd) (hroom : t.seq.queue.length + k.places ≤ queuePlaces) :
    s.evolves (t.lineEnd k) := by
  have hboundary : s.evolves (State.reachBoundary { t.spellLineEnd.emptyRecord with
      comp := { t.spellLineEnd.emptyRecord.comp with flags := .clear } }) := by
    refine .reachBoundary ?_
    exact h.spellLineEnd.emptyRecord
  have hqueue : (State.reachBoundary { t.spellLineEnd.emptyRecord with
      comp := { t.spellLineEnd.emptyRecord.comp with flags := .clear } }).seq.queue.length = t.seq.queue.length := by
    simp [State.emptyRecord, dropRefs]
  unfold State.lineEnd
  dsimp only
  generalize State.reachBoundary _ = u at hboundary hqueue
  have happended := hboundary.appendOrders (l := k.orders u.comp.left u.set.lineSpacing)
    (by rwa [LineEnd.orders_length, hqueue]) (LineEnd.orders_inTravel _ _ k)
  refine .moveWindow ?_
  split
  · exact happended
  · exact happended

theorem State.evolves.evalLineEnd (h : s.evolves t) (k : LineEnd) : s.evolves (t.evalLineEnd k).state :=
  h.withRoom _ (h.lineEnd k)

theorem State.evolves.takeDirect (h : s.evolves t) (code : Byte) (isDead bold underline : Bool)
    (hroom : t.seq.queue.length + (inTravel (t.directStrikes code isDead bold underline)).length ≤ queuePlaces) :
    s.evolves (t.takeDirect code isDead bold underline) := by
  have hkicked := (h.appendEntry code (entryKind code isDead) t.comp.logical (t.advance code isDead) _ hroom).kick
  unfold State.takeDirect
  dsimp only
  generalize State.kick _ = u at hkicked
  refine .textChanged ?_ _
  split
  · exact hkicked
  · refine .hotZoneCheck ?_ _
    exact hkicked

theorem State.evolves.placeDirect (h : s.evolves t) (code : Byte) (isDead bold underline : Bool) :
    s.evolves (t.placeDirect code isDead bold underline).state :=
  h.withRoom _ (h.takeDirect code isDead bold underline)

theorem State.evolves.directKeyChar (h : s.evolves t) (code : Byte) (isDead : Bool) :
    s.evolves (t.directKeyChar code isDead).state := by
  unfold State.directKeyChar
  split
  · exact (h.raise _ _).refused
  · split
    · exact h.refused
    · split
      · exact h.refused
      · exact h.placeDirect _ _ _ _

theorem State.evolves.advanceAbsent (h : s.evolves t) (code : Byte) : s.evolves (t.advanceAbsent code) := by
  unfold State.advanceAbsent
  dsimp only
  refine .hotZoneCheck ?_ _
  split
  · exact h
  · refine .event ?_ _
    exact h

theorem State.evolves.placeRemote (h : s.evolves t) (code : Byte) : s.evolves (t.placeRemote code).state := by
  unfold State.placeRemote
  split
  · exact h
  · split
    · exact h.advanceAbsent code
    · exact h.placeDirect _ _ _ _

theorem State.evolves.discardPastMargin (h : s.evolves t) : s.evolves t.discardPastMargin := by
  unfold State.discardPastMargin
  dsimp only
  split
  · exact h
  · refine .event ?_ _
    exact h

theorem State.evolves.afterAutoReturn (h : s.evolves t) (code : Byte) : s.evolves (t.afterAutoReturn code).state := by
  unfold State.afterAutoReturn
  split
  · exact h
  · split
    · exact h.placeRemote code
    · exact h

theorem State.evolves.remoteChar (h : s.evolves t) (code : Byte) : s.evolves (t.remoteChar code).state := by
  unfold State.remoteChar
  split
  · exact h
  · split
    · split
      · split
        case isTrue hroom => exact (h.lineEnd .full ((t.hasRoom_iff 2).mp hroom)).afterAutoReturn code
        · exact h
      · exact h.discardPastMargin.refused
    · exact h.placeRemote code

theorem State.evolves.backspaceDirect (h : s.evolves t) : s.evolves t.backspaceDirect := by
  unfold State.backspaceDirect
  split
  · exact h
  · refine .markBoundary ?_
    exact h

theorem State.evolves.tabTo (h : s.evolves t) (stop : TabStop) : s.evolves (t.tabTo stop) := by
  unfold State.tabTo
  refine .markBoundary ?_
  exact h

/-! ### The composition buffer (R39 to R43) -/

theorem State.evolves.editRecs (h : s.evolves t) (recs : List CompRec) (cursor : Nat)
    (hr : t.comp.recs.length ≤ recPlaces → recs.length ≤ recPlaces) : s.evolves (t.editRecs recs cursor) := by
  unfold State.editRecs
  refine .textChanged (.syncCursor ?_) _
  exact h.recs hr rfl

theorem State.evolves.moveCursor (h : s.evolves t) (c : Nat) : s.evolves (t.moveCursor c) := by
  unfold State.moveCursor
  refine .moveWindow (.syncCursor ?_)
  exact h

theorem insertAt_length {α : Type} (l : List α) (n : Nat) (a : α) : (insertAt l n a).length = l.length + 1 := by
  induction l, n, a using insertAt.induct <;> simp_all [insertAt]

/-- An insertion fits only where there is a place for its record (R39). -/
theorem State.judgeInsert_fits {c : CompRec} (h : t.judgeInsert c = .fits) : t.comp.recs.length < recPlaces := by
  unfold State.judgeInsert at h
  split at h
  · cases h
  · omega

theorem State.evolves.insertRec (h : s.evolves t) {c : CompRec} (hfits : t.judgeInsert c = .fits) :
    s.evolves (t.insertRec c) := by
  have hedit : s.evolves (t.editRecs (t.withRec c) (t.comp.cursor + 1)) :=
    h.editRecs _ _ (fun _ => (insertAt_length _ _ _).le.trans (State.judgeInsert_fits hfits))
  unfold State.insertRec
  dsimp only
  split
  · exact hedit.hotZoneCheck _
  · exact hedit

theorem State.evolves.holdRelease (h : s.evolves t) (w : SpellWord) (count : Nat) (fromReturn : Bool) :
    s.evolves (t.holdRelease w count fromReturn) := by
  unfold State.holdRelease
  dsimp only
  refine .moveCursor ?_ _
  exact h.event _

theorem State.evolves.releaseRecs (h : s.evolves t) (n : Nat) {carried : List CompRec}
    (hc : t.comp.recs.length ≤ recPlaces → carried.length ≤ recPlaces) : s.evolves (t.releaseRecs n carried) := by
  have hnew {u : State} (hu : s.evolves u) (c : Composer) (hcar : c.recs = carried) (htabs : c.tabs = u.comp.tabs) :
      s.evolves { u with comp := c } :=
    { hu with
      recs := fun hs => show c.recs.length ≤ recPlaces from hcar ▸ hc (Bounded.recs (Evolves.toBounded h) hs)
      tabs := fun hs => show stopsOrdered c.tabs from htabs ▸ Bounded.tabs (Evolves.toBounded hu) hs }
  unfold State.releaseRecs
  dsimp only
  refine .followText (.syncCursor (hnew (.moveWindow (.raise ?_ _ _)) _ rfl rfl))
  refine State.evolves.recs (.retireWords ?_ _) (fun _ => Nat.zero_le _) rfl
  split
  · exact h.event _
  · exact h

theorem State.evolves.evalRelease (h : s.evolves t) (n : Nat) {carried : List CompRec} (fromReturn : Bool)
    (hc : t.comp.recs.length ≤ recPlaces → carried.length ≤ recPlaces) :
    s.evolves (t.evalRelease n carried fromReturn).state := by
  unfold State.evalRelease
  dsimp only
  split
  · exact h
  · have hspelled := (h.completeWords (fun w => w.last < n)).spellOn
    split
    · exact hspelled
    · exact hspelled.holdRelease _ _ _
    · exact hspelled.releaseRecs _ (by simpa using hc)

theorem State.evolves.insertOrRefuse (h : s.evolves t) (c : CompRec) : s.evolves (t.insertOrRefuse c).state := by
  unfold State.insertOrRefuse
  split
  case h_1 hfits => exact h.insertRec hfits
  · exact h.refused

theorem State.evolves.wrap (h : s.evolves t) (code : Byte) (isDead : Bool) : s.evolves (t.wrap code isDead).state := by
  unfold State.wrap
  split
  · exact h.refused
  case h_2 i hi =>
    have hrelease := h.evalRelease (releasedCount t.comp.recs i) (carried := t.comp.recs.drop (i + 1)) false
      (fun hle => by rw [List.length_drop]; omega)
    dsimp only
    split
    · exact h.refused
    · split
      case h_1 hw => exact Release.state_of_wait hw ▸ hrelease
      case h_2 hw => exact (Release.state_of_refused hw ▸ hrelease).refused
      case h_3 hw => exact (Release.state_of_done hw ▸ hrelease).insertOrRefuse _

theorem State.evolves.lineKeyChar (h : s.evolves t) (code : Byte) (isDead : Bool) :
    s.evolves (t.lineKeyChar code isDead).state := by
  unfold State.lineKeyChar
  split
  · exact h.refused
  · split
    · exact (h.raise _ _).refused
    · split
      case h_1 hfits => exact h.insertRec hfits
      · exact h.refused
      · split
        · exact h.wrap _ _
        · exact h.refused

/-! ### Deletions and tab stops (R40, R44) -/

theorem State.evolves.cutTo (h : s.evolves t) {n : Nat} (hn : n ≤ t.comp.cursor) : s.evolves (t.cutTo n).state := by
  unfold State.cutTo State.deleteTo
  split
  · refine h.editRecs _ _ (fun hle => ?_)
    rw [List.length_append, List.length_take, List.length_drop]
    omega
  · exact h.refused

theorem State.evolves.deleteBefore (h : s.evolves t) : s.evolves t.deleteBefore.state := by
  unfold State.deleteBefore
  split
  · exact h.refused
  · exact h.cutTo (Nat.sub_le _ _)

/-- WORD_CORRECT cuts back, never forward (R40). -/
theorem wordCut_le (before : List CompRec) : wordCut before ≤ before.length := by
  unfold wordCut
  have hlen : before.length = before.reverse.length := List.length_reverse.symm
  split
  · exact Nat.zero_le _
  case h_2 c l hl =>
    rw [hlen, hl]
    split
    · exact Nat.le_succ _
    · exact (List.length_dropWhile_le _ _).trans (List.length_dropWhile_le _ _)

theorem State.evolves.deleteWord (h : s.evolves t) : s.evolves t.deleteWord.state := by
  unfold State.deleteWord
  split
  · exact h.refused
  · exact h.cutTo ((wordCut_le _).trans (List.length_take_le _ _))

theorem State.evolves.deleteAll (h : s.evolves t) : s.evolves t.deleteAll.state := by
  unfold State.deleteAll State.deleteTo
  split
  · exact h.refused
  · split
    · exact h.editRecs _ _ (fun _ => Nat.zero_le _)
    · exact h.refused

theorem mem_addStop {l : List TabStop} {a b : TabStop} (h : b ∈ addStop l a) : b = a ∨ b ∈ l := by
  induction l with
  | nil => exact .inl (List.mem_singleton.mp h)
  | cons u l ih =>
    unfold addStop at h
    split at h
    · exact List.mem_cons.mp h
    · split at h
      · exact (List.mem_cons.mp h).imp_right (List.mem_cons_of_mem _)
      · rcases List.mem_cons.mp h with rfl | h
        · exact .inr List.mem_cons_self
        · exact (ih h).imp_right (List.mem_cons_of_mem _)

/-- A stop added keeps the order of the stops (R44). -/
theorem addStop_pairwise {l : List TabStop} (a : TabStop) (h : l.Pairwise (fun t u => t.pos < u.pos)) :
    (addStop l a).Pairwise (fun t u => t.pos < u.pos) := by
  induction l with
  | nil => exact List.pairwise_singleton _ _
  | cons u l ih =>
    obtain ⟨hu, hl⟩ := List.pairwise_cons.mp h
    unfold addStop
    split
    case isTrue hlt =>
      refine List.pairwise_cons.mpr ⟨fun b hb => ?_, h⟩
      rcases List.mem_cons.mp hb with rfl | hb
      · exact hlt
      · exact hlt.trans (hu b hb)
    · split
      case isTrue heq => exact List.pairwise_cons.mpr ⟨fun b hb => heq ▸ hu b hb, hl⟩
      · refine List.pairwise_cons.mpr ⟨fun b hb => ?_, ih hl⟩
        rcases mem_addStop hb with rfl | hb
        · omega
        · exact hu b hb

theorem addStop_length_le (l : List TabStop) (a : TabStop) : (addStop l a).length ≤ l.length + 1 := by
  induction l with
  | nil => exact le_rfl
  | cons u l ih =>
    unfold addStop
    split
    · exact le_rfl
    · split
      · exact Nat.le_succ _
      · exact Nat.succ_le_succ ih

/-- Among ordered stops a position that has its stop gets no second one (R44). -/
theorem addStop_length_of_hasStop {l : List TabStop} {a : TabStop} (h : l.Pairwise (fun t u => t.pos < u.pos))
    (ha : hasStop l a.pos = true) : (addStop l a).length = l.length := by
  induction l with
  | nil => cases ha
  | cons u l ih =>
    obtain ⟨hu, hl⟩ := List.pairwise_cons.mp h
    obtain ⟨b, hb, hpos⟩ := List.any_eq_true.mp ha
    have hpos : b.pos = a.pos := of_decide_eq_true hpos
    unfold addStop
    rcases List.mem_cons.mp hb with rfl | hb
    · rw [if_neg (by omega), if_pos hpos.symm]
      rfl
    · have hlt := hu b hb
      rw [if_neg (by omega), if_neg (by omega), List.length_cons,
        ih hl (List.any_eq_true.mpr ⟨b, hb, decide_eq_true hpos⟩), List.length_cons]

theorem stopsOrdered_addStop {l : List TabStop} (a : TabStop) (h : stopsOrdered l)
    (hroom : hasStop l a.pos = true ∨ l.length < tabPlaces) : stopsOrdered (addStop l a) := by
  refine ⟨?_, addStop_pairwise a h.2⟩
  rcases hroom with hstop | hlt
  · exact (addStop_length_of_hasStop h.2 hstop).le.trans h.1
  · exact (addStop_length_le l a).trans hlt

theorem stopsOrdered_removeStop {l : List TabStop} (x : Nat) (h : stopsOrdered l) : stopsOrdered (removeStop l x) :=
  ⟨(List.length_filter_le _ _).trans h.1, h.2.filter _⟩

theorem State.evolves.changeTabs (h : s.evolves t) {tabs : List TabStop} {u : State}
    (hu : t.changeTabs tabs = some u) (ht : stopsOrdered t.comp.tabs → stopsOrdered tabs) : s.evolves u := by
  unfold State.changeTabs at hu
  dsimp only at hu
  split at hu
  · cases hu
    refine .syncCursor ?_
    exact h.stops ht rfl
  · cases hu

theorem State.evolves.evalTabSet (h : s.evolves t) (decimal : Bool) : s.evolves (t.evalTabSet decimal).state := by
  unfold State.evalTabSet
  dsimp only
  split
  · exact h.refused
  · split
    · exact h.refused
    case isFalse hroom =>
      split
      case h_1 u hu =>
        refine h.changeTabs hu (fun ht => stopsOrdered_addStop _ ht ?_)
        by_contra hnot
        rw [not_or, Bool.not_eq_true, not_lt] at hnot
        exact hroom (by simp [hnot])
      · exact h.refused

theorem State.evolves.evalTabClear (h : s.evolves t) : s.evolves t.evalTabClear.state := by
  unfold State.evalTabClear
  dsimp only
  split
  · exact h.refused
  · split
    case h_1 u hu => exact h.changeTabs hu (stopsOrdered_removeStop _)
    · exact h.refused

/-! ### The key functions (R37) -/

theorem State.evolves.evalMarginLeft (h : s.evolves t) : s.evolves t.evalMarginLeft.state := by
  unfold State.evalMarginLeft
  dsimp only
  split
  · exact h.setLine _
  · exact h.refused

theorem State.evolves.evalMarginRight (h : s.evolves t) : s.evolves t.evalMarginRight.state := by
  unfold State.evalMarginRight
  dsimp only
  split
  · exact h.setLine _
  · exact h.refused

theorem State.evolves.evalChar (h : s.evolves t) (code : Byte) : s.evolves (t.evalChar code).state := by
  unfold State.evalChar
  split
  · exact h.directKeyChar _ _
  · exact h.lineKeyChar _ _

theorem State.evolves.evalDead (h : s.evolves t) (code : Byte) : s.evolves (t.evalDead code).state := by
  unfold State.evalDead
  split
  · exact h.directKeyChar _ _
  · exact h.lineKeyChar _ _

theorem State.evolves.evalReturn (h : s.evolves t) : s.evolves t.evalReturn.state := by
  unfold State.evalReturn
  split
  · exact h.evalLineEnd _
  · have hrelease := h.evalRelease t.comp.recs.length (carried := []) true (fun _ => Nat.zero_le _)
    split
    case h_1 hw => exact Release.state_of_done hw ▸ hrelease
    case h_2 hw => exact Release.state_of_wait hw ▸ hrelease
    case h_3 hw => exact (Release.state_of_refused hw ▸ hrelease).refused

theorem State.evolves.evalBackspace (h : s.evolves t) : s.evolves t.evalBackspace.state := by
  unfold State.evalBackspace
  split
  · exact h.backspaceDirect
  · exact h.deleteBefore

theorem State.evolves.evalTab (h : s.evolves t) : s.evolves t.evalTab.state := by
  unfold State.evalTab
  split
  · split
    · exact h.tabTo _
    · exact h.refused
  · exact h.insertOrRefuse _

theorem State.evolves.evalMarginRelease (h : s.evolves t) : s.evolves t.evalMarginRelease.state := by
  unfold State.evalMarginRelease
  split
  · exact h
  · exact h.refused

theorem State.evolves.evalCorrect (h : s.evolves t) : s.evolves t.evalCorrect.state := by
  unfold State.evalCorrect
  split
  · exact h.directCorrect
  · exact h.deleteBefore

theorem State.evolves.evalWordCorrect (h : s.evolves t) : s.evolves t.evalWordCorrect.state := by
  unfold State.evalWordCorrect
  split
  · exact h.directRun _
  · exact h.deleteWord

theorem State.evolves.evalLineCorrect (h : s.evolves t) : s.evolves t.evalLineCorrect.state := by
  unfold State.evalLineCorrect
  split
  · exact h.directRun _
  · exact h.deleteAll

theorem State.evolves.evalRelocate (h : s.evolves t) : s.evolves t.evalRelocate.state := by
  unfold State.evalRelocate
  split
  · exact h.directRelocate
  · exact h.moveCursor _

theorem State.evolves.evalPaper (h : s.evolves t) (n : Int) : s.evolves (t.evalPaper n).state := by
  unfold State.evalPaper
  split
  · exact h.evalLineEnd _
  · split
    · exact h
    · exact h.withRoom _ (fun hroom => h.appendOrders hroom (by simp [Order.inTravel]))

theorem State.evolves.evalJustifyCycle (h : s.evolves t) : s.evolves t.evalJustifyCycle.state := by
  unfold State.evalJustifyCycle
  split
  · exact h.refused
  · exact h

theorem State.evolves.evalAcceptWord (h : s.evolves t) : s.evolves t.evalAcceptWord.state := by
  unfold State.evalAcceptWord
  split
  · split
    · exact h.setVerdict _ _
    · exact h.refused
  · exact h.refused

theorem State.evolves.evalAddWord (h : s.evolves t) : s.evolves t.evalAddWord.state := by
  unfold State.evalAddWord
  split
  · exact h.refused
  · split
    · exact h.refused
    · split
      · exact h
      · split
        · exact h.refused
        case isFalse hroom => exact h.addUserWord _ (not_le.mp hroom)

theorem State.evolves.evalCursorLeft (h : s.evolves t) : s.evolves t.evalCursorLeft.state := by
  unfold State.evalCursorLeft
  split
  · exact h.refused
  · split
    · exact h.refused
    · exact h.moveCursor _

theorem State.evolves.evalCursorRight (h : s.evolves t) : s.evolves t.evalCursorRight.state := by
  unfold State.evalCursorRight
  split
  · exact h.refused
  · split
    · exact h.refused
    · exact h.moveCursor _

theorem State.evolves.evalPause (h : s.evolves t) (paper : Bool) : s.evolves (t.evalPause paper).state := by
  unfold State.evalPause
  split
  · split
    case h_1 hu => exact h.askResume hu
    · exact h.refused
  · exact h.askPause _

theorem State.evolves.evalFunc (h : s.evolves t) (paper : Bool) (f : Func) : s.evolves (t.evalFunc paper f).state := by
  cases f with
  | shift => exact h
  | code => exact h
  | shiftLock => exact h
  | space => exact h.evalChar _
  | returnKey => exact h.evalReturn
  | backspace => exact h.evalBackspace
  | tab => exact h.evalTab
  | marginLeft => exact h.evalMarginLeft
  | marginRight => exact h.evalMarginRight
  | marginRelease => exact h.evalMarginRelease
  | tabSet => exact h.evalTabSet _
  | tabClear => exact h.evalTabClear
  | decimalTabSet => exact h.evalTabSet _
  | correct => exact h.evalCorrect
  | wordCorrect => exact h.evalWordCorrect
  | lineCorrect => exact h.evalLineCorrect
  | relocate => exact h.evalRelocate
  | paperUp => exact h.evalPaper _
  | paperDown => exact h.evalPaper _
  | halfUp => exact h.evalPaper _
  | halfDown => exact h.evalPaper _
  | pitchCycle => exact h.setLine _
  | modeToggle => exact h.setLine _
  | justifyCycle => exact h.evalJustifyCycle
  | spellToggle => exact h.setSpell _
  | acceptWord => exact h.evalAcceptWord
  | addWord => exact h.evalAddWord
  | cursorLeft => exact h.evalCursorLeft
  | cursorRight => exact h.evalCursorRight
  | boldToggle => exact h
  | underlineToggle => exact h
  | pause => exact h.evalPause _
  | sourceToggle => exact h.setLine _

theorem State.evolves.evalKey (h : s.evolves t) (paper : Bool) (a : KeyAction) : s.evolves (t.evalKey paper a).state := by
  unfold State.evalKey
  split
  · exact h.refused
  · split
    · exact h.evalChar _
    · exact h.evalDead _
    · exact h.evalFunc _ _

/-! ### Remote codes and the outgoing line (R36, R42) -/

theorem State.evolves.evalText (h : s.evolves t) (code : Byte) : s.evolves (t.evalText code).state := by
  unfold State.evalText
  (repeat' split)
  · exact h.remoteChar _
  · exact h.evalLineEnd _
  · exact h.evalLineEnd _
  · exact h.evalLineEnd _
  · exact h.backspaceDirect
  · exact h.tabTo _
  · exact h
  · exact h

theorem State.evolves.streamPlacement (h : s.evolves t) : s.evolves t.streamPlacement := by
  unfold State.streamPlacement
  split
  · split
    case isTrue hroom =>
      refine .kick (.appendStrikes ?_ _ _ ((t.hasRoom_iff _).mp hroom))
      exact h
    · exact h
  · exact h

theorem State.evolves.endOutgoing (h : s.evolves t) : s.evolves t.endOutgoing := by
  unfold State.endOutgoing
  split
  · split
    case isTrue hroom =>
      refine .boundaryAfter (.appendOrders ?_ ((t.hasRoom_iff 2).mp hroom) (by simp [Order.inTravel])) _
      exact h
    · exact h
  · exact h

/-! ### Key Intake and the end of a step (R14 to R28, R136) -/

theorem State.evolves.popKey (h : s.evolves t) : s.evolves t.popKey :=
  h.keys (fun hk => (List.length_tail).le.trans ((Nat.sub_le _ _).trans hk))

theorem State.evolves.repeatExpiry (h : s.evolves t) (periodic : Bool) : s.evolves (t.repeatExpiry periodic) := by
  unfold State.repeatExpiry
  split
  · split <;> exact h
  · exact h

theorem State.evolves.resolvePress (h : s.evolves t) (key : Nat) (e : KeyEntry) : s.evolves (t.resolvePress key e) := by
  unfold State.resolvePress
  dsimp only
  split
  case h_1 | h_2 | h_3 | h_4 =>
    refine .popKey ?_
    exact h
  all_goals exact h

theorem State.evolves.pressHead (h : s.evolves t) (key : Nat) : s.evolves (t.pressHead key) := by
  unfold State.pressHead
  split
  · exact h.popKey
  · split
    · unfold State.pressUnmapped
      refine .signal (.raise (.popKey ?_) _ _) _
      exact h
    · exact h.resolvePress _ _

theorem State.evolves.keyPressed (h : s.evolves t) : s.evolves t.keyPressed := by
  unfold State.keyPressed
  split
  · split
    · exact h
    · exact h.pressHead _
  · exact h

theorem State.evolves.keyReleased (h : s.evolves t) : s.evolves t.keyReleased := by
  unfold State.keyReleased
  split
  · split
    · refine .popKey ?_
      exact h
    · exact h
  · exact h

theorem State.evolves.dropSelected (h : s.evolves t) : s.evolves t.dropSelected := by
  unfold State.dropSelected
  split
  · exact h
  · split
    · refine .popKey ?_
      exact h
    · exact h

theorem State.evolves.finishKey {e : Eval} (h : s.evolves e.state) (a : KeyAction) : s.evolves (e.finishKey a) := by
  unfold Eval.finishKey
  split
  · refine .dropSelected ?_
    exact h
  · exact h

theorem State.evolves.finishText {e : Eval} (h : s.evolves e.state) : s.evolves e.finishText := by
  unfold Eval.finishText Composer.storeTextWait
  split
  · exact h
  · dsimp only
    split <;> exact h

theorem State.evolves.settleKey (h : s.evolves t) (pre : State) (anew : Bool) : s.evolves (pre.settleKey t anew) := by
  unfold State.settleKey
  split
  · split
    · exact (h.evalKey _ _).finishKey _
    · exact h
  · exact h

theorem State.evolves.settleText (h : s.evolves t) (pre mid : State) (anew : Bool) :
    s.evolves (pre.settleText mid t anew) := by
  unfold State.settleText
  split
  · split
    · split
      · exact h
      · exact (h.evalText _).finishText
    · exact h
  · exact h

theorem State.evolves.settle (h : s.evolves t) (pre : State) (anew : Bool) : s.evolves (t.settle pre anew) :=
  ((((h.settleKey pre anew).settleText pre t anew).settleKey _ _).formImage)

theorem State.evolves.keyRow (h : s.evolves t) (accepts : KeyAction → Bool) (paper : Bool) :
    s.evolves (t.keyRow accepts paper) := by
  unfold State.keyRow
  split
  · split
    · exact ((h.evalKey _ _).finishKey _).settle _ _
    · exact h
  · exact h

theorem State.evolves.textRow (h : s.evolves t) (accepts : Byte → Bool) : s.evolves (t.textRow accepts) := by
  unfold State.textRow
  split
  · split
    · exact ((h.evalText _).finishText).settle _ _
    · exact h
  · exact h

end Sys2Proof.Machine
end

section
/-! PROOF, shared by O56, O58, O59 and O60: the receiver, the return line and the Command Engine keep the bounds, and a
command pays the answer whose place it has reserved. -/

namespace Sys2Proof.Machine

variable {s t : State}

/-! ### The receiver and the return line (R169 to R175, R178) -/

theorem State.evolves.appendKey (h : s.evolves t) (b : Byte) : s.evolves (t.appendKey b) := by
  unfold State.appendKey
  dsimp only
  split
  case isTrue hlt =>
    refine h.keys (fun _ => ?_)
    rw [List.length_append, List.length_singleton]
    exact hlt
  · split
    · exact (h.raise _ _).signal _
    · refine .event ?_ _
      exact (h.raise _ _).signal _

theorem State.evolves.appendKeys (h : s.evolves t) (l : List Byte) : s.evolves (t.appendKeys l) := by
  unfold State.appendKeys
  induction l generalizing t with
  | nil => exact h
  | cons b l ih => exact ih (h.appendKey b)

theorem State.evolves.chargeText (h : s.evolves t) (l : List Byte) : s.evolves (t.chargeText l) := by
  unfold State.chargeText
  dsimp only
  split
  · exact h
  · refine .event (.raise ?_ _ _) _
    exact h

theorem State.evolves.leaveLocked (h : s.evolves t) : s.evolves t.leaveLocked := by
  have hevent : s.evolves (State.event { t with rx := { t.rx with sync := .hunt } } .linkLost) := by
    refine .event ?_ _
    exact h
  unfold State.leaveLocked
  dsimp only
  generalize State.event _ _ = u at hevent
  exact hevent

theorem State.evolves.blocks (h : s.evolves t) {r : Receiver}
    (hr : t.rx.window.length ≤ windowPlaces → r.window.length ≤ windowPlaces) : s.evolves { t with rx := r } :=
  Evolves.trans h { Evolves.refl t.view with blocks := hr }

theorem State.evolves.enterLocked (h : s.evolves t) : s.evolves t.enterLocked := by
  have hevent : s.evolves (State.event { t with rx := { t.rx with sync := .locked, window := [] } } .linkLocked) :=
    (h.blocks (fun _ => Nat.zero_le _)).event _
  unfold State.enterLocked
  generalize State.event _ _ = u at hevent
  exact hevent

theorem enterWindow_length_le {w : List Bool} (b : Bool) (h : w.length ≤ windowPlaces) :
    (enterWindow w b).length ≤ windowPlaces := by
  unfold enterWindow
  by_cases hlt : w.length < windowPlaces
  · rw [if_pos hlt, List.length_append, List.length_singleton]
    exact hlt
  · rw [if_neg hlt, List.length_append, List.length_tail, List.length_singleton]
    simp only [windowPlaces] at *
    omega

theorem State.evolves.noteBlock (h : s.evolves t) (bad : Bool) : s.evolves (t.noteBlock bad) := by
  have hnoted := h.blocks (r := { t.rx with window := enterWindow t.rx.window bad }) (enterWindow_length_le bad)
  unfold State.noteBlock
  dsimp only
  split
  · exact hnoted.leaveLocked
  · exact hnoted

theorem State.evolves.feed (h : s.evolves t) (l : List FeedByte) : s.evolves (t.feed l) := h

theorem State.evolves.huntCandidate (h : s.evolves t) (l : List FeedByte) : s.evolves (t.huntCandidate l) := by
  unfold State.huntCandidate
  dsimp only
  split <;> exact h

theorem State.evolves.confirmStray (h : s.evolves t) (l : List FeedByte) : s.evolves (t.confirmStray l) := by
  unfold State.confirmStray
  dsimp only
  split <;> exact h

theorem State.evolves.lockedStray (h : s.evolves t) (l : List FeedByte) : s.evolves (t.lockedStray l) := by
  unfold State.lockedStray
  dsimp only
  split
  case h_1 | h_2 =>
    refine .leaveLocked ?_
    exact h
  case h_3 => exact h

theorem State.evolves.lockedBad (h : s.evolves t) (l : List FeedByte) : s.evolves (t.lockedBad l) := by
  unfold State.lockedBad
  dsimp only
  split
  · refine .noteBlock ?_ _
    exact h
  · exact h

theorem State.evolves.sendReport (h : s.evolves t) (r : Report) : s.evolves (t.sendReport r) := by
  refine h.trans { Evolves.refl t.view with fill := fun hf => ?_, events := fun he => ?_ }
  · simp only [State.view, State.sendReport, List.length_tail] at hf ⊢
    omega
  · exact ((List.tail_sublist _).filter _).length_le.trans he

theorem State.evolves.blockSent (h : s.evolves t) : s.evolves t.blockSent := by
  unfold State.blockSent State.arbitrate
  split
  · exact h
  · split
    · exact h.slot rfl (.inr rfl)
    · exact h
    · exact h.sendReport _
    · exact h

theorem State.evolves.nextInterval (h : s.evolves t) : s.evolves t.nextInterval := by
  unfold State.nextInterval
  split
  · exact h
  · split <;> exact h

/-! ### The settings and the readers of the directory (R10, R157, R158, R163, R181 to R183) -/

theorem State.evolves.tellActive (h : s.evolves t) (k : TableKind) : s.evolves (t.tellActive k) := by
  unfold State.tellActive
  split
  · exact h.event _
  · exact h

theorem State.evolves.setKeyboard (h : s.evolves t) (v : Nat) : s.evolves (t.setKeyboard v) := by
  unfold State.setKeyboard
  split
  · exact h
  · refine .tellActive ?_ _
    exact h

theorem State.evolves.setLanguage (h : s.evolves t) (v : Nat) : s.evolves (t.setLanguage v) := by
  unfold State.setLanguage
  dsimp only
  split
  · exact h
  · refine .lexiconChanged (.tellActive ?_ _)
    exact h

theorem State.evolves.setDisplay (h : s.evolves t) (v : Bool) : s.evolves (t.setDisplay v) := by
  unfold State.setDisplay
  dsimp only
  split
  · exact h
  · split
    case isTrue hv => exact State.evolves.freshImage (h.display rfl (.inl hv))
    case isFalse => exact h.display rfl (.inr rfl)

theorem State.evolves.setBeeper (h : s.evolves t) (v : Bool) : s.evolves (t.setBeeper v) := by
  unfold State.setBeeper
  dsimp only
  split <;> exact h

theorem State.evolves.setDecimal (h : s.evolves t) {v : Bool} {u : State} (hu : t.setDecimal v = some u) :
    s.evolves u := by
  unfold State.setDecimal at hu
  dsimp only at hu
  split at hu
  · cases hu
    refine .syncCursor ?_
    exact h
  · cases hu

/-- The state that applying a setting gives; the one before where the value is not taken. -/
def Applied.stateFrom (s : State) : Applied → State
  | .done t => t
  | .later t => t
  | .inconsistent => s

theorem State.evolves.applyLine (h : s.evolves t) (v : LineValue) : s.evolves ((t.applyLine v).stateFrom t) := by
  unfold State.applyLine
  split <;> exact h.setLine v

theorem State.evolves.applySetting (h : s.evolves t) (v : Nat) (k : Setting) :
    s.evolves ((t.applySetting v k).stateFrom t) := by
  cases k with
  | mode => exact h.applyLine _
  | source => exact h.applyLine _
  | pitch => exact h.applyLine _
  | leftMargin =>
    unfold State.applySetting
    dsimp only
    split
    · exact h.applyLine _
    · exact h
  | rightMargin =>
    unfold State.applySetting
    dsimp only
    split
    · exact h.applyLine _
    · exact h
  | spell => exact h.setSpell _
  | language => exact h.setLanguage _
  | keyboard => exact h.setKeyboard _
  | expectedWheel =>
    refine State.evolves.rejudge (t := t.withSet _) ?_
    exact h
  | decimalChar =>
    unfold State.applySetting
    dsimp only
    split
    case h_1 hu => exact h.setDecimal hu
    · exact h
  | display => exact h.setDisplay _
  | beeper => exact h.setBeeper _
  | _ => exact h

theorem State.evolves.readersAct (h : s.evolves t) (pre : State) : s.evolves (pre.readersAct t) := by
  have hended : s.evolves { t.rejudge with intake := t.rejudge.intake.endRepeat } := h.rejudge
  unfold State.readersAct
  dsimp only
  split
  · split
    · exact h.rejudge
    · exact h.rejudge.lexiconChanged
  · split
    · exact hended
    · exact hended.lexiconChanged

/-! ### Answers owed (R176, R177) -/

/-- The report queue keeps its places, and beside the place of a seal's answer `n` places are reserved (R176, R177). -/
structure State.owes (s : State) (n : Nat) : Prop where
  fill     : s.ret.reports.length + s.ret.reserved ≤ reportPlaces
  events   : eventsIn s.ret.reports ≤ eventPlaces
  reserved : s.ret.reserved = (if s.tab.sealing.isSome then 1 else 0) + n

theorem State.reportsBounded_iff (s : State) : s.reportsBounded ↔ s.owes 0 :=
  ⟨fun ⟨hf, he, hr⟩ => ⟨hf, he, hr⟩, fun ⟨hf, he, hr⟩ => ⟨hf, he, hr⟩⟩

/-- From `s`, where `m` answers are owed, to `t`, where `n` are; the bounds are kept. -/
structure State.pays (s t : State) (m n : Nat) : Prop where
  bounded : Bounded s.view t.view
  owed    : s.owes m → t.owes n

theorem State.evolves.pays (h : s.evolves t) (n : Nat) : s.pays t n n where
  bounded := Evolves.toBounded h
  owed := fun ⟨hf, he, hr⟩ => by
    obtain ⟨hfill, hevents, hreserved, hsealing⟩ := Evolves.toToldOnly h
    refine ⟨hfill hf, hevents he, ?_⟩
    change t.ret.reserved = s.ret.reserved at hreserved
    change t.tab.sealing = s.tab.sealing at hsealing
    rw [hreserved, hsealing, hr]

theorem State.pays.trans {u : State} {l m n : Nat} (h : s.pays t l m) (k : t.pays u m n) : s.pays u l n :=
  ⟨h.bounded.trans k.bounded, k.owed ∘ h.owed⟩

/-- The bounds read nothing of the report queue or of a seal. -/
theorem Bounded.of_reports (a : View) (r : List Report) (n : Nat) (e : Option Seal) :
    Bounded a { a with reports := r, reserved := n, sealing := e } :=
  ⟨id, id, id, id, id, id, id, id, id, id, id, id, id, id⟩

/-- An ANSWER takes the place reserved for it (R177). -/
theorem State.answer_pays (s : State) (code : Byte) (o : CmdOutcome) (data : List Byte) (n : Nat) :
    s.pays (s.answer code o data) (n + 1) n where
  bounded := .of_reports _ _ _ _
  owed := fun ⟨hf, he, hr⟩ => by
    refine ⟨?_, ?_, ?_⟩
    · show (s.ret.reports ++ [_]).length + (s.ret.reserved - 1) ≤ reportPlaces
      rw [List.length_append, List.length_singleton]
      omega
    · simpa [State.answer, eventsIn, List.filter_cons, Report.isEvent] using he
    · show s.ret.reserved - 1 = (if s.tab.sealing.isSome then 1 else 0) + n
      omega

theorem State.evolves.answered (h : s.evolves t) (code : Byte) (o : CmdOutcome) (data : List Byte) (n : Nat) :
    s.pays (t.answer code o data) (n + 1) n :=
  (h.pays _).trans (t.answer_pays _ _ _ _)

/-- A place is reserved for the answer of a command that finds one free (R176). -/
theorem State.reserve_pays (h : s.ret.hasFree = true) (n : Nat) : s.pays s.reserve n (n + 1) where
  bounded := .of_reports _ _ _ _
  owed := fun ⟨_, he, hr⟩ => by
    refine ⟨s.ret.hasFree_iff.mp h, he, ?_⟩
    show s.ret.reserved + 1 = (if s.tab.sealing.isSome then 1 else 0) + (n + 1)
    omega

/-! ### The commands of the Command Engine -/

theorem State.setTo_pays (s : State) (k : Setting) (v n : Nat) : s.pays (s.setTo k v) (n + 1) n := by
  have happlied := (State.evolves.refl s).applySetting (k.clamp v) k
  unfold State.setTo
  dsimp only
  split
  · exact s.answer_pays _ _ _ _
  case h_2 u hu =>
    rw [hu] at happlied
    exact (State.evolves.settle happlied s false).answered _ _ _ _
  case h_3 u hu =>
    rw [hu] at happlied
    exact (State.evolves.settle happlied s false).answered _ _ _ _

theorem State.cmdSet_pays (s : State) (p : List Byte) (n : Nat) : s.pays (s.cmdSet p) (n + 1) n := by
  unfold State.cmdSet
  split
  · split
    · exact s.setTo_pays _ _ _
    · exact s.answer_pays _ _ _ _
  · exact s.answer_pays _ _ _ _

/-- Every query ends with its answer alone (R184). -/
theorem State.cmdQuery_eq (s : State) (p : List Byte) : ∃ o data, s.cmdQuery p = s.answer 0x02 o data := by
  unfold State.cmdQuery State.counterAnswer State.directoryAnswer State.lineAnswer State.wordsAnswer
    State.userWordAnswer
  (repeat' split) <;> exact ⟨_, _, rfl⟩

theorem State.cmdQuery_pays (s : State) (p : List Byte) (n : Nat) : s.pays (s.cmdQuery p) (n + 1) n := by
  obtain ⟨o, data, h⟩ := s.cmdQuery_eq p
  rw [h]
  exact s.answer_pays _ _ _ _

/-- A command that changes the slots and lets the readers act pays its answer. -/
theorem State.slots_pays (s : State) (l : List Slot) (code : Byte) (data : List Byte) (n : Nat) :
    s.pays (((s.readersAct (s.withSlots l)).settle s).answer code .done data) (n + 1) n := by
  refine (State.evolves.settle (.readersAct ?_ s) s false).answered _ _ _ _
  exact State.evolves.refl s

theorem State.openSlot_pays (s : State) (i : Nat) (k : TableKind) (key count n : Nat) :
    s.pays (s.openSlot i k key count) (n + 1) n := by
  unfold State.openSlot
  dsimp only
  split
  · exact s.answer_pays _ _ _ _
  · split
    · exact s.answer_pays _ _ _ _
    · exact s.slots_pays _ _ _ _

theorem State.cmdTableOpen_pays (s : State) (p : List Byte) (n : Nat) : s.pays (s.cmdTableOpen p) (n + 1) n := by
  unfold State.cmdTableOpen
  (repeat' split) <;> first | exact s.answer_pays _ _ _ _ | exact s.openSlot_pays _ _ _ _ _

theorem State.cmdTableWrite_pays (s : State) (p : List Byte) (n : Nat) : s.pays (s.cmdTableWrite p) (n + 1) n := by
  have hwrite (i index : Nat) (data : List Byte) : s.pays (s.writeSlot i index data) (n + 1) n := by
    unfold State.writeSlot
    dsimp only
    split
    · exact s.answer_pays _ _ _ _
    · split
      · exact s.answer_pays _ _ _ _
      · split
        · exact s.answer_pays _ _ _ _
        · exact State.evolves.answered (show s.evolves (s.writeSegments i index data) from .refl s) _ _ _ _
  unfold State.cmdTableWrite
  split
  · split
    · exact hwrite _ _ _
    · exact s.answer_pays _ _ _ _
  · exact s.answer_pays _ _ _ _

/-- The place reserved for the answer of TABLE_SEAL is that of the seal it starts (R160). -/
theorem State.cmdTableSeal_pays (h : s.tab.sealing = none) (p : List Byte) (n : Nat) :
    s.pays (s.cmdTableSeal p) (n + 1) n := by
  unfold State.cmdTableSeal
  dsimp only
  (repeat' split) <;> try exact s.answer_pays _ _ _ _
  refine ⟨.of_reports _ _ _ _, fun ⟨hf, he, hr⟩ => ⟨hf, he, ?_⟩⟩
  rw [h] at hr
  show s.ret.reserved = 1 + n
  exact hr.trans (by simp [Nat.add_comm])

theorem State.cmdTableDrop_pays (s : State) (p : List Byte) (n : Nat) : s.pays (s.cmdTableDrop p) (n + 1) n := by
  unfold State.cmdTableDrop
  split
  · split
    · exact s.answer_pays _ _ _ _
    · exact s.slots_pays _ _ _ _
  · exact s.answer_pays _ _ _ _

/-- The place that was a seal's is that of its answer once the seal has ended (R160). -/
theorem State.sealing_ends {e : Seal} (h : s.tab.sealing = some e) (n : Nat) :
    s.pays { s with tab := { s.tab with sealing := none } } n (n + 1) := by
  refine ⟨.of_reports _ _ _ _, fun ⟨hf, he, hr⟩ => ⟨hf, he, ?_⟩⟩
  rw [h] at hr
  show s.ret.reserved = 0 + (n + 1)
  exact hr.trans (by simp [Nat.add_comm])

/-- The answer of a seal that ends takes the place that was the seal's (R160 to R163). -/
theorem State.sealDone_pays (s : State) (n : Nat) : s.pays s.sealDone n n := by
  unfold State.sealDone
  dsimp only
  split
  · exact (State.evolves.refl s).pays n
  case h_2 e he =>
    refine (State.sealing_ends he n).trans ?_
    split
    · exact State.answer_pays _ _ _ _ _
    · split
      · exact State.answer_pays _ _ _ _ _
      · unfold State.sealSucceeds
        dsimp only
        refine (State.evolves.settle (.readersAct ?_ _) _ false).answered _ _ _ _
        split
        · refine .event ?_ _
          exact .refl _
        · exact .refl _

theorem State.commandTabs_pays (s : State) (code : Byte) {tabs : List TabStop} (n : Nat)
    (ht : stopsOrdered s.comp.tabs → stopsOrdered tabs) : s.pays (s.commandTabs code tabs) (n + 1) n := by
  unfold State.commandTabs
  split
  case h_1 u hu => exact (((State.evolves.refl s).changeTabs hu ht).settle s false).answered _ _ _ _
  · exact s.answer_pays _ _ _ _

theorem State.cmdTabAdd_pays (s : State) (p : List Byte) (n : Nat) : s.pays (s.cmdTabAdd p) (n + 1) n := by
  unfold State.cmdTabAdd
  dsimp only
  split
  · split
    · exact s.answer_pays _ _ _ _
    · split
      · exact s.answer_pays _ _ _ _
      case isFalse hroom =>
        refine s.commandTabs_pays _ _ (fun ht => stopsOrdered_addStop _ ht ?_)
        by_contra hnot
        rw [not_or, Bool.not_eq_true, not_lt] at hnot
        exact hroom (by simp [hnot])
  · exact s.answer_pays _ _ _ _

theorem State.cmdTabRemove_pays (s : State) (p : List Byte) (n : Nat) : s.pays (s.cmdTabRemove p) (n + 1) n := by
  unfold State.cmdTabRemove
  dsimp only
  split
  · split
    · exact s.commandTabs_pays _ _ (stopsOrdered_removeStop _)
    · exact s.answer_pays _ _ _ _
  · exact s.answer_pays _ _ _ _

theorem State.cmdTabsClear_pays (s : State) (p : List Byte) (n : Nat) : s.pays (s.cmdTabsClear p) (n + 1) n := by
  unfold State.cmdTabsClear
  split
  · exact s.commandTabs_pays _ _ (fun _ => ⟨Nat.zero_le _, .nil⟩)
  · exact s.answer_pays _ _ _ _

theorem State.cmdUserAdd_pays (s : State) (p : List Byte) (n : Nat) : s.pays (s.cmdUserAdd p) (n + 1) n := by
  unfold State.cmdUserAdd
  split
  · exact s.answer_pays _ _ _ _
  · dsimp only
    split
    · exact s.answer_pays _ _ _ _
    · split
      · exact s.answer_pays _ _ _ _
      case isFalse hroom =>
        exact (((State.evolves.refl s).addUserWord _ (not_le.mp hroom)).settle s false).answered _ _ _ _

theorem State.cmdUserRemove_pays (s : State) (p : List Byte) (n : Nat) : s.pays (s.cmdUserRemove p) (n + 1) n := by
  unfold State.cmdUserRemove
  split
  · exact s.answer_pays _ _ _ _
  · dsimp only
    split
    · exact (((State.evolves.refl s).removeUserWord _).settle s false).answered _ _ _ _
    · exact s.answer_pays _ _ _ _

theorem State.cmdPause_pays (s : State) (p : List Byte) (n : Nat) : s.pays (s.cmdPause p) (n + 1) n := by
  unfold State.cmdPause
  split
  · exact (((State.evolves.refl s).askPause _).settle s false).answered _ _ _ _
  · exact s.answer_pays _ _ _ _

theorem State.cmdResume_pays (s : State) (paper : Bool) (p : List Byte) (n : Nat) :
    s.pays (s.cmdResume paper p) (n + 1) n := by
  unfold State.cmdResume
  split
  · split
    · split
      case h_1 u hu => exact (((State.evolves.refl s).askResume hu).settle s false).answered _ _ _ _
      · exact s.answer_pays _ _ _ _
    · refine State.evolves.answered ?_ _ _ _ _
      exact .refl s
  · exact s.answer_pays _ _ _ _

theorem State.evolves.tellCleared (h : s.evolves t) (l : List FaultRec) : s.evolves (t.tellCleared l) := by
  unfold State.tellCleared
  induction l generalizing t with
  | nil => exact h
  | cons f l ih => exact ih (h.event _)

theorem State.cmdAckFault_pays (s : State) (p : List Byte) (n : Nat) : s.pays (s.cmdAckFault p) (n + 1) n := by
  have htold := ((State.evolves.refl s).faults (d := { s.drv with faults := s.drv.faults.filter FaultRec.isPresent })
    (List.length_filter_le _ _).trans).tellCleared (s.drv.faults.filter (fun f => !f.isPresent))
  unfold State.cmdAckFault State.ackFaults
  dsimp only
  split
  · split
    · refine (htold.answered 0x0E .done [byteOf (s.haltingCount (s.drv.faults.filter FaultRec.isPresent))] n).trans
        (State.evolves.pays (.settle ?_ _ _) _)
      split
      · exact State.evolves.startHoming (.refl _)
      · exact .refl _
    · exact (htold.answered 0x0E .notHalted _ _).trans (State.evolves.pays (.settle (.refl _) _ _) _)
  · exact s.answer_pays _ _ _ _

theorem State.cmdRestate_pays (s : State) (p : List Byte) (n : Nat) : s.pays (s.cmdRestate p) (n + 1) n := by
  unfold State.cmdRestate
  split
  · refine State.evolves.answered ?_ _ _ _ _
    exact .refl s
  · exact s.answer_pays _ _ _ _

theorem State.cmdClear_pays (s : State) (p : List Byte) (n : Nat) : s.pays (s.cmdClear p) (n + 1) n := by
  unfold State.cmdClear
  split
  · refine State.evolves.answered ?_ _ _ _ _
    exact .refl s
  · exact s.answer_pays _ _ _ _

/-! ### The restarts (R47, R88, R167, R179, R186) -/

theorem State.abortSeal_pays (s : State) (n : Nat) : s.pays s.abortSeal n n := by
  unfold State.abortSeal
  split
  · exact (State.evolves.refl s).pays n
  case h_2 e he =>
    exact (State.sealing_ends he n).trans (State.answer_pays _ _ _ _ _)

@[simp] theorem State.abortSeal_sealing (s : State) : s.abortSeal.tab.sealing = none := by
  unfold State.abortSeal
  split
  · assumption
  · rfl

theorem State.evolves.huntAfresh (h : s.evolves t) : s.evolves t.huntAfresh := by
  unfold State.huntAfresh
  split
  · exact h.leaveLocked
  · exact h

/-- The fresh report queue holds the answer of the restart alone (R179). -/
theorem State.freshReports_pays (h : s.tab.sealing = none) : s.pays s.freshReports 1 0 := by
  refine ⟨.of_reports _ _ _ _, fun _ => ⟨?_, ?_, ?_⟩⟩
  · simp [State.freshReports, State.restartAnswer, State.answer, reportPlaces]
  · simp [State.freshReports, State.restartAnswer, State.answer, eventsIn, Report.isEvent, eventPlaces]
  · simp [State.freshReports, State.restartAnswer, State.answer, h]

theorem State.restartLink_pays (h : s.tab.sealing = none) : s.pays s.restartLink 1 0 := by
  refine (State.freshReports_pays h).trans (State.evolves.pays ?_ 0)
  have hhunt := (State.evolves.refl s.freshReports).huntAfresh
  unfold State.restartLink
  dsimp only
  generalize s.freshReports.huntAfresh = u at hhunt
  refine .freshImage ?_
  exact hhunt

theorem State.evolves.clearText (h : s.evolves t) : s.evolves t.clearText := by
  have hfeeds : s.evolves t.emptyFeeds := h.keys (k := .powerOn) (fun _ => Nat.zero_le _)
  unfold State.clearText
  dsimp only
  refine .reachBoundary (.syncCursor ?_)
  have hspell := hfeeds.emptyRecord.spell_le (p := t.emptyFeeds.emptyRecord.spell.emptied) (Nat.zero_le _)
    (Nat.zero_le _) le_rfl
  exact hspell.recs (c := t.emptyFeeds.emptyRecord.comp.emptied t.emptyFeeds.emptyRecord.set.justify)
    (fun _ => Nat.zero_le _) rfl

theorem State.restartText_pays (s : State) (n : Nat) : s.pays s.restartText (n + 1) n :=
  (s.answer_pays _ _ _ _).trans ((State.evolves.refl s.restartAnswer).clearText.moveWindow.pays n)

theorem State.evolves.settleFlight (h : s.evolves t) : s.evolves t.settleFlight := by
  unfold State.settleFlight
  split
  · refine .finishOrder ?_ _ _
    unfold State.countPulse
    split <;> exact h.driven _
  · exact h.finishOrder _ _
  · exact h.abandonFlight

theorem State.evolves.clearOrders (h : s.evolves t) : s.evolves t.clearOrders := by
  have hcleared : s.evolves { t with
      seq := { t.seq with queue := [], heatCounted := false }
      line := { t.line with entries := (t.line.entries.filter Entry.stays).map Entry.restarted }
      comp := { t.comp with outgoing := none } } := by
    refine h.orders (q := { t.seq with queue := [], heatCounted := false })
      (r := { t.line with entries := (t.line.entries.filter Entry.stays).map Entry.restarted }) rfl
      (fun _ => Nat.zero_le _) (((List.length_map _).le.trans (List.length_filter_le _ _)).trans)
      (fun ht => ⟨fun o ho => (List.not_mem_nil ho).elim, fun f hf => ?_⟩)
    obtain ⟨e, he, rfl⟩ := List.mem_map.mp hf
    exact fun k hk => ht.2 e (List.mem_of_mem_filter he) k (List.mem_of_mem_filter hk)
  have htext := hcleared.textChanged t.atBoundary
  unfold State.clearOrders
  dsimp only
  generalize State.textChanged _ _ = u at htext
  split
  · exact htext
  · exact htext.syncCursor

theorem State.evolves.rehome (h : s.evolves t) : s.evolves t.rehome := by
  have hhoming := h.startHoming
  unfold State.rehome
  dsimp only
  generalize t.startHoming = u at hhoming
  exact hhoming

theorem State.restartMech_pays (s : State) (n : Nat) : s.pays s.restartMech (n + 1) n := by
  refine (s.answer_pays 0x11 .done [] n).trans (State.evolves.pays ?_ n)
  have hstopped := (State.evolves.refl s.restartAnswer).settleFlight.abandonHoming.stopLift
  unfold State.restartMech
  dsimp only
  generalize State.stopLift _ = u at hstopped
  refine .rehome (.clearOrders ?_)
  exact hstopped

theorem State.restartTables_pays (s : State) (n : Nat) : s.pays s.restartTables (n + 1) n := by
  refine (s.answer_pays 0x11 .done [] n).trans (State.evolves.pays ?_ n)
  unfold State.restartTables
  dsimp only
  refine .readersAct ?_ _
  exact .refl _

theorem State.restartCounters_pays (s : State) (n : Nat) : s.pays s.restartCounters (n + 1) n :=
  State.evolves.answered (t := { s with ctr := .zero }) (.refl s) _ _ _ _

/-- RESTART ALL before its events: every list is empty, and the answer of the restart stands alone (R186). -/
def State.allAfresh (s : State) : State :=
  let q := s.settleFlight.abandonHoming.stopLift
  { State.held s.pending s.coverOpen q.free with
    resetHeld := false
    rx := { s.rx with sync := .hunt }
    ret := { ReturnLine.powerOn with reports := [.answer 0x11 .done []], sending := s.ret.sending }
    tab := { TableStore.powerOn with mem := s.tab.mem }
    seq := q.seq.afterAll }

theorem State.restartAll_eq (s : State) : s.restartAll =
    State.freshImage (if s.rx.sync = .locked then s.allAfresh.event .linkLost else s.allAfresh).rehome := rfl

theorem View.inTravel_of_nil {a : View} (hq : a.queue = []) (he : a.entries = []) : a.inTravel := by
  simp [View.inTravel, hq, he]

theorem State.allAfresh_pays (s : State) : s.pays s.allAfresh 1 0 := by
  have hstopped := (State.evolves.refl s).settleFlight.abandonHoming.stopLift
  refine ⟨?_, fun _ => ⟨Nat.le_of_ble_eq_true rfl, Nat.zero_le _, rfl⟩⟩
  have hempty {p : Prop} {n : Nat} : p → 0 ≤ n := fun _ => Nat.zero_le n
  exact {
    heat := (Evolves.toBounded hstopped).heat
    travel := fun _ => View.inTravel_of_nil rfl rfl
    window := fun _ => rfl
    tabs := fun _ => ⟨Nat.zero_le _, .nil⟩
    blocks := id
    dark := fun _ _ => rfl
    queue := hempty, entries := hempty, keys := hempty, recs := hempty, words := hempty, checkq := hempty
    users := hempty, faults := hempty }

theorem State.restartAll_pays (s : State) : s.pays s.restartAll 1 0 := by
  rw [s.restartAll_eq]
  refine s.allAfresh_pays.trans (State.evolves.pays (.freshImage (.rehome ?_)) 0)
  split
  · exact State.evolves.event (.refl _) _
  · exact .refl _

theorem State.restart_pays (h : s.tab.sealing = none) (k : Selector) : s.pays (s.restart k) 1 0 := by
  have hsettles {u : State} (hu : s.pays u 1 0) (anew : Bool) : s.pays (u.settle s anew) 1 0 :=
    hu.trans (((State.evolves.refl u).settle s anew).pays 0)
  cases k with
  | link => exact hsettles (State.restartLink_pays h) false
  | text => exact hsettles (s.restartText_pays 0) false
  | mech => exact hsettles (s.restartMech_pays 0) true
  | tables => exact hsettles (s.restartTables_pays 0) false
  | counters => exact s.restartCounters_pays 0
  | all => exact s.restartAll_pays

theorem State.cmdRestart_pays (s : State) (p : List Byte) : s.pays (s.cmdRestart p) 1 0 := by
  unfold State.cmdRestart
  split
  · exact (s.abortSeal_pays 1).trans (State.restart_pays s.abortSeal_sealing _)
  · exact s.answer_pays _ _ _ _

/-! ### Command intake (R176) -/

theorem State.command_pays (code : Byte) (h : s.tab.sealing = none ∨ code = 0x11) (p : List Byte) (paper : Bool) :
    s.pays (s.command code p paper) 1 0 := by
  by_cases hseal : code = 0x05
  · subst hseal
    exact State.cmdTableSeal_pays (h.resolve_right (by decide)) p 0
  · unfold State.command
    have either {c : Prop} [Decidable c] {t u : State} (ht : s.pays t 1 0) (hu : s.pays u 1 0) :
        s.pays (if c then t else u) 1 0 := ite_holds (fun v => s.pays v 1 0) ht hu
    refine either (s.cmdSet_pays p 0) (either (s.cmdQuery_pays p 0) (either (s.cmdTableOpen_pays p 0)
      (either (s.cmdTableWrite_pays p 0) ?_)))
    rw [if_neg hseal]
    exact either (s.cmdTableDrop_pays p 0) (either (s.cmdTabAdd_pays p 0) (either (s.cmdTabRemove_pays p 0)
      (either (s.cmdTabsClear_pays p 0) (either (s.cmdUserAdd_pays p 0) (either (s.cmdUserRemove_pays p 0)
      (either (s.cmdPause_pays p 0) (either (s.cmdResume_pays paper p 0) (either (s.cmdAckFault_pays p 0)
      (either (s.cmdRestate_pays p 0) (either (s.cmdClear_pays p 0) (either (s.cmdRestart_pays p)
      (s.answer_pays _ _ _ _))))))))))))

theorem State.takeControl_pays (s : State) (code : Byte) (p : List Byte) (paper : Bool) :
    s.pays (s.takeControl code p paper) 0 0 := by
  unfold State.takeControl
  split
  · exact ((State.evolves.refl s).raise _ _).pays 0
  case isFalse hfree =>
    have hreserve := State.reserve_pays (s := s) (by simpa using hfree) 0
    split
    · exact hreserve.trans (State.answer_pays _ _ _ _ _)
    case isFalse hbusy =>
      refine hreserve.trans (State.command_pays code ?_ p paper)
      rw [not_and_or, not_not] at hbusy
      exact hbusy.imp_left (by simp [State.reserve])

theorem State.takeBlock_pays (s : State) (head : Byte) (payload : List Byte) (paper : Bool) :
    s.pays (s.takeBlock head payload paper) 0 0 := by
  unfold State.takeBlock
  split
  · exact ((State.evolves.refl s).appendKeys _).pays 0
  · exact ((State.evolves.refl s).chargeText _).pays 0
  · exact s.takeControl_pays _ _ _
  · exact ((State.evolves.refl s).raise _ _).pays 0

theorem State.confirm_pays (s : State) (l : List FeedByte) (paper : Bool) : s.pays (s.confirm l paper) 0 0 := by
  unfold State.confirm
  dsimp only
  split
  case h_1 rest _ _ =>
    refine State.pays.trans (State.evolves.pays ?_ 0) (State.takeBlock_pays _ _ _ _)
    refine .enterLocked ?_
    exact .refl _
  all_goals
    refine State.evolves.pays ?_ 0
    exact .refl s

theorem State.lockedGood_pays (s : State) (l : List FeedByte) (k : BlockKind) (paper : Bool) :
    s.pays (s.lockedGood l k paper) 0 0 := by
  unfold State.lockedGood
  dsimp only
  split
  · split
    · refine State.pays.trans (State.evolves.pays ?_ 0) (State.takeBlock_pays _ _ _ _)
      refine .noteBlock ?_ _
      exact .refl _
    · exact State.evolves.pays ((State.evolves.refl s).feed l) 0
  · exact State.evolves.pays ((State.evolves.refl s).feed l) 0

end Sys2Proof.Machine
end

section
/-! PROOF, shared by the properties that every step keeps. What a step can come to: one case per operation of the part,
however many rows of the table lead to it. -/

namespace Sys2Proof.Machine

variable {s t : State}

/-- The operations that a step follows by its end (`State.settle`). -/
inductive State.settlesFrom (s : State) : State → Prop
  | placement : s.settlesFrom s.streamPlacement
  | outgoingEnd : s.settlesFrom s.endOutgoing
  | position : s.settlesFrom s.positionComplete
  | pulse : s.settlesFrom s.pulseComplete
  | recover : s.settlesFrom s.recoverComplete
  | move : s.settlesFrom s.moveComplete
  | index (paper : Bool) : s.settlesFrom (s.indexComplete paper)
  | lift : s.settlesFrom s.liftComplete
  | openCover : s.settlesFrom s.openCover
  | closeCover : s.settlesFrom s.closeCover
  | homeSeen : s.settlesFrom s.homeSeen
  | homeLost : s.settlesFrom s.homeLost
  | returned : s.settlesFrom s.returnComplete
  | indexSeen : s.settlesFrom s.indexSeen
  | indexLost : s.settlesFrom s.indexLost
  | read (code : Nat) : s.settlesFrom (s.identRead code)
  | test (pass : Bool) : s.settlesFrom (s.testComplete pass)
  | overcurrent (ch : Channel) : s.settlesFrom (s.overcurrent ch)
  | lookup : s.settlesFrom s.completeLookup

/-- What a command of the part can come to. -/
inductive State.becomes (s : State) : State → Prop
  | idle : s.becomes s
  | asserted : s.becomes s.assertReset
  | released : s.becomes s.releaseReset
  | coverWhileHeld (b : Bool) : s.resetHeld = true → s.becomes { s with coverOpen := b }
  | hunt (l : List FeedByte) : s.becomes (s.huntCandidate l)
  | confirmed (l : List FeedByte) (paper : Bool) : s.becomes (s.confirm l paper)
  | confirmStray (l : List FeedByte) : s.becomes (s.confirmStray l)
  | lockedStray (l : List FeedByte) : s.becomes (s.lockedStray l)
  | lockedBad (l : List FeedByte) : s.becomes (s.lockedBad l)
  | lockedGood (l : List FeedByte) (k : BlockKind) (paper : Bool) : s.becomes (s.lockedGood l k paper)
  | command (code : Byte) (p : List Byte) (paper : Bool) : s.becomes (s.takeControl code p paper)
  | sealDone : s.becomes s.sealDone
  | keyPressed : s.becomes s.keyPressed
  | keyReleased : s.becomes s.keyReleased
  | repeatExpiry (b : Bool) : s.becomes (s.repeatExpiry b)
  | keyRow (f : KeyAction → Bool) (paper : Bool) : s.becomes (s.keyRow f paper)
  | textRow (f : Byte → Bool) : s.becomes (s.textRow f)
  | heatTick : s.becomes s.heatTick
  | restExpiry : s.becomes s.restExpiry
  | rotationExpiry : s.becomes s.rotationExpiry
  | blockSent : s.becomes s.blockSent
  | nextInterval : s.becomes s.nextInterval
  | settled {t : State} : s.settlesFrom t → s.becomes (t.settle s)

/-- What a command comes to; while the reset input is held, only its release ends that (R187). -/
structure State.runsTo (s t : State) : Prop where
  becomes : s.becomes t
  held    : s.resetHeld = true → t = s.releaseReset ∨ t.resetHeld = true

theorem runsTo_of_live {u : State}
    (h : Host.Outcome.next (if s.resetHeld then s else u) = (.next t : Host.Outcome State Fault Refusal))
    (hu : s.becomes u) : s.runsTo t := by
  cases h
  split
  case isTrue hheld => exact ⟨.idle, fun _ => .inr hheld⟩
  case isFalse hruns => exact ⟨hu, fun hheld => absurd hheld hruns⟩

theorem runsTo_of_liveTables {f : State → State} (h : liveTables s f = .next t) (hf : s.becomes (f s)) :
    s.runsTo t := by
  unfold liveTables at h
  split at h
  · exact runsTo_of_live h hf
  · cases h

theorem runsTo_of_cover {b : Bool} {u : State} (hu : s.settlesFrom u)
    (h : Host.Outcome.next (if s.resetHeld then { s with coverOpen := b } else u.settle s) =
      (.next t : Host.Outcome State Fault Refusal)) : s.runsTo t := by
  cases h
  split
  case isTrue hheld => exact ⟨.coverWhileHeld b hheld, fun _ => .inr hheld⟩
  case isFalse hruns => exact ⟨.settled hu, fun hheld => absurd hheld hruns⟩

theorem exec_runsTo (i : Instr) (h : exec i s = .next t) : s.runsTo t := by
  cases i with
  | resetAsserted => cases h; exact ⟨.asserted, fun _ => .inr rfl⟩
  | resetReleased => cases h; exact ⟨.released, fun _ => .inl rfl⟩
  | coverOpen => exact runsTo_of_cover .openCover h
  | coverClose => exact runsTo_of_cover .closeCover h
  | huntCandidateBlock _ => exact runsTo_of_live h (.hunt _)
  | confirmBlock _ _ => exact runsTo_of_liveTables h (.confirmed ..)
  | confirmStrayByte _ => exact runsTo_of_live h (.confirmStray _)
  | lockedStrayByte _ => exact runsTo_of_live h (.lockedStray _)
  | badBlock _ => exact runsTo_of_live h (.lockedBad _)
  | keyBlock _ | textBlock _ | unknownKindBlock _ =>
    exact runsTo_of_live h (.lockedGood ..)
  | controlBlock _ _ =>
    exact runsTo_of_liveTables h (.lockedGood ..)
  | set _ | queryStatus | queryCounters _ | queryDirectory _ | queryLine _ | queryWords _ | queryUserWord _
  | queryFaults | tableOpen _ | tableSeal _ | tableDrop _ | tabAdd _ | tabRemove _ | tabsClear | userWordAdd _
  | userWordRemove _ | pause | resume _ | ackFault | creditRestate | clearCounters | restartLink | restartText
  | restartMech | restartTables | restartCounters | restartAll =>
    exact runsTo_of_live h (.command ..)
  | tableWrite _ =>
    exact runsTo_of_liveTables h (.command ..)
  | sealComplete => exact runsTo_of_liveTables h .sealDone
  | keyPress => exact runsTo_of_live h .keyPressed
  | keyRelease => exact runsTo_of_live h .keyReleased
  | typematicCountdownExpiry => exact runsTo_of_live h (.repeatExpiry _)
  | typematicPeriodicExpiry => exact runsTo_of_live h (.repeatExpiry _)
  | characterKeyAction | deadKeyAction | space | returnKey | backspace | tab | marginLeft | marginRight
  | marginRelease | tabSet | decimalTabSet | tabClear | correct | wordCorrect | lineCorrect | relocate | paperUp
  | paperDown | halfUp | halfDown | pitchCycle | modeToggle | justifyCycle | spellToggle | acceptWord
  | addWord | cursorLeft | cursorRight | boldToggle | underlineToggle | pauseKey _ | sourceToggle =>
    exact runsTo_of_live h (.keyRow ..)
  | remotePrintableChar | remoteCr | remoteLf | remoteFf | remoteBs | remoteHt | unmappedControl =>
    exact runsTo_of_live h (.textRow ..)
  | outgoingPlacementAppended => exact runsTo_of_live h (.settled .placement)
  | outgoingLineEnd => exact runsTo_of_live h (.settled .outgoingEnd)
  | positionComplete => exact runsTo_of_live h (.settled .position)
  | heatDecayTick => exact runsTo_of_live h .heatTick
  | hammerPulseComplete => exact runsTo_of_live h (.settled .pulse)
  | recoverComplete => exact runsTo_of_live h (.settled .recover)
  | moveComplete => exact runsTo_of_live h (.settled .move)
  | indexComplete _ => exact runsTo_of_live h (.settled (.index _))
  | liftMotionComplete => exact runsTo_of_live h (.settled .lift)
  | liftRestTimerExpiry => exact runsTo_of_live h .restExpiry
  | homeSensorSeen => exact runsTo_of_live h (.settled .homeSeen)
  | homeNotFound => exact runsTo_of_live h (.settled .homeLost)
  | homingReturnComplete => exact runsTo_of_live h (.settled .returned)
  | indexMarkSeen => exact runsTo_of_live h (.settled .indexSeen)
  | wheelIndexLost => exact runsTo_of_live h (.settled .indexLost)
  | identificationRead _ => exact runsTo_of_live h (.settled (.read _))
  | offStateTestComplete _ => exact runsTo_of_live h (.settled (.test _))
  | rotationTimerExpiry => exact runsTo_of_live h .rotationExpiry
  | overcurrent _ => exact runsTo_of_live h (.settled (.overcurrent _))
  | lookupComplete => exact runsTo_of_live h (.settled .lookup)
  | returnBlockSent => exact runsTo_of_live h .blockSent
  | beeperIntervalExpiry => exact runsTo_of_live h .nextInterval

end Sys2Proof.Machine
end

section
/-! PROOF of O56, O58 and O60, and of the window's half of O59: every step keeps the bounds. -/

namespace Sys2Proof.Machine

variable {s t : State}

theorem State.settlesFrom.evolves (h : s.settlesFrom t) : s.evolves t := by
  cases h with
  | placement => exact (State.evolves.refl s).streamPlacement
  | outgoingEnd => exact (State.evolves.refl s).endOutgoing
  | position => exact (State.evolves.refl s).positionComplete
  | pulse => exact (State.evolves.refl s).pulseComplete
  | recover => exact (State.evolves.refl s).recoverComplete
  | move => exact (State.evolves.refl s).moveComplete
  | index => exact (State.evolves.refl s).indexComplete _
  | lift => exact (State.evolves.refl s).liftComplete
  | openCover => exact (State.evolves.refl s).openCover
  | closeCover => exact (State.evolves.refl s).closeCover
  | homeSeen => exact (State.evolves.refl s).homeSeen
  | homeLost => exact (State.evolves.refl s).homeLost
  | returned => exact (State.evolves.refl s).returnComplete
  | indexSeen => exact (State.evolves.refl s).indexSeen
  | indexLost => exact (State.evolves.refl s).indexLost
  | read => exact (State.evolves.refl s).identRead _
  | test => exact (State.evolves.refl s).testComplete _
  | overcurrent => exact (State.evolves.refl s).overcurrent _
  | lookup => exact (State.evolves.refl s).completeLookup

/-- Held, the part has every bounded list empty and nothing owed (R187). -/
theorem State.held_pays (s : State) (pending : List Instr) (cover : Bool) (free : Nat) :
    s.pays (.held pending cover free) 0 0 where
  bounded :=
    have hempty {p : Prop} {n : Nat} : p → 0 ≤ n := fun _ => Nat.zero_le n
    { heat := hempty, queue := hempty, entries := hempty, keys := hempty, recs := hempty, words := hempty
      checkq := hempty, users := hempty, faults := hempty, blocks := hempty
      travel := fun _ => View.inTravel_of_nil rfl rfl
      window := fun _ => rfl
      dark := fun _ _ => rfl
      tabs := fun _ => ⟨Nat.zero_le _, .nil⟩ }
  owed := fun _ => ⟨Nat.zero_le _, Nat.zero_le _, rfl⟩

theorem State.releaseReset_pays (s : State) : s.pays s.releaseReset 0 0 := by
  unfold State.releaseReset
  split
  · refine (s.held_pays s.pending s.coverOpen s.free).trans (State.evolves.pays (.startHoming ?_) 0)
    exact (State.evolves.refl (.held s.pending s.coverOpen s.free)).slot rfl (.inl rfl)
  · exact (State.evolves.refl s).pays 0

theorem State.becomes.pays (h : s.becomes t) : s.pays t 0 0 := by
  have self := State.evolves.refl s
  cases h with
  | idle => exact self.pays 0
  | asserted => exact s.held_pays _ _ _
  | released => exact s.releaseReset_pays
  | coverWhileHeld => refine State.evolves.pays ?_ 0; exact self
  | hunt => exact (self.huntCandidate _).pays 0
  | confirmed => exact s.confirm_pays _ _
  | confirmStray => exact (self.confirmStray _).pays 0
  | lockedStray => exact (self.lockedStray _).pays 0
  | lockedBad => exact (self.lockedBad _).pays 0
  | lockedGood => exact s.lockedGood_pays _ _ _
  | command => exact s.takeControl_pays _ _ _
  | sealDone => exact s.sealDone_pays 0
  | keyPressed => exact self.keyPressed.pays 0
  | keyReleased => exact self.keyReleased.pays 0
  | repeatExpiry => exact (self.repeatExpiry _).pays 0
  | keyRow => exact (self.keyRow _ _).pays 0
  | textRow => exact (self.textRow _).pays 0
  | heatTick => exact self.heatTick.pays 0
  | restExpiry => exact self.restExpiry.pays 0
  | rotationExpiry => exact self.rotationExpiry.pays 0
  | blockSent => exact self.blockSent.pays 0
  | nextInterval => exact self.nextInterval.pays 0
  | settled hu => exact (hu.evolves.settle s _).pays 0

/-- The command at the front leaves the queue before it runs, which no invariant reads. -/
theorem step_runsTo (h : step s = .next t) : t = s ∨ ∃ rest, State.runsTo { s with pending := rest } t := by
  unfold step at h
  split at h
  · exact .inl (by cases h; rfl)
  · exact .inr ⟨_, exec_runsTo _ h⟩

theorem step_pays (h : step s = .next t) : s.pays t 0 0 := by
  obtain rfl | ⟨rest, hrest⟩ := step_runsTo h
  · exact (State.evolves.refl _).pays 0
  · refine State.pays.trans (State.evolves.pays ?_ 0) hrest.becomes.pays
    exact .refl s

/-- Settles O56: both bounds are items of the view, which every step keeps (`step_pays`). -/
theorem heatAndTravelBoundsAreKept : Obligations.HeatAndTravelBoundsAreKept := by
  intro s t hheat htravel hstep
  have h := (step_pays hstep).bounded
  exact ⟨h.heat hheat, h.travel htravel⟩

/-- Settles O58: each operation pays the place it owes, and EVENTs join only within their limit (`step_pays`). -/
theorem reportQueueBoundsAreKept : Obligations.ReportQueueBoundsAreKept := by
  intro s t hs hstep
  rw [State.reportsBounded_iff] at hs ⊢
  exact (step_pays hstep).owed hs

/-- Settles O60: every place bound is an item of the view, which every step keeps (`step_pays`). -/
theorem queuesAndListsKeepTheirPlaces : Obligations.QueuesAndListsKeepTheirPlaces := by
  intro s t hs hstep
  obtain ⟨hkeys, hrecs, htabs, hordered, hqueue, hentries, hwords, hcheckq, husers, hfaults, hblocks⟩ := hs
  have h := (step_pays hstep).bounded
  obtain ⟨htabs', hordered'⟩ := h.tabs ⟨htabs, hordered⟩
  exact ⟨h.keys hkeys, h.recs hrecs, htabs', hordered', h.queue hqueue, h.entries hentries, h.words hwords,
    h.checkq hcheckq, h.users husers, h.faults hfaults, h.blocks hblocks⟩

theorem step_windowAligned (hs : s.windowAligned) (h : step s = .next t) : t.windowAligned :=
  (step_pays h).bounded.window hs

end Sys2Proof.Machine
end

section
/-! PROOF of O55: every step keeps the credit sum. The text taken from its queue becomes unsent credit, a CREDIT sent
becomes balance, a character charged is queued, and a restatement counts against the places in use. -/

namespace Sys2Proof.Machine

/-- The places of the remote text queue in use, the unsent credit and the balance together (R174). -/
def TextLink.sum (l : TextLink) : Nat := l.queue.length + l.unsent + l.balance

theorem State.creditWhole_iff (s : State) : s.creditWhole ↔ s.txt.sum = textPlaces := Iff.rfl

/-! ### What changes the text link -/

theorem TextLink.sum_restated {l : TextLink} (h : l.queue.length ≤ textPlaces) : l.restated.sum = textPlaces := by
  unfold TextLink.sum TextLink.restated
  dsimp only
  omega

theorem TextLink.length_le_sum (l : TextLink) : l.queue.length ≤ l.sum := by
  unfold TextLink.sum
  omega

theorem State.takeText_sum {s : State} (h : s.txt.queue ≠ []) : s.takeText.txt.sum = s.txt.sum := by
  unfold State.takeText TextLink.sum
  have := List.length_pos_iff.mpr h
  simp only [List.length_tail]
  omega

theorem State.chargeText_sum (s : State) (l : List Byte) : (s.chargeText l).txt.sum = s.txt.sum := by
  have hcharged (n : Nat) (hl : n ≤ l.length) (hn : n ≤ s.txt.balance) :
      { s.txt with queue := s.txt.queue ++ l.take n, balance := s.txt.balance - n : TextLink }.sum = s.txt.sum := by
    unfold TextLink.sum
    simp only [List.length_append, List.length_take]
    omega
  unfold State.chargeText
  dsimp only
  split
  · exact hcharged _ (Nat.min_le_left ..) (Nat.min_le_right ..)
  · simpa using hcharged _ (Nat.min_le_left ..) (Nat.min_le_right ..)

theorem State.sendCredit_sum (s : State) : s.sendCredit.txt.sum = s.txt.sum := by
  unfold State.sendCredit TextLink.sum
  dsimp only
  omega

theorem State.emptyFeeds_sum (s : State) : s.emptyFeeds.txt.sum = s.txt.sum := by
  unfold State.emptyFeeds TextLink.sum
  simp only [List.length_nil]
  omega

theorem State.restateCredit_creditWhole {s : State} (h : s.creditWhole) : s.restateCredit.creditWhole :=
  TextLink.sum_restated (h ▸ s.txt.length_le_sum)

/-! ### The end of a step -/

theorem Eval.finishText_sum {e : Eval} (h : e.state.txt.queue ≠ []) : e.finishText.txt.sum = e.state.txt.sum := by
  unfold Eval.finishText
  split
  · exact State.takeText_sum h
  · rfl

theorem State.evalText_sum {s : State} {code : Byte} {l : List Byte} (h : s.txt.queue = code :: l) :
    (s.evalText code).finishText.txt.sum = s.txt.sum := by
  rw [Eval.finishText_sum] <;> simp [h]

@[simp] theorem State.settleText_sum (pre mid s : State) (anew : Bool) :
    (pre.settleText mid s anew).txt.sum = s.txt.sum := by
  unfold State.settleText
  split
  case h_1 code rest _ hqueue =>
    split
    · split
      · rfl
      · exact State.evalText_sum hqueue
    · rfl
  · rfl

@[simp] theorem State.settle_sum (s pre : State) (anew : Bool) : (s.settle pre anew).txt.sum = s.txt.sum := by
  simp [State.settle]

/-! ### Commands -/

section Commands

variable (s : State)

theorem State.setTo_sum (k : Setting) (v : Nat) : (s.setTo k v).txt.sum = s.txt.sum := by
  unfold State.setTo
  dsimp only
  split
  · simp
  case h_2 u hu => simp [(s.applySetting_frame _ _ (.inl hu)).2.2.2.2.2.2.1]
  case h_3 u hu => simp [(s.applySetting_frame _ _ (.inr hu)).2.2.2.2.2.2.1]

theorem State.cmdSet_sum (p : List Byte) : (s.cmdSet p).txt.sum = s.txt.sum := by
  unfold State.cmdSet
  split
  · split
    · exact s.setTo_sum _ _
    · simp
  · simp

theorem State.openSlot_sum (i : Nat) (k : TableKind) (key count : Nat) :
    (s.openSlot i k key count).txt.sum = s.txt.sum := by
  unfold State.openSlot
  dsimp only
  split
  · simp
  · split <;> simp

theorem State.cmdTableOpen_sum (p : List Byte) : (s.cmdTableOpen p).txt.sum = s.txt.sum := by
  unfold State.cmdTableOpen
  repeat' split
  all_goals simp [State.openSlot_sum]

theorem State.cmdTableDrop_sum (p : List Byte) : (s.cmdTableDrop p).txt.sum = s.txt.sum := by
  unfold State.cmdTableDrop
  repeat' split
  all_goals simp

theorem State.commandTabs_sum (code : Byte) (l : List TabStop) : (s.commandTabs code l).txt.sum = s.txt.sum := by
  unfold State.commandTabs
  split
  case h_1 u hu => simp [(s.changeTabs_frame _ hu).2.2.2.2.2.2.1]
  case h_2 => simp

theorem State.cmdTabAdd_sum (p : List Byte) : (s.cmdTabAdd p).txt.sum = s.txt.sum := by
  unfold State.cmdTabAdd
  dsimp only
  repeat' split
  all_goals simp [State.commandTabs_sum]

theorem State.cmdTabRemove_sum (p : List Byte) : (s.cmdTabRemove p).txt.sum = s.txt.sum := by
  unfold State.cmdTabRemove
  dsimp only
  repeat' split
  all_goals simp [State.commandTabs_sum]

theorem State.cmdTabsClear_sum (p : List Byte) : (s.cmdTabsClear p).txt.sum = s.txt.sum := by
  unfold State.cmdTabsClear
  split <;> simp [State.commandTabs_sum]

theorem State.cmdUserAdd_sum (p : List Byte) : (s.cmdUserAdd p).txt.sum = s.txt.sum := by
  unfold State.cmdUserAdd
  dsimp only
  repeat' split
  all_goals simp

theorem State.cmdUserRemove_sum (p : List Byte) : (s.cmdUserRemove p).txt.sum = s.txt.sum := by
  unfold State.cmdUserRemove
  dsimp only
  repeat' split
  all_goals simp

theorem State.cmdPause_sum (p : List Byte) : (s.cmdPause p).txt.sum = s.txt.sum := by
  unfold State.cmdPause
  split <;> simp

theorem State.cmdResume_sum (paper : Bool) (p : List Byte) : (s.cmdResume paper p).txt.sum = s.txt.sum := by
  unfold State.cmdResume
  split
  · split
    · split
      case h_1 u hu => simp [(s.askResume_frame paper hu).2.2.2.2.2.2.1]
      case h_2 => simp
    · simp
  · simp

theorem State.cmdAckFault_sum (p : List Byte) : (s.cmdAckFault p).txt.sum = s.txt.sum := by
  unfold State.cmdAckFault State.ackFaults
  dsimp only
  split
  · split
    · rw [State.settle_sum]
      split <;> simp
    · simp
  · simp

end Commands

/-! ### Restarts and restatements -/

theorem State.creditWhole.of_sum {s t : State} (h : s.creditWhole) (ht : t.txt.sum = s.txt.sum) : t.creditWhole :=
  ht.trans h

theorem State.creditWhole_of_powerOn {s : State} (h : s.txt = .powerOn) : s.creditWhole := by
  rw [State.creditWhole_iff, h]
  rfl

theorem State.creditWhole.cmdRestate {s : State} (h : s.creditWhole) (p : List Byte) : (s.cmdRestate p).creditWhole := by
  unfold State.cmdRestate
  split
  · exact (State.restateCredit_creditWhole h).of_sum (by simp)
  · exact h.of_sum (by simp)

theorem State.creditWhole.enterLocked {s : State} (h : s.creditWhole) : s.enterLocked.creditWhole :=
  State.restateCredit_creditWhole (h.of_sum (by simp))

theorem State.creditWhole.restartLink {s : State} (h : s.creditWhole) : s.restartLink.creditWhole := by
  have hrestated : s.freshReports.huntAfresh.restateCredit.creditWhole :=
    State.restateCredit_creditWhole (h.of_sum (by simp))
  exact hrestated.of_sum (by simp [State.restartLink])

theorem State.restartText_sum (s : State) : s.restartText.txt.sum = s.txt.sum := by
  simp [State.restartText, State.clearText, State.emptyFeeds_sum]

theorem State.restartAll_creditWhole (s : State) : s.restartAll.creditWhole := by
  apply State.creditWhole_of_powerOn
  rw [s.restartAll_eq]
  split <;> simp [State.allAfresh, State.held]

theorem State.creditWhole.restart {s : State} (h : s.creditWhole) (k : Selector) : (s.restart k).creditWhole := by
  cases k with
  | link => exact h.restartLink.of_sum (by simp [State.restart])
  | text => exact h.of_sum (by simp [State.restart, State.restartText_sum])
  | mech => exact h.of_sum (by simp [State.restart])
  | tables => exact h.of_sum (by simp [State.restart])
  | counters => exact h.of_sum (by simp [State.restart])
  | all => exact s.restartAll_creditWhole

theorem State.creditWhole.cmdRestart {s : State} (h : s.creditWhole) (p : List Byte) : (s.cmdRestart p).creditWhole := by
  unfold State.cmdRestart
  split
  · exact (h.of_sum (t := s.abortSeal) (by simp)).restart _
  · exact h.of_sum (by simp)

theorem State.creditWhole.command {s : State} (h : s.creditWhole) (code : Byte) (p : List Byte) (paper : Bool) :
    (s.command code p paper).creditWhole := by
  unfold State.command
  have either {c : Prop} [Decidable c] {t u : State} (ht : t.creditWhole) (hu : u.creditWhole) :
      (if c then t else u).creditWhole := ite_holds State.creditWhole ht hu
  exact either (h.of_sum (s.cmdSet_sum p)) (either (h.of_sum (by simp)) (either (h.of_sum (s.cmdTableOpen_sum p))
    (either (h.of_sum (by simp)) (either (h.of_sum (by simp)) (either (h.of_sum (s.cmdTableDrop_sum p))
    (either (h.of_sum (s.cmdTabAdd_sum p)) (either (h.of_sum (s.cmdTabRemove_sum p))
    (either (h.of_sum (s.cmdTabsClear_sum p)) (either (h.of_sum (s.cmdUserAdd_sum p))
    (either (h.of_sum (s.cmdUserRemove_sum p)) (either (h.of_sum (s.cmdPause_sum p))
    (either (h.of_sum (s.cmdResume_sum paper p)) (either (h.of_sum (s.cmdAckFault_sum p))
    (either (h.cmdRestate p) (either (h.of_sum (by simp)) (either (h.cmdRestart p) (h.of_sum (by simp))))))))))))))))))

theorem State.creditWhole.takeControl {s : State} (h : s.creditWhole) (code : Byte) (p : List Byte) (paper : Bool) :
    (s.takeControl code p paper).creditWhole := by
  unfold State.takeControl
  split
  · exact h.of_sum (by simp)
  · split
    · exact h.of_sum (by simp)
    · exact (h.of_sum (t := s.reserve) (by simp)).command _ _ _

/-! ### The receiver, and a step -/

theorem State.creditWhole.takeBlock {s : State} (h : s.creditWhole) (head : Byte) (payload : List Byte)
    (paper : Bool) : (s.takeBlock head payload paper).creditWhole := by
  unfold State.takeBlock
  split
  · exact h.of_sum (by simp)
  · exact h.of_sum (s.chargeText_sum _)
  · exact h.takeControl _ _ _
  · exact h.of_sum (by simp)

theorem State.creditWhole.confirm {s : State} (h : s.creditWhole) (l : List FeedByte) (paper : Bool) :
    (s.confirm l paper).creditWhole := by
  unfold State.confirm
  dsimp only
  split
  · refine State.creditWhole.takeBlock (.enterLocked ?_) _ _ _
    exact h.of_sum rfl
  all_goals exact h.of_sum rfl

theorem State.creditWhole.lockedGood {s : State} (h : s.creditWhole) (l : List FeedByte) (k : BlockKind)
    (paper : Bool) : (s.lockedGood l k paper).creditWhole := by
  unfold State.lockedGood
  dsimp only
  split
  · split
    · exact State.creditWhole.takeBlock (h.of_sum (by simp)) _ _ _
    · exact h.of_sum rfl
  · exact h.of_sum rfl

theorem State.sealDone_sum (s : State) : s.sealDone.txt.sum = s.txt.sum := by
  unfold State.sealDone State.sealSucceeds
  split
  · rfl
  · dsimp only
    split
    · simp
    · split
      · simp
      · simp only [State.answer_frame, State.settle_sum, State.readersAct_frame]
        split <;> simp

theorem State.blockSent_sum (s : State) : s.blockSent.txt.sum = s.txt.sum := by
  unfold State.blockSent State.arbitrate
  repeat' split
  all_goals simp [State.sendCredit_sum]

theorem State.textRow_sum (s : State) (f : Byte → Bool) : (s.textRow f).txt.sum = s.txt.sum := by
  unfold State.textRow
  split
  case h_1 code rest hqueue =>
    split
    · simpa using State.evalText_sum hqueue
    · rfl
  case h_2 => rfl

theorem State.keyRow_sum (s : State) (f : KeyAction → Bool) (paper : Bool) : (s.keyRow f paper).txt.sum = s.txt.sum := by
  unfold State.keyRow
  split
  · split <;> simp
  · rfl

theorem State.releaseReset_creditWhole {s : State} (h : s.creditWhole) : s.releaseReset.creditWhole := by
  unfold State.releaseReset
  split
  · exact State.creditWhole_of_powerOn (by simp [State.held])
  · exact h

theorem State.settlesFrom.txt {s t : State} (h : s.settlesFrom t) : t.txt = s.txt := by
  cases h <;> simp

theorem State.becomes.creditWhole {s t : State} (ht : s.becomes t) (h : s.creditWhole) : t.creditWhole := by
  cases ht with
  | idle => exact h
  | asserted => exact State.creditWhole_of_powerOn rfl
  | coverWhileHeld => exact h
  | released => exact State.releaseReset_creditWhole h
  | confirmed => exact h.confirm _ _
  | lockedGood => exact h.lockedGood _ _ _
  | command => exact h.takeControl _ _ _
  | sealDone => exact h.of_sum s.sealDone_sum
  | keyRow => exact h.of_sum (s.keyRow_sum _ _)
  | textRow => exact h.of_sum (s.textRow_sum _)
  | blockSent => exact h.of_sum s.blockSent_sum
  | settled hu => exact h.of_sum (by rw [State.settle_sum, hu.txt])
  | nextInterval =>
    obtain ⟨b, n, heq, -⟩ := s.nextInterval_eq
    exact h.of_sum (by rw [heq])
  | _ => exact h.of_sum (by simp)

/-- Settles O55: the end of a step and every command keep the sum, or restate it within the 96 places. -/
theorem creditSumIsKept : Obligations.CreditSumIsKept := by
  intro s t hs hstep
  obtain rfl | ⟨rest, hrest⟩ := step_runsTo hstep
  · exact hs
  · exact hrest.becomes.creditWhole hs

end Sys2Proof.Machine
end

section
/-! PROOF of O57: every step keeps table memory and its directory whole. A run is allocated where it meets no other
(R157), bytes are written inside a run (R159), a seal clears the other tables of its kind and key (R162); every other
operation leaves the Table Store alone. -/

namespace Sys2Proof.Machine

/-! ### Lists with one element replaced -/

theorem setAt_eq_set {α : Type} (l : List α) (i : Nat) (v : α) : setAt l i v = l.set i v := by
  induction l generalizing i with
  | nil => rfl
  | cons a l ih =>
    cases i with
    | zero => rfl
    | succ i => exact congrArg (a :: ·) (ih i)

theorem pairwise_set {α : Type} {R : α → α → Prop} {l : List α} {i : Nat} {v : α} (h : l.Pairwise R)
    (hv : ∀ (j : Nat) (hj : j < l.length), j ≠ i → R l[j] v ∧ R v l[j]) : (l.set i v).Pairwise R := by
  rw [List.pairwise_iff_getElem] at h ⊢
  intro j k hj hk hjk
  rw [List.length_set] at hj hk
  rw [List.getElem_set, List.getElem_set]
  split
  case isTrue hij =>
    rw [if_neg (by omega)]
    exact (hv k hk (by omega)).2
  case isFalse hij =>
    split
    · exact (hv j hj (by omega)).1
    · exact h j k hj hk hjk

/-! ### A directory that is whole -/

/-- Two slots in use share no segment (R154). -/
def Slot.apart (d e : Slot) : Prop := d.state ≠ .empty → e.state ≠ .empty → d.meets e.first e.count = false

/-- Two slots are not SEALED of one kind and key (R162). -/
def Slot.distinct (d e : Slot) : Prop := ¬(d.state = .sealed ∧ e.state = .sealed ∧ d.kind = e.kind ∧ d.key = e.key)

/-- A slot in use has a run of at least one segment, inside the memory (R154). -/
def Slot.placed (d : Slot) : Prop := d.state ≠ .empty → 0 < d.count ∧ d.first + d.count ≤ segmentCount

/-- The directory is whole (R154, R155, R162). -/
structure SlotsWhole (l : List Slot) : Prop where
  length : l.length = slotCount
  placed : ∀ d ∈ l, d.placed
  apart  : l.Pairwise Slot.apart
  once   : l.Pairwise Slot.distinct

theorem Slot.meets_comm (d e : Slot) : d.meets e.first e.count = e.meets d.first d.count := by
  unfold Slot.meets
  rw [Bool.and_comm]

theorem Slot.apart.symm {d e : Slot} (h : d.apart e) : e.apart d := fun he hd => by
  rw [Slot.meets_comm]
  exact h hd he

theorem Slot.distinct.symm {d e : Slot} (h : d.distinct e) : e.distinct d := fun ⟨he, hd, hk, hkey⟩ =>
  h ⟨hd, he, hk.symm, hkey.symm⟩

theorem runsInside_iff (l : List Slot) :
    runsInside l = true ↔ ∀ d ∈ l, d.state ≠ .empty → d.first + d.count ≤ segmentCount := by
  simp [runsInside, occupied, or_iff_not_imp_left]

theorem slotAt_of_lt {l : List Slot} {i : Nat} (h : i < l.length) : slotAt l i = l[i] := by
  simp [slotAt, h]

theorem slotAt_lt {l : List Slot} {i : Nat} (h : (slotAt l i).state ≠ .empty) : i < l.length := by
  by_contra hi
  exact h (by simp [slotAt, Nat.le_of_not_lt hi, Slot.emptySlot])

/-- A slot replaced by one that is placed, apart from the others and distinct from them. -/
theorem SlotsWhole.set {l : List Slot} (h : SlotsWhole l) (i : Nat) {v : Slot} (hp : v.placed)
    (hv : ∀ (j : Nat) (hj : j < l.length), j ≠ i → v.apart l[j] ∧ v.distinct l[j]) : SlotsWhole (l.set i v) where
  length := by rw [List.length_set, h.length]
  placed d hd := (List.mem_or_eq_of_mem_set hd).elim (h.placed d) (· ▸ hp)
  apart := pairwise_set h.apart fun j hj hji => ⟨(hv j hj hji).1.symm, (hv j hj hji).1⟩
  once := pairwise_set h.once fun j hj hji => ⟨(hv j hj hji).2.symm, (hv j hj hji).2⟩

theorem Slot.placed_of_empty {d : Slot} (h : d.state = .empty) : d.placed := fun hd => absurd h hd

theorem Slot.apart_of_empty {d : Slot} (h : d.state = .empty) (e : Slot) : d.apart e := fun hd => absurd h hd

theorem Slot.distinct_of_not_sealed {d : Slot} (h : d.state ≠ .sealed) (e : Slot) : d.distinct e :=
  fun hd => h hd.1

theorem SlotsWhole.getElem_apart {l : List Slot} (h : SlotsWhole l) {i j : Nat} (hi : i < l.length) (hj : j < l.length)
    (hji : j ≠ i) : l[i].apart l[j] := by
  have hpair := List.pairwise_iff_getElem.mp h.apart
  rcases Nat.lt_or_gt_of_ne hji with hlt | hgt
  · exact (hpair j i hj hi hlt).symm
  · exact hpair i j hi hj hgt

theorem SlotsWhole.getElem_distinct {l : List Slot} (h : SlotsWhole l) {i j : Nat} (hi : i < l.length)
    (hj : j < l.length) (hji : j ≠ i) : l[i].distinct l[j] := by
  have hpair := List.pairwise_iff_getElem.mp h.once
  rcases Nat.lt_or_gt_of_ne hji with hlt | hgt
  · exact (hpair j i hj hi hlt).symm
  · exact hpair i j hi hj hgt

theorem slotsWhole_noSlots : SlotsWhole noSlots where
  length := rfl
  placed d hd := Slot.placed_of_empty (by rw [List.eq_of_mem_replicate hd]; rfl)
  apart := List.pairwise_replicate.mpr (.inr (Slot.apart_of_empty rfl _))
  once := List.pairwise_replicate.mpr (.inr (Slot.distinct_of_not_sealed (by decide) _))

theorem SlotsWhole.emptied {l : List Slot} (h : SlotsWhole l) (i : Nat) : SlotsWhole (setAt l i Slot.emptySlot) := by
  rw [setAt_eq_set]
  exact h.set i (Slot.placed_of_empty rfl) fun _ _ _ =>
    ⟨Slot.apart_of_empty rfl _, Slot.distinct_of_not_sealed (by decide) _⟩

theorem least_mem {l : List Nat} {a : Nat} (h : least l = some a) : a ∈ l := by
  induction l generalizing a with
  | nil => cases h
  | cons b l ih =>
    unfold least at h
    split at h
    · cases h; exact List.mem_cons_self
    case h_2 c hc =>
      cases h
      rcases min_choice b c with hb | hb <;> rw [hb]
      · exact List.mem_cons_self
      · exact List.mem_cons_of_mem _ (ih hc)

theorem fitsAt_of_lowestFit {used : List Slot} {n a : Nat} (h : lowestFit used n = some a) : fitsAt used n a = true :=
  (List.mem_filter.mp (least_mem h)).2

theorem mem_otherRuns {l : List Slot} {i j : Nat} (hj : j < l.length) (hji : j ≠ i) (h : l[j].state ≠ .empty) :
    l[j] ∈ otherRuns l i := by
  unfold otherRuns occupied
  rw [setAt_eq_set, List.mem_filter]
  exact ⟨List.mem_iff_getElem.mpr ⟨j, by simpa using hj, by simp [hji.symm]⟩, by simpa using h⟩

/-- The run allocated by TABLE_OPEN meets none of the others (R157). -/
theorem SlotsWhole.opened {l : List Slot} (h : SlotsWhole l) (i : Nat) (k : TableKind) (key : Nat) {first count : Nat}
    (hpos : 0 < count) (hfit : lowestFit (otherRuns l i) count = some first) :
    SlotsWhole (setAt l i (Slot.opened k key first count)) := by
  have hfits := fitsAt_of_lowestFit hfit
  simp only [fitsAt, Bool.and_eq_true, decide_eq_true_eq, List.all_eq_true, Bool.not_eq_true'] at hfits
  obtain ⟨hinside, hothers⟩ := hfits
  rw [setAt_eq_set]
  refine h.set i (fun _ => ⟨hpos, hinside⟩) fun j hj hji => ⟨Slot.apart.symm fun hne _ => ?_,
    Slot.distinct_of_not_sealed (by simp [Slot.opened]) _⟩
  exact hothers _ (mem_otherRuns hj hji hne)

/-- A slot in use that keeps its run, and is not SEALED after it, leaves the directory whole. -/
theorem SlotsWhole.written {l : List Slot} (h : SlotsWhole l) {i : Nat} (ho : (slotAt l i).state = .opened)
    (w : List Bool) : SlotsWhole (setAt l i { slotAt l i with written := w }) := by
  have hi : i < l.length := slotAt_lt (by simp [ho])
  rw [slotAt_of_lt hi] at ho ⊢
  rw [setAt_eq_set]
  exact h.set i (fun hne => h.placed l[i] (List.getElem_mem hi) hne) fun j hj hji =>
    ⟨h.getElem_apart hi hj hji, Slot.distinct_of_not_sealed (by simp [ho]) _⟩

/-- The tables of a kind and key that a seal puts aside (R162). -/
def Slot.clearedFor (d e : Slot) : Slot :=
  if e.state = .sealed ∧ e.kind = d.kind ∧ e.key = d.key then Slot.emptySlot else e

theorem Slot.clearedFor_cases (d e : Slot) : d.clearedFor e = Slot.emptySlot ∨ d.clearedFor e = e := by
  unfold Slot.clearedFor
  split
  · exact .inl rfl
  · exact .inr rfl

theorem SlotsWhole.cleared {l : List Slot} (h : SlotsWhole l) (d : Slot) : SlotsWhole (l.map d.clearedFor) where
  length := by rw [List.length_map, h.length]
  placed e he := by
    obtain ⟨c, hc, rfl⟩ := List.mem_map.mp he
    rcases d.clearedFor_cases c with hz | hz <;> rw [hz]
    · exact Slot.placed_of_empty rfl
    · exact h.placed c hc
  apart := h.apart.map _ fun b c hbc => by
    rcases d.clearedFor_cases b with hb | hb <;> rw [hb]
    · exact Slot.apart_of_empty rfl _
    · rcases d.clearedFor_cases c with hc | hc <;> rw [hc]
      · exact (Slot.apart_of_empty rfl _).symm
      · exact hbc
  once := h.once.map _ fun b c hbc => by
    rcases d.clearedFor_cases b with hb | hb <;> rw [hb]
    · exact Slot.distinct_of_not_sealed (by decide) _
    · rcases d.clearedFor_cases c with hc | hc <;> rw [hc]
      · exact (Slot.distinct_of_not_sealed (by decide) _).symm
      · exact hbc

theorem Slot.distinct_clearedFor {d v : Slot} (hk : v.kind = d.kind) (hkey : v.key = d.key) (e : Slot) :
    v.distinct (d.clearedFor e) := by
  unfold Slot.clearedFor
  split
  · exact (Slot.distinct_of_not_sealed (by decide) _).symm
  case isFalse hne => exact fun ⟨_, he, hkind, hkeys⟩ => hne ⟨he, hkind ▸ hk, hkeys ▸ hkey⟩

/-- The slot sealed is the only SEALED one of its kind and key (R162). -/
theorem SlotsWhole.sealed {l : List Slot} (h : SlotsWhole l) {i : Nat} (ho : (slotAt l i).state = .opened)
    (check : Word) (guarded : Bool) : SlotsWhole (sealSlots l i check guarded) := by
  have hi : i < l.length := slotAt_lt (by simp [ho])
  unfold sealSlots
  rw [setAt_eq_set]
  refine (h.cleared (slotAt l i)).set i ?_ fun j hj hji => ⟨?_, ?_⟩
  · rw [slotAt_of_lt hi] at ho ⊢
    exact fun _ => h.placed l[i] (List.getElem_mem hi) (by simp [ho])
  · rw [List.length_map] at hj
    rw [List.getElem_map]
    rcases Slot.clearedFor_cases (slotAt l i) l[j] with hz | hz <;> rw [hz]
    · exact (Slot.apart_of_empty rfl _).symm
    · rw [slotAt_of_lt hi] at ho ⊢
      exact fun _ => h.getElem_apart hi hj hji (by simp [ho])
  · rw [List.getElem_map]
    exact Slot.distinct_clearedFor rfl rfl _

/-! ### The Table Store -/

/-- Table memory is canonical and the directory whole, and a seal works on an OPEN slot with the figure of the bytes it
has read (R154 to R162). -/
structure TableStore.whole (b : TableStore) : Prop where
  mem    : b.mem.wf = true
  slots  : SlotsWhole b.slots
  opened : ∀ e, b.sealing = some e → (slotAt b.slots e.slot).state = .opened
  figure : ∀ e, b.sealing = some e → e.figure = tableCheck ((slotBytes b.mem (slotAt b.slots e.slot)).take e.progress)

theorem State.tab_whole_iff (s : State) :
    s.tab.whole ↔ s.tab.mem.wf = true ∧ s.directoryWhole ∧ s.sealFollows ∧ s.sealedOnce := by
  constructor
  · intro ⟨hmem, hslots, hopened, hfigure⟩
    have hinside := (runsInside_iff _).mpr fun d hd hne => (hslots.placed d hd hne).2
    exact ⟨hmem, ⟨hslots.length, hinside, fun d hd hne => (hslots.placed d hd hne).1, hslots.apart, hopened⟩, hfigure,
      hslots.once⟩
  · intro ⟨hmem, ⟨hlength, hinside, hpos, hapart, hopened⟩, hfigure, honce⟩
    have hplaced : ∀ d ∈ s.tab.slots, d.placed := fun d hd hne => ⟨hpos d hd hne, (runsInside_iff _).mp hinside d hd hne⟩
    exact ⟨hmem, ⟨hlength, hplaced, hapart, honce⟩, hopened, hfigure⟩

/-- The Table Store while no seal runs. -/
theorem TableStore.whole.of_idle {m : Memory} {l : List Slot} (hm : m.wf = true) (hl : SlotsWhole l) :
    TableStore.whole ⟨m, l, none⟩ :=
  ⟨hm, hl, fun _ he => (nomatch he), fun _ he => (nomatch he)⟩

theorem TableStore.whole.idle {b : TableStore} (h : b.whole) : TableStore.whole { b with sealing := none } :=
  .of_idle h.mem h.slots

theorem TableStore.whole.withSlots {b : TableStore} (h : b.whole) (hidle : b.sealing = none) {l : List Slot}
    (hl : SlotsWhole l) : TableStore.whole { b with slots := l } := by
  rw [hidle]
  exact .of_idle h.mem hl

theorem TableStore.powerOn_whole : TableStore.powerOn.whole :=
  .of_idle rfl slotsWhole_noSlots

theorem TableStore.whole.of_eq {b c : TableStore} (h : b.whole) (he : c = b) : c.whole := he ▸ h

/-! ### The table commands -/

section Commands

variable {s : State}

theorem State.openSlot_whole (h : s.tab.whole) (hidle : s.tab.sealing = none) (i : Nat) (k : TableKind) (key : Nat)
    {count : Nat} (hpos : 0 < count) : (s.openSlot i k key count).tab.whole := by
  unfold State.openSlot
  dsimp only
  split
  · exact h.of_eq (by simp)
  · split
    · exact h.of_eq (by simp)
    case h_2 first hfit =>
      simp only [State.answer_frame, State.settle_frame, State.readersAct_frame]
      exact h.withSlots hidle (h.slots.opened i k key hpos hfit)

theorem State.cmdTableOpen_whole (h : s.tab.whole) (hidle : s.tab.sealing = none) (p : List Byte) :
    (s.cmdTableOpen p).tab.whole := by
  unfold State.cmdTableOpen
  split
  · split
    · exact h.of_eq (by simp)
    · split
      · exact h.of_eq (by simp)
      · split
        · exact h.of_eq (by simp)
        · split
          · exact h.of_eq (by simp)
          case isFalse hcount => exact State.openSlot_whole h hidle _ _ _ (by omega)
  · exact h.of_eq (by simp)

/-- Segments written inside the run of an OPEN slot (R159). -/
theorem State.writeSegments_whole (h : s.tab.whole) (hidle : s.tab.sealing = none) {i index : Nat} {data : List Byte}
    (ho : (slotAt s.tab.slots i).state = .opened) (hl : data.length = 16 ∨ data.length = 32)
    (hfits : index + data.length / 16 ≤ (slotAt s.tab.slots i).count) : (s.writeSegments i index data).tab.whole := by
  have hi : i < s.tab.slots.length := slotAt_lt (by simp [ho])
  have hinside : (slotAt s.tab.slots i).first + (slotAt s.tab.slots i).count ≤ segmentCount := by
    have hplaced := h.slots.placed _ (List.getElem_mem hi)
    rw [← slotAt_of_lt hi] at hplaced
    exact (hplaced (by simp [ho])).2
  have hend : 16 * ((slotAt s.tab.slots i).first + index) + data.length ≤ tableBytes := by
    simp only [segmentCount, tableBytes] at hinside ⊢
    omega
  unfold State.writeSegments
  dsimp only
  rw [hidle]
  exact .of_idle (Memory.wf_writeBytes data _ _ hend h.mem) (h.slots.written ho _)

theorem State.cmdTableWrite_whole (h : s.tab.whole) (hidle : s.tab.sealing = none) (p : List Byte) :
    (s.cmdTableWrite p).tab.whole := by
  unfold State.cmdTableWrite
  split
  · split
    case isTrue hl =>
      unfold State.writeSlot
      dsimp only
      split
      · exact h.of_eq (by simp)
      · split
        · exact h.of_eq (by simp)
        case isFalse ho =>
          split
          · exact h.of_eq (by simp)
          case isFalse hfits =>
            simp only [State.answer_frame]
            exact State.writeSegments_whole h hidle (not_not.mp ho) hl (by omega)
    · exact h.of_eq (by simp)
  · exact h.of_eq (by simp)

/-- A seal starts with no byte read, which is the check of none (R160). -/
theorem State.cmdTableSeal_whole (h : s.tab.whole) (p : List Byte) : (s.cmdTableSeal p).tab.whole := by
  unfold State.cmdTableSeal
  split
  · dsimp only
    split
    · exact h.of_eq (by simp)
    · split
      · exact h.of_eq (by simp)
      case isFalse ho =>
        split
        · exact h.of_eq (by simp)
        · refine ⟨h.mem, h.slots, fun e he => ?_, fun e he => ?_⟩ <;> cases he
          · exact not_not.mp ho
          · rfl
  · exact h.of_eq (by simp)

theorem State.cmdTableDrop_whole (h : s.tab.whole) (hidle : s.tab.sealing = none) (p : List Byte) :
    (s.cmdTableDrop p).tab.whole := by
  unfold State.cmdTableDrop
  split
  · split
    · exact h.of_eq (by simp)
    · simp only [State.answer_frame, State.settle_frame, State.readersAct_frame]
      exact h.withSlots hidle (h.slots.emptied _)
  · exact h.of_eq (by simp)

theorem State.sealDone_whole (h : s.tab.whole) : s.sealDone.tab.whole := by
  unfold State.sealDone
  split
  · exact h
  case h_2 e he =>
    dsimp only
    split
    · exact h.idle.of_eq (by simp)
    · split
      · exact h.idle.of_eq (by simp)
      · unfold State.sealSucceeds
        dsimp only
        simp only [State.answer_frame, State.settle_frame, State.readersAct_frame]
        split
        · simp only [State.event_frame]
          exact .of_idle h.mem (h.slots.sealed (h.opened e he) _ _)
        · exact .of_idle h.mem (h.slots.sealed (h.opened e he) _ _)

theorem State.abortSeal_whole (h : s.tab.whole) : s.abortSeal.tab.whole ∧ s.abortSeal.tab.sealing = none := by
  unfold State.abortSeal
  split
  case h_1 hidle => exact ⟨h, hidle⟩
  · exact ⟨h.idle.of_eq (by simp), by simp⟩

theorem State.restart_whole (h : s.tab.whole) (hidle : s.tab.sealing = none) (k : Selector) :
    (s.restart k).tab.whole := by
  cases k with
  | tables =>
    simp only [State.restart, State.restartTables, State.settle_frame, State.readersAct_frame]
    exact TableStore.whole.withSlots (h.of_eq (by simp)) (by simpa using hidle) slotsWhole_noSlots
  | all =>
    refine TableStore.whole.of_eq (TableStore.whole.of_idle h.mem slotsWhole_noSlots) ?_
    rw [State.restart, s.restartAll_eq]
    split <;> simp only [State.freshImage_frame, State.rehome_frame, State.event_frame] <;> rfl
  | _ => exact h.of_eq (by simp [State.restart])

theorem State.cmdRestart_whole (h : s.tab.whole) (p : List Byte) : (s.cmdRestart p).tab.whole := by
  unfold State.cmdRestart
  split
  · exact State.restart_whole (State.abortSeal_whole h).1 (State.abortSeal_whole h).2 _
  · exact h.of_eq (by simp)

end Commands

/-! ### Every command, and a step -/

/-- While a seal runs no command but RESTART is carried out (R176). -/
theorem State.command_whole {s : State} (h : s.tab.whole) (code : Byte) (hidle : s.tab.sealing = none ∨ code = 0x11)
    (p : List Byte) (paper : Bool) : (s.command code p paper).tab.whole := by
  by_cases hrestart : code = 0x11
  · subst hrestart
    exact State.cmdRestart_whole h p
  · replace hidle := hidle.resolve_right hrestart
    unfold State.command
    have either {c : Prop} [Decidable c] {t u : State} (ht : t.tab.whole) (hu : u.tab.whole) :
        (if c then t else u).tab.whole := ite_holds (fun v : State => v.tab.whole) ht hu
    exact either (h.of_eq (by simp)) (either (h.of_eq (by simp)) (either (State.cmdTableOpen_whole h hidle p)
      (either (State.cmdTableWrite_whole h hidle p) (either (State.cmdTableSeal_whole h p)
      (either (State.cmdTableDrop_whole h hidle p) (either (h.of_eq (by simp)) (either (h.of_eq (by simp))
      (either (h.of_eq (by simp)) (either (h.of_eq (by simp)) (either (h.of_eq (by simp)) (either (h.of_eq (by simp))
      (either (h.of_eq (by simp)) (either (h.of_eq (by simp)) (either (h.of_eq (by simp)) (either (h.of_eq (by simp))
      (either (State.cmdRestart_whole h p) (h.of_eq (by simp))))))))))))))))))

theorem State.takeControl_whole {s : State} (h : s.tab.whole) (code : Byte) (p : List Byte) (paper : Bool) :
    (s.takeControl code p paper).tab.whole := by
  unfold State.takeControl
  split
  · exact h.of_eq (by simp)
  · split
    · exact h.of_eq (by simp)
    case isFalse hbusy =>
      refine State.command_whole (h.of_eq (by simp)) _ ?_ _ _
      rw [not_and_or, not_not] at hbusy
      exact hbusy.imp_left (by simp)

theorem State.takeBlock_whole {s : State} (h : s.tab.whole) (head : Byte) (payload : List Byte) (paper : Bool) :
    (s.takeBlock head payload paper).tab.whole := by
  unfold State.takeBlock
  split
  · exact h.of_eq (by simp)
  · exact h.of_eq (by simp)
  · exact State.takeControl_whole h _ _ _
  · exact h.of_eq (by simp)

theorem State.confirm_whole {s : State} (h : s.tab.whole) (l : List FeedByte) (paper : Bool) :
    (s.confirm l paper).tab.whole := by
  unfold State.confirm
  dsimp only
  split
  · exact State.takeBlock_whole (h.of_eq (by simp)) _ _ _
  all_goals exact h.of_eq (by simp)

theorem State.lockedGood_whole {s : State} (h : s.tab.whole) (l : List FeedByte) (k : BlockKind) (paper : Bool) :
    (s.lockedGood l k paper).tab.whole := by
  unfold State.lockedGood
  dsimp only
  split
  · split
    · exact State.takeBlock_whole (h.of_eq (by simp)) _ _ _
    · exact h.of_eq (by simp)
  · exact h.of_eq (by simp)

theorem State.releaseReset_whole {s : State} (h : s.tab.whole) : s.releaseReset.tab.whole := by
  unfold State.releaseReset
  split
  · exact TableStore.powerOn_whole.of_eq (by simp [State.held])
  · exact h

theorem State.settlesFrom.tab {s t : State} (h : s.settlesFrom t) : t.tab = s.tab := by
  cases h <;> simp

theorem State.becomes.whole {s t : State} (ht : s.becomes t) (h : s.tab.whole) : t.tab.whole := by
  cases ht with
  | idle => exact h
  | asserted => exact TableStore.powerOn_whole
  | released => exact State.releaseReset_whole h
  | coverWhileHeld => exact h
  | confirmed => exact State.confirm_whole h _ _
  | lockedGood => exact State.lockedGood_whole h _ _ _
  | command => exact State.takeControl_whole h _ _ _
  | sealDone => exact State.sealDone_whole h
  | nextInterval =>
    obtain ⟨b, n, heq, -⟩ := s.nextInterval_eq
    exact h.of_eq (by rw [heq])
  | settled hu => exact h.of_eq (by simp [hu.tab])
  | _ => exact h.of_eq (by simp)

/-- Settles O57: the table commands and a seal's end keep the Table Store whole, and nothing else touches it. -/
theorem tableStoreStaysWhole : Obligations.TableStoreStaysWhole := by
  intro s t hmem hdirectory hseal honce hstep
  have hs := s.tab_whole_iff.mpr ⟨hmem, hdirectory, hseal, honce⟩
  refine t.tab_whole_iff.mp ?_
  obtain rfl | ⟨rest, hrest⟩ := step_runsTo hstep
  · exact hs
  · exact hrest.becomes.whole hs

end Sys2Proof.Machine
end

section
/-! PROOF of O3 and O59. While the reset input is held a step changes nothing but what the reset input and the cover switch
change; and every step that changes what the image shows forms the image anew at its end. -/

namespace Sys2Proof.Machine

variable {s t : State}

/-! ### While the reset input is held (R187) -/

theorem live_of_held (h : s.resetHeld = true) (f : State → State) : live s f = .next s := by
  rw [live, if_pos h]

theorem liveTables_of_held (h : s.resetHeld = true) (hr : runsInside s.tab.slots = true) (f : State → State) :
    liveTables s f = .next s := by
  rw [liveTables, if_pos hr, live_of_held h]

/-- Settles O3: every row but those of the reset input and the cover switch runs by `live` or `liveTables`. -/
theorem heldResetPassesOverCommands : Obligations.HeldResetPassesOverCommands := by
  intro i s h hr
  refine ⟨fun hasserted hreleased hopen hclose => ?_, congrArg _ (if_pos h), congrArg _ (if_pos h)⟩
  cases i with
  | resetAsserted => exact absurd rfl hasserted
  | resetReleased => exact absurd rfl hreleased
  | coverOpen => exact absurd rfl hopen
  | coverClose => exact absurd rfl hclose
  | confirmBlock | controlBlock | tableWrite | sealComplete => exact liveTables_of_held h hr _
  | _ => exact congrArg _ (if_pos h)

/-! ### The reset input (R187) -/

theorem State.releaseReset_closed (h : s.resetHeld = true) (hc : s.coverOpen = false) :
    s.releaseReset = { State.reset with pending := s.pending, free := s.free } := by
  rw [State.releaseReset, if_pos h, hc]
  rfl

theorem State.releaseReset_open (h : s.resetHeld = true) (hc : s.coverOpen = true) :
    s.releaseReset = { State.reset with
      pending := s.pending
      coverOpen := true
      free := s.free
      ret := { ReturnLine.powerOn with reports := [.event (.mechState .coverOpen .none) false] }
      seq := { Sequencer.held with state := .coverOpen } } := by
  rw [State.releaseReset, if_pos h, hc]
  rfl

theorem State.releaseReset_of_running (h : s.resetHeld = false) : s.releaseReset = s :=
  if_neg (by simp [h])

/-- Settles O2: held, every item is at its power-on value by definition; the release starts homing by the cover. -/
theorem resetInputHoldsAndStartsThePart : Obligations.ResetInputHoldsAndStartsThePart := by
  refine ⟨fun s => ⟨_, rfl, rfl, fun ch => ?_, rfl, rfl, rfl⟩, fun s h hc => ?_, fun s h hc => ?_, fun s h => ?_⟩
  · cases ch <;> rfl
  · exact congrArg _ (State.releaseReset_closed h hc)
  · exact congrArg _ (State.releaseReset_open h hc)
  · exact congrArg _ (State.releaseReset_of_running h)

/-! ### What the image shows (R130 to R135) -/

/-- The items that the image shows, and the image with its slot (R130 to R137). -/
structure Face where
  comp    : Composer
  justify : Justify
  spell   : Bool
  shows   : Bool
  lexicon : Option Nat
  state   : MechState
  faults  : List FaultRec
  entries : List Entry
  words   : List SpellWord
  window  : Nat
  current : Option Image
  sent    : Option Image
  slot    : Option Image

/-- The items that the image shows; the waits of a key action and of a character are no part of it. -/
def State.face (s : State) : Face where
  comp := { s.comp with keyWait := none, textWait := none }
  justify := s.set.justify
  spell := s.set.spell
  shows := s.set.display
  lexicon := s.active .lexicon
  state := s.seq.state
  faults := s.drv.faults
  entries := s.line.entries
  words := s.spell.words
  window := s.disp.window
  current := s.disp.current
  sent := s.disp.lastSent
  slot := s.disp.slot

theorem State.image_congr (h : t.face = s.face) : t.image = s.image := by
  simp only [State.face, Face.mk.injEq, Composer.mk.injEq, and_true] at h
  obtain ⟨⟨hsource, hmode, hpitch, -, -, -, hlogical, hrecs, hcursor, hchoice, -, -, -, -, hflags, -⟩, hjustify, hspell,
    -, hlexicon, hstate, hfaults, hentries, hwords, hwindow, -⟩ := h
  have hin : t.comp.modeInEffect = s.comp.modeInEffect := by simp only [Composer.modeInEffect, hsource, hmode]
  have hshown : t.line.shown = s.line.shown := by rw [LineRecord.shown, hentries, LineRecord.shown]
  have hitems : t.displayItems = s.displayItems := by simp only [State.displayItems, hin, hrecs, hshown]
  have hindex : t.cursorIndex = s.cursorIndex := by simp only [State.cursorIndex, hin, hcursor, hshown]
  have hcell (l : List DisplayItem) (i : Nat) : t.cellAt l i = s.cellAt l i := by
    simp only [State.cellAt, hindex, hwords]
  have hfield : t.modeField = s.modeField := by simp only [State.modeField, hsource, hmode]
  have hchosen : t.justifyField = s.justifyField := by simp only [State.justifyField, hin, hchoice, hjustify]
  have hspelling : t.spellField = s.spellField := by simp only [State.spellField, hspell, hlexicon]
  have hcolumn : t.column = s.column := by simp only [State.column, hlogical, hpitch]
  have hfault : t.faultFlag = s.faultFlag := by simp only [State.faultFlag, hstate, hfaults]
  simp only [State.image, hitems, hcell, hwindow, hfield, hpitch, hchosen, hspelling, hcolumn, hflags, hin, hstate,
    hfault]

/-- With DISPLAY ON the current image is that of the state and waits unless it was sent last (R136). -/
def State.imageShown (s : State) : Prop :=
  s.set.display = true →
    s.disp.current = some s.image ∧ s.disp.slot = if s.disp.lastSent = some s.image then none else some s.image

theorem State.imageCurrent_iff (s : State) :
    s.imageCurrent ↔ (s.resetHeld = false → s.imageShown ∧ s.view.dark) := by
  unfold State.imageCurrent State.imageShown View.dark State.view
  cases s.set.display <;> simp

theorem State.imageShown.congr (h : s.imageShown) (hf : t.face = s.face) : t.imageShown := by
  intro hon
  rw [State.image_congr hf]
  simp only [State.face, Face.mk.injEq] at hf
  obtain ⟨-, -, -, hshows, -, -, -, -, -, -, hcurrent, hsent, hslot⟩ := hf
  rw [hcurrent, hsent, hslot]
  exact h (hshows.symm.trans hon)

theorem State.formImage_imageShown (s : State) : s.formImage.imageShown := by
  intro hon
  rw [State.image_formImage]
  replace hon : s.set.display = true := by simpa using hon
  simp [State.formImage, hon]

theorem State.settle_imageShown (s pre : State) (anew : Bool) : (s.settle pre anew).imageShown :=
  State.formImage_imageShown _

/-! ### Operations that leave the face as it is -/

@[simp] theorem State.event_face (s : State) (e : Event) : (s.event e).face = s.face := by
  simp [State.face, State.active, State.selection]

@[simp] theorem State.answer_face (s : State) (code : Byte) (o : CmdOutcome) (data : List Byte) :
    (s.answer code o data).face = s.face := by
  simp [State.face, State.active, State.selection]

theorem State.imageShown.answer (h : s.imageShown) (code : Byte) (o : CmdOutcome) (data : List Byte) :
    (s.answer code o data).imageShown :=
  h.congr (s.answer_face code o data)

@[simp] theorem State.raise_face (s : State) (k : Counter) (n : Nat) : (s.raise k n).face = s.face := rfl

@[simp] theorem State.reserve_face (s : State) : s.reserve.face = s.face := rfl

@[simp] theorem State.signal_face (s : State) (p : Pattern) : (s.signal p).face = s.face := by
  unfold State.signal
  repeat' split
  all_goals rfl

@[simp] theorem State.heatCheck_face (s : State) (petal level : Nat) : (s.heatCheck petal level).face = s.face := by
  unfold State.heatCheck
  repeat' split
  all_goals rfl

theorem State.heatTick_face (s : State) : s.heatTick.face = s.face := by
  unfold State.heatTick
  dsimp only
  split
  · rw [State.heatCheck_face]
    rfl
  · rfl

theorem State.restExpiry_face (s : State) : s.restExpiry.face = s.face := by
  unfold State.restExpiry
  split <;> rfl

theorem State.rotationExpiry_face (s : State) : s.rotationExpiry.face = s.face := by
  unfold State.rotationExpiry
  split <;> rfl

@[simp] theorem State.leaveLocked_face (s : State) : s.leaveLocked.face = s.face := by
  simp [State.leaveLocked, State.face, State.active, State.selection]

@[simp] theorem State.noteBlock_face (s : State) (bad : Bool) : (s.noteBlock bad).face = s.face := by
  unfold State.noteBlock
  dsimp only
  split
  · rw [State.leaveLocked_face]
    rfl
  · rfl

@[simp] theorem State.appendKey_face (s : State) (b : Byte) : (s.appendKey b).face = s.face := by
  unfold State.appendKey
  dsimp only
  split
  · rfl
  · have hdropped : ((s.raise .keyOverflows).signal .refused).face = s.face := State.signal_face _ _
    split
    · exact hdropped
    · exact (State.event_face _ _).trans hdropped

@[simp] theorem State.appendKeys_face (s : State) (l : List Byte) : (s.appendKeys l).face = s.face := by
  induction l generalizing s with
  | nil => rfl
  | cons b l ih => exact (ih (s.appendKey b)).trans (s.appendKey_face b)

@[simp] theorem State.chargeText_face (s : State) (l : List Byte) : (s.chargeText l).face = s.face := by
  unfold State.chargeText
  dsimp only
  split
  · rfl
  · simp
    rfl

theorem State.huntCandidate_face (s : State) (l : List FeedByte) : (s.huntCandidate l).face = s.face := by
  unfold State.huntCandidate
  dsimp only
  split <;> rfl

theorem State.confirmStray_face (s : State) (l : List FeedByte) : (s.confirmStray l).face = s.face := by
  unfold State.confirmStray
  dsimp only
  split <;> rfl

theorem State.lockedStray_face (s : State) (l : List FeedByte) : (s.lockedStray l).face = s.face := by
  unfold State.lockedStray
  dsimp only
  split
  · exact State.leaveLocked_face _
  · exact State.leaveLocked_face _
  · rfl

theorem State.lockedBad_face (s : State) (l : List FeedByte) : (s.lockedBad l).face = s.face := by
  unfold State.lockedBad
  dsimp only
  split
  · exact State.noteBlock_face _ _
  · rfl

theorem State.repeatExpiry_face (s : State) (b : Bool) : (s.repeatExpiry b).face = s.face := by
  unfold State.repeatExpiry
  repeat' split
  all_goals rfl

theorem State.resolvePress_face (s : State) (key : Nat) (e : KeyEntry) : (s.resolvePress key e).face = s.face := by
  unfold State.resolvePress
  dsimp only
  split <;> rfl

theorem State.keyPressed_face (s : State) : s.keyPressed.face = s.face := by
  unfold State.keyPressed State.pressHead
  split
  · split
    · rfl
    · split
      · rfl
      · split
        · simp [State.pressUnmapped]
          rfl
        · exact s.resolvePress_face _ _
  · rfl

theorem State.keyReleased_face (s : State) : s.keyReleased.face = s.face := by
  unfold State.keyReleased
  repeat' split
  all_goals rfl

/-! ### Commands -/

/-- Bytes written to an OPEN slot make no other table active (R159, R166). -/
theorem findSealed_written (l : List Slot) (i : Nat) (w : List Bool) (k : TableKind) (key : Nat) :
    findSealed (setAt l i { slotAt l i with written := w }) k key = findSealed l k key := by
  unfold findSealed
  induction l generalizing i with
  | nil => rfl
  | cons d l ih =>
    cases i with
    | zero => rfl
    | succ i =>
      have hrest := ih i
      simp only [setAt, indexWhere] at hrest ⊢
      rw [show slotAt (d :: l) (i + 1) = slotAt l i from rfl, hrest]

theorem State.writeSegments_face (s : State) (i index : Nat) (data : List Byte) :
    (s.writeSegments i index data).face = s.face := by
  have hactive : (s.writeSegments i index data).active .lexicon = s.active .lexicon := findSealed_written _ _ _ _ _
  simp only [State.face, hactive]
  rfl

section Commands

variable (s)

theorem State.setTo_imageShown (h : s.imageShown) (k : Setting) (v : Nat) : (s.setTo k v).imageShown := by
  unfold State.setTo
  dsimp only
  split
  · exact h.congr (by simp)
  · exact (State.settle_imageShown _ _ _).answer _ _ _
  · exact (State.settle_imageShown _ _ _).answer _ _ _

theorem State.openSlot_imageShown (h : s.imageShown) (i : Nat) (k : TableKind) (key count : Nat) :
    (s.openSlot i k key count).imageShown := by
  unfold State.openSlot
  dsimp only
  split
  · exact h.congr (by simp)
  · split
    · exact h.congr (by simp)
    · exact (State.settle_imageShown _ _ _).answer _ _ _

theorem State.writeSlot_face (i index : Nat) (data : List Byte) : (s.writeSlot i index data).face = s.face := by
  unfold State.writeSlot
  dsimp only
  repeat' split
  all_goals simp [State.writeSegments_face]

theorem State.cmdTableSeal_face (p : List Byte) : (s.cmdTableSeal p).face = s.face := by
  unfold State.cmdTableSeal
  dsimp only
  repeat' split
  case isFalse.isFalse.isFalse => rfl
  all_goals simp

theorem State.commandTabs_imageShown (h : s.imageShown) (code : Byte) (l : List TabStop) :
    (s.commandTabs code l).imageShown := by
  unfold State.commandTabs
  split
  · exact (State.settle_imageShown _ _ _).answer _ _ _
  · exact h.congr (by simp)

theorem State.cmdTabAdd_imageShown (h : s.imageShown) (p : List Byte) : (s.cmdTabAdd p).imageShown := by
  unfold State.cmdTabAdd
  dsimp only
  split
  · split
    · exact h.congr (by simp)
    · split
      · exact h.congr (by simp)
      · exact s.commandTabs_imageShown h _ _
  · exact h.congr (by simp)

theorem State.cmdTabRemove_imageShown (h : s.imageShown) (p : List Byte) : (s.cmdTabRemove p).imageShown := by
  unfold State.cmdTabRemove
  dsimp only
  split
  · split
    · exact s.commandTabs_imageShown h _ _
    · exact h.congr (by simp)
  · exact h.congr (by simp)

theorem State.cmdUserAdd_imageShown (h : s.imageShown) (p : List Byte) : (s.cmdUserAdd p).imageShown := by
  unfold State.cmdUserAdd
  dsimp only
  split
  · exact h.congr (by simp)
  · split
    · exact h.congr (by simp)
    · split
      · exact h.congr (by simp)
      · exact (State.settle_imageShown _ _ _).answer _ _ _

theorem State.cmdUserRemove_imageShown (h : s.imageShown) (p : List Byte) : (s.cmdUserRemove p).imageShown := by
  unfold State.cmdUserRemove
  dsimp only
  split
  · exact h.congr (by simp)
  · split
    · exact (State.settle_imageShown _ _ _).answer _ _ _
    · exact h.congr (by simp)

theorem State.cmdResume_imageShown (h : s.imageShown) (paper : Bool) (p : List Byte) :
    (s.cmdResume paper p).imageShown := by
  unfold State.cmdResume
  split
  · split
    · split
      · exact (State.settle_imageShown _ _ _).answer _ _ _
      · exact h.congr (by simp)
    · exact h.congr ((State.answer_face _ _ _ _).trans rfl)
  · exact h.congr (by simp)

theorem State.cmdAckFault_imageShown (h : s.imageShown) (p : List Byte) : (s.cmdAckFault p).imageShown := by
  unfold State.cmdAckFault State.ackFaults
  dsimp only
  split
  · split <;> exact State.settle_imageShown _ _ _
  · exact h.congr (by simp)

theorem State.restart_imageShown (h : s.imageShown) (k : Selector) : (s.restart k).imageShown := by
  cases k with
  | link => exact State.settle_imageShown _ _ _
  | text => exact State.settle_imageShown _ _ _
  | mech => exact State.settle_imageShown _ _ _
  | tables => exact State.settle_imageShown _ _ _
  | counters => exact h.congr ((State.answer_face _ _ _ _).trans rfl)
  | all => exact State.formImage_imageShown _

theorem State.abortSeal_face : s.abortSeal.face = s.face := by
  unfold State.abortSeal
  split
  · rfl
  · exact (State.answer_face _ _ _ _).trans rfl

theorem State.cmdRestart_imageShown (h : s.imageShown) (p : List Byte) : (s.cmdRestart p).imageShown := by
  unfold State.cmdRestart
  split
  · exact State.restart_imageShown _ (h.congr s.abortSeal_face) _
  · exact h.congr (by simp)

theorem State.sealDone_imageShown (h : s.imageShown) : s.sealDone.imageShown := by
  unfold State.sealDone
  split
  · exact h
  · dsimp only
    split
    · exact h.congr ((State.answer_face _ _ _ _).trans rfl)
    · split
      · exact h.congr ((State.answer_face _ _ _ _).trans rfl)
      · exact (State.settle_imageShown _ _ _).answer _ _ _

theorem State.command_imageShown (h : s.imageShown) (code : Byte) (p : List Byte) (paper : Bool) :
    (s.command code p paper).imageShown := by
  unfold State.command
  have either {c : Prop} [Decidable c] {t u : State} (ht : t.imageShown) (hu : u.imageShown) :
      (if c then t else u).imageShown := ite_holds State.imageShown ht hu
  have hset : (s.cmdSet p).imageShown := by
    unfold State.cmdSet
    split
    · split
      · exact s.setTo_imageShown h _ _
      · exact h.answer _ _ _
    · exact h.answer _ _ _
  have hquery : (s.cmdQuery p).imageShown := by
    obtain ⟨o, data, heq⟩ := s.cmdQuery_eq p
    exact h.congr (by simp [heq])
  have hopen : (s.cmdTableOpen p).imageShown := by
    unfold State.cmdTableOpen
    split
    · split
      · exact h.congr (by simp)
      · split
        · exact h.congr (by simp)
        · exact either (h.congr (by simp)) (either (h.congr (by simp)) (s.openSlot_imageShown h _ _ _ _))
    · exact h.congr (by simp)
  have hwrite : (s.cmdTableWrite p).imageShown := by
    unfold State.cmdTableWrite
    split
    · exact either (h.congr (s.writeSlot_face _ _ _)) (h.congr (by simp))
    · exact h.congr (by simp)
  have hdrop : (s.cmdTableDrop p).imageShown := by
    unfold State.cmdTableDrop
    split
    · exact either (h.congr (by simp)) ((State.settle_imageShown _ _ _).answer _ _ _)
    · exact h.congr (by simp)
  have htabs : (s.cmdTabsClear p).imageShown := by
    unfold State.cmdTabsClear
    split
    · exact s.commandTabs_imageShown h _ _
    · exact h.congr (by simp)
  have hpause : (s.cmdPause p).imageShown := by
    unfold State.cmdPause
    split
    · exact (State.settle_imageShown _ _ _).answer _ _ _
    · exact h.congr (by simp)
  have hrestate : (s.cmdRestate p).imageShown := by
    unfold State.cmdRestate
    split
    · exact h.congr ((State.answer_face _ _ _ _).trans rfl)
    · exact h.congr (by simp)
  have hclear : (s.cmdClear p).imageShown := by
    unfold State.cmdClear
    split
    · exact h.congr ((State.answer_face _ _ _ _).trans rfl)
    · exact h.congr (by simp)
  exact either hset (either hquery (either hopen (either hwrite (either (h.congr (s.cmdTableSeal_face p))
    (either hdrop (either (s.cmdTabAdd_imageShown h p) (either (s.cmdTabRemove_imageShown h p) (either htabs
    (either (s.cmdUserAdd_imageShown h p) (either (s.cmdUserRemove_imageShown h p) (either hpause
    (either (s.cmdResume_imageShown h paper p) (either (s.cmdAckFault_imageShown h p) (either hrestate (either hclear
    (either (s.cmdRestart_imageShown h p) (h.congr (by simp))))))))))))))))))

theorem State.takeControl_imageShown (h : s.imageShown) (code : Byte) (p : List Byte) (paper : Bool) :
    (s.takeControl code p paper).imageShown := by
  unfold State.takeControl
  split
  · exact h.congr (by simp)
  · split
    · exact (h.congr s.reserve_face).answer _ _ _
    · exact State.command_imageShown _ (h.congr s.reserve_face) _ _ _

theorem State.takeBlock_imageShown (h : s.imageShown) (head : Byte) (payload : List Byte) (paper : Bool) :
    (s.takeBlock head payload paper).imageShown := by
  unfold State.takeBlock
  split
  · exact h.congr (by simp)
  · exact h.congr (by simp)
  · exact s.takeControl_imageShown h _ _ _
  · exact h.congr (by simp)

end Commands

/-! ### A step -/

theorem State.enterLocked_face (s : State) : s.enterLocked.face = s.face :=
  (State.event_face { s with rx := { s.rx with sync := .locked, window := [] } } .linkLocked).trans rfl

theorem State.confirm_imageShown (h : s.imageShown) (l : List FeedByte) (paper : Bool) :
    (s.confirm l paper).imageShown := by
  unfold State.confirm
  dsimp only
  split
  · refine State.takeBlock_imageShown _ (State.imageShown.congr ?_ (State.enterLocked_face _)) _ _ _
    exact h.congr rfl
  all_goals exact h.congr rfl

theorem State.lockedGood_imageShown (h : s.imageShown) (l : List FeedByte) (k : BlockKind) (paper : Bool) :
    (s.lockedGood l k paper).imageShown := by
  unfold State.lockedGood
  dsimp only
  split
  · split
    · refine State.takeBlock_imageShown _ (State.imageShown.congr ?_ (State.noteBlock_face _ _)) _ _ _
      exact h.congr rfl
    · exact h.congr rfl
  · exact h.congr rfl

/-- The image that waits is that of the state, so that once sent none waits (R136). -/
theorem State.blockSent_imageShown (h : s.imageShown) : s.blockSent.imageShown := by
  unfold State.blockSent State.arbitrate
  split
  · exact h.congr rfl
  · split
    case h_1 im hchoice =>
      have hslot : s.disp.slot = some im := by
        unfold State.arbiterChoice at hchoice
        grind [State.laterChoice]
      intro hon
      obtain ⟨hcurrent, hwaits⟩ := h hon
      have him : im = s.image := by
        rw [hslot] at hwaits
        split at hwaits
        · cases hwaits
        · exact Option.some.inj hwaits
      have himage : (s.sendDisplay im).image = s.image := rfl
      rw [himage]
      exact ⟨hcurrent, by rw [him]; exact (if_pos rfl).symm⟩
    all_goals exact h.congr rfl

theorem State.becomes.imageShown (ht : s.becomes t) (hs : s.resetHeld = false) (hrun : t.resetHeld = false)
    (h : s.imageShown) : t.imageShown := by
  cases ht with
  | idle => exact h
  | asserted => cases hrun
  | released => exact h.congr (by rw [State.releaseReset_of_running hs])
  | coverWhileHeld => exact h.congr rfl
  | hunt => exact h.congr (s.huntCandidate_face _)
  | confirmed => exact State.confirm_imageShown h _ _
  | confirmStray => exact h.congr (s.confirmStray_face _)
  | lockedStray => exact h.congr (s.lockedStray_face _)
  | lockedBad => exact h.congr (s.lockedBad_face _)
  | lockedGood => exact State.lockedGood_imageShown h _ _ _
  | command => exact s.takeControl_imageShown h _ _ _
  | sealDone => exact s.sealDone_imageShown h
  | keyPressed => exact h.congr s.keyPressed_face
  | keyReleased => exact h.congr s.keyReleased_face
  | repeatExpiry => exact h.congr (s.repeatExpiry_face _)
  | keyRow =>
    unfold State.keyRow
    split
    · split
      · exact State.settle_imageShown _ _ _
      · exact h
    · exact h
  | textRow =>
    unfold State.textRow
    split
    · split
      · exact State.settle_imageShown _ _ _
      · exact h
    · exact h
  | heatTick => exact h.congr s.heatTick_face
  | restExpiry => exact h.congr s.restExpiry_face
  | rotationExpiry => exact h.congr s.rotationExpiry_face
  | blockSent => exact State.blockSent_imageShown h
  | nextInterval =>
    obtain ⟨b, n, heq, -⟩ := s.nextInterval_eq
    exact h.congr (by rw [heq]; rfl)
  | settled => exact State.settle_imageShown _ _ _

/-- The image that waits when the reset input is released is that of the power-on values (R137, R187). -/
theorem State.releaseReset_imageCurrent (h : s.resetHeld = true) : s.releaseReset.imageCurrent := by
  have hfirst : State.reset.image = Image.first := by decide +kernel
  have hopen : { State.reset with seq := { Sequencer.held with state := .coverOpen } : State }.image = Image.first := by
    decide +kernel
  refine fun _ => ?_
  cases hc : s.coverOpen with
  | false =>
    rw [State.releaseReset_closed h hc]
    exact ⟨congrArg some hfirst.symm, congrArg some hfirst.symm⟩
  | true =>
    rw [State.releaseReset_open h hc]
    exact ⟨congrArg some hopen.symm, congrArg some hopen.symm⟩

theorem step_imageCurrent (hs : s.imageCurrent) (h : step s = .next t) : t.imageCurrent := by
  obtain rfl | ⟨rest, hrest⟩ := step_runsTo h
  · exact hs
  cases hheld : s.resetHeld with
  | true =>
    obtain rfl | hstays := hrest.held hheld
    · exact State.releaseReset_imageCurrent hheld
    · exact t.imageCurrent_iff.mpr fun hrun => absurd (hrun.symm.trans hstays) (by decide)
  | false =>
    obtain ⟨hshown, hdark⟩ := s.imageCurrent_iff.mp hs hheld
    refine t.imageCurrent_iff.mpr fun hrun => ⟨?_, (step_pays h).bounded.dark hdark⟩
    exact hrest.becomes.imageShown hheld hrun (hshown.congr rfl)

/-- Settles O59: the window moves by multiples of 8 (`step_windowAligned`), and a step that changes the face of the part
ends with the image formed anew (`State.becomes.imageShown`). -/
theorem displayImageIsKeptCurrent : Obligations.DisplayImageIsKeptCurrent :=
  fun _ _ hwindow himage hstep => ⟨step_windowAligned hwindow hstep, step_imageCurrent himage hstep⟩

end Sys2Proof.Machine
end

section
/-! PROOF of O5, O6, O7, O9, O10 and O11: the receiver judges the bytes it holds. What `nextUnit` makes of them is said
once for each form a block can take; every row of the receiver then follows from its own definition. -/

namespace Sys2Proof.Machine

variable {s t : State}

/-! ### The bytes passed over (R169 to R171) -/

/-- Whether a byte is passed over in a sync state. -/
def passes : RxState → FeedByte → Bool
  | .hunt, b => !isStart b
  | _, b => isIdle b

theorem passOver_eq (sync : RxState) (l : List FeedByte) : passOver sync l = l.dropWhile (passes sync) := by
  cases sync <;> rfl

theorem passOver_append {sync : RxState} {junk : List FeedByte} (h : ∀ b ∈ junk, passes sync b = true)
    (b : FeedByte) (hb : passes sync b = false) (l : List FeedByte) : passOver sync (junk ++ b :: l) = b :: l := by
  rw [passOver_eq, List.dropWhile_append_of_pos h, List.dropWhile_cons_of_neg (by simp [hb])]

theorem passes_start (sync : RxState) : passes sync ⟨startByte, false⟩ = false := by
  cases sync <;> rfl

/-- The bytes held once junk has been passed over up to a START. -/
theorem feed_to_start {junk feed l : List FeedByte} (hj : ∀ b ∈ junk, passes s.rx.sync b = true)
    (h : s.rx.buf ++ feed = junk ++ ⟨startByte, false⟩ :: l) :
    s.feed feed = { s with rx := { s.rx with buf := ⟨startByte, false⟩ :: l } } := by
  rw [State.feed, h, passOver_append hj _ (passes_start _)]

theorem nextUnit_start (sync : RxState) (l : List FeedByte) :
    nextUnit sync (⟨startByte, false⟩ :: l) = readBlock sync l := by
  have hpass : passOver sync (⟨startByte, false⟩ :: l) = ⟨startByte, false⟩ :: l :=
    passOver_append (junk := []) (by simp) _ (passes_start sync) l
  rw [nextUnit, hpass]
  rfl

/-! ### Blocks (R168) -/

/-- The bytes of a good block after its START. -/
theorem goodFeed_eq (head : Byte) (payload : List Byte) (rest : List FeedByte) :
    goodFeed head payload ++ rest = ⟨startByte, false⟩ :: ⟨head, false⟩ :: ⟨byteOf payload.length, false⟩ ::
      (payload.map (fun b => ⟨b, false⟩) ++ ⟨checkByte head payload, false⟩ :: rest) := by
  simp [goodFeed, blockBytes]

theorem readBlock_body (sync : RxState) (head len check : FeedByte) {payload : List FeedByte} (rest : List FeedByte)
    (hlen : payload.length = len.data.toNat) (hmax : len.data.toNat ≤ 48) (hbad : (len.bad && sync = .locked) = false) :
    readBlock sync (head :: len :: (payload ++ check :: rest)) =
      if head.bad || len.bad || payload.any FeedByte.bad || check.bad ||
        check.data ≠ checkByte head.data (payload.map FeedByte.data) then
        .badBlock (head :: len :: (payload ++ check :: rest)) rest
      else .good head.data (payload.map FeedByte.data) rest := by
  have hjudged : (maxLen < len.data.toNat || (len.bad && sync = .locked)) = false := by
    rw [hbad, Bool.or_false, decide_eq_false_iff_not]
    exact hmax.not_gt
  rw [readBlock, if_neg (by rw [hjudged]; decide), List.drop_left' hlen, List.take_left' hlen]

theorem readBlock_good (sync : RxState) (head : Byte) {payload : List Byte} (rest : List FeedByte)
    (h : payload.length ≤ 48) :
    readBlock sync (⟨head, false⟩ :: ⟨byteOf payload.length, false⟩ ::
      (payload.map (fun b => ⟨b, false⟩) ++ ⟨checkByte head payload, false⟩ :: rest)) = .good head payload rest := by
  have hlen : (byteOf payload.length).toNat = payload.length := Nat.mod_eq_of_lt (by omega)
  rw [readBlock_body] <;> simp [Function.comp_def, hlen, h]

theorem readBlock_badLen {sync : RxState} (head : FeedByte) {len : FeedByte} (rest : List FeedByte)
    (h : 48 < len.data.toNat ∨ (len.bad = true ∧ sync = .locked)) :
    readBlock sync (head :: len :: rest) = .badLen (head :: len :: rest) := by
  refine if_pos ?_
  rw [Bool.or_eq_true, Bool.and_eq_true]
  exact h.imp decide_eq_true (And.imp_right decide_eq_true)

theorem readBlock_bad {sync : RxState} {head len check : FeedByte} {payload rest : List FeedByte}
    (hlen : payload.length = len.data.toNat) (hmax : len.data.toNat ≤ 48) (hs : len.bad = false ∨ sync ≠ .locked)
    (h : head.bad = true ∨ len.bad = true ∨ (∃ b ∈ payload, b.bad = true) ∨ check.bad = true ∨
      check.data ≠ checkByte head.data (payload.map FeedByte.data)) :
    readBlock sync (head :: len :: (payload ++ check :: rest)) =
      .badBlock (head :: len :: (payload ++ check :: rest)) rest := by
  rw [readBlock_body sync head len check rest hlen hmax ?_, if_pos]
  · simpa [or_assoc] using h
  · rcases hs with hs | hs <;> simp [hs]

theorem readBlock_incomplete {sync : RxState} {l : List FeedByte} (hs : sync ≠ .locked)
    (h : l.length < 2 ∨ ∃ head len body, l = head :: len :: body ∧ len.data.toNat ≤ 48 ∧
      body.length ≤ len.data.toNat) : readBlock sync l = .incomplete := by
  rcases h with h | ⟨head, len, body, rfl, hmax, hshort⟩
  · match l, h with
    | [], _ => rfl
    | [_], _ => rfl
  · have hdrop : body.drop len.data.toNat = [] := List.drop_eq_nil_iff.mpr hshort
    have hfits : decide (maxLen < len.data.toNat) = false := decide_eq_false hmax.not_gt
    rw [readBlock, if_neg (by simp [hs, hfits]), hdrop]

/-! ### HUNT (R169) -/

theorem exec_hunt (h : s.resetHeld = false) (feed : List FeedByte) :
    exec (.huntCandidateBlock feed) s = .next (s.huntCandidate feed) :=
  live_of_running h fun s => s.huntCandidate feed

/-- Settles O5: the bytes up to the START are passed over, and what follows it is judged by `readBlock`. -/
theorem huntJudgesTheCandidateBlock : Obligations.HuntJudgesTheCandidateBlock := by
  intro s feed junk rest hrun hsync hjunk
  have hpass : ∀ b ∈ junk, passes s.rx.sync b = true := fun b hb => by simp [hsync, passes, hjunk b hb]
  have hjudge {l : List FeedByte} (h : s.rx.buf ++ feed = junk ++ ⟨startByte, false⟩ :: l) :
      s.huntCandidate feed =
        let u := { s with rx := { s.rx with buf := ⟨startByte, false⟩ :: l } }
        match readBlock .hunt l with
        | .good _ _ rest => ((u.scanFrom rest).withSync .confirm).raise .huntDiscards
        | .badLen rest => u.scanFrom rest
        | .badBlock rest _ => u.scanFrom rest
        | _ => u := by
    rw [State.huntCandidate, feed_to_start hpass h]
    dsimp only
    rw [hsync, nextUnit_start]
    split <;> simp_all
  rw [exec_hunt hrun]
  refine ⟨fun head payload hlen hbuf => ?_, fun head len hbuf hlen => ?_,
    fun head len check payload hbuf hlen hmax hbad => ?_, fun read hbuf hshort => ?_⟩ <;> refine congrArg _ ?_
  · rw [List.append_assoc, goodFeed_eq] at hbuf
    rw [hjudge hbuf, readBlock_good _ _ _ hlen]
    rfl
  · rw [hjudge hbuf, readBlock_badLen head rest (.inl hlen)]
    rfl
  · rw [hjudge hbuf, readBlock_bad hlen hmax (.inr (by decide)) hbad]
    rfl
  · rw [hjudge hbuf, readBlock_incomplete (by decide) hshort]

/-! ### CONFIRM (R170) -/

theorem exec_confirm (h : s.resetHeld = false) (hr : runsInside s.tab.slots = true) (feed : List FeedByte) (paper : Bool) :
    exec (.confirmBlock feed paper) s = .next (s.confirm feed paper) :=
  liveTables_of_running h hr fun s => s.confirm feed paper

theorem passes_idles {sync : RxState} {idles : List FeedByte} (hs : sync ≠ .hunt) (h : ∀ b ∈ idles, isIdle b = true) :
    ∀ b ∈ idles, passes sync b = true := fun b hb => by
  cases sync with
  | hunt => exact absurd rfl hs
  | confirm => exact h b hb
  | locked => exact h b hb

theorem State.enterLocked_eq (s : State) (rest : List FeedByte) :
    (s.scanFrom rest).enterLocked = { State.event { s with rx := ⟨.locked, rest, []⟩ } .linkLocked with
      txt := { s.txt with balance := 0, unsent := 96 - s.txt.queue.length, restate := true } } := by
  simp [State.enterLocked, State.restateCredit, State.scanFrom, TextLink.restated, textPlaces]

/-- Settles O6: the IDLE bytes are passed over, and what follows the START is judged by `readBlock`. -/
theorem confirmJudgesTheBlock : Obligations.ConfirmJudgesTheBlock := by
  intro s feed idles rest paper hrun hr hsync hidles
  have hpass := passes_idles (sync := s.rx.sync) (by simp [hsync]) hidles
  have hjudge {l : List FeedByte} (h : s.rx.buf ++ feed = idles ++ ⟨startByte, false⟩ :: l) :
      s.confirm feed paper =
        let u := { s with rx := { s.rx with buf := ⟨startByte, false⟩ :: l } }
        match readBlock .confirm l with
        | .good head payload rest => (u.scanFrom rest).enterLocked.takeBlock head payload paper
        | .badLen rest => (u.scanFrom rest).withSync .hunt
        | .badBlock rest _ => (u.scanFrom rest).withSync .hunt
        | _ => u := by
    rw [State.confirm, feed_to_start hpass h]
    dsimp only
    rw [hsync, nextUnit_start]
    split <;> simp_all
  rw [exec_confirm hrun hr]
  refine ⟨fun head payload hlen hbuf => ?_, fun head len hbuf hlen => ?_,
    fun head len check payload hbuf hlen hmax hbad => ?_, fun read hbuf hshort => ?_⟩ <;> refine congrArg _ ?_
  · rw [List.append_assoc, goodFeed_eq] at hbuf
    rw [hjudge hbuf, readBlock_good _ _ _ hlen]
    dsimp only
    rw [State.enterLocked_eq]
  · rw [hjudge hbuf, readBlock_badLen head rest (.inl hlen)]
    rfl
  · rw [hjudge hbuf, readBlock_bad hlen hmax (.inr (by decide)) hbad]
    rfl
  · rw [hjudge hbuf, readBlock_incomplete (by decide) hshort]

/-! ### Stray bytes and bad blocks (R170, R171) -/

theorem State.leaveLocked_eq (s : State) (rest : List FeedByte) : (s.scanFrom rest).leaveLocked = s.lostLock rest := by
  simp [State.leaveLocked, State.lostLock, State.scanFrom, Intake.unlocked, Intake.withdraw, State.raise]

theorem State.leaveLocked_eq_self (s : State) : s.leaveLocked = s.lostLock s.rx.buf := s.leaveLocked_eq s.rx.buf

/-- The bytes held once the IDLE bytes have been passed over up to a byte that is none. -/
theorem feed_to_stray {idles feed rest : List FeedByte} {b : FeedByte} (hs : s.rx.sync ≠ .hunt)
    (hj : ∀ b ∈ idles, isIdle b = true) (hb : isIdle b = false) (h : s.rx.buf ++ feed = idles ++ b :: rest) :
    s.feed feed = { s with rx := { s.rx with buf := b :: rest } } := by
  have hpass : passes s.rx.sync b = false := by
    revert hs
    cases s.rx.sync <;> simp [passes, hb]
  rw [State.feed, h, passOver_append (passes_idles hs hj) b hpass]

theorem nextUnit_stray {sync : RxState} (hs : sync ≠ .hunt) {b : FeedByte} (hb : isIdle b = false)
    (hstart : isStart b = false) (rest : List FeedByte) : nextUnit sync (b :: rest) = .stray rest := by
  have hpass : passOver sync (b :: rest) = b :: rest := by
    refine passOver_append (junk := []) (by simp) b ?_ rest
    revert hs
    cases sync <;> simp [passes, hb]
  rw [nextUnit, hpass]
  exact if_neg (by simp [hstart])

theorem count_true_eq (w : List Bool) : w.count true = (w.filter (fun b => b)).length := by
  rw [List.count, List.countP_eq_length_filter]
  congr 2
  funext b
  cases b <;> rfl

theorem enterWindow_eq (w : List Bool) (bad : Bool) :
    enterWindow w bad = (if w.length < 16 then w else w.tail) ++ [bad] := by
  unfold enterWindow windowPlaces
  split <;> rfl

/-- Settles O7: a byte that is no IDLE ends the passing over; without a START it is stray, and a bad block enters the
window before the receiver may leave LOCKED. -/
theorem strayBytesAndBadBlocksLoseSync : Obligations.StrayBytesAndBadBlocksLoseSync := by
  refine ⟨fun s feed idles rest hrun hidles => ⟨fun b hbuf hb hstart => ⟨fun hsync => ?_, fun hsync => ?_⟩,
    fun head len hbuf hlen hsync => ?_⟩, fun s feed idles rest payload head len check hrun hsync hidles hbuf hgood hlen
    hmax hbad => ?_⟩
  case refine_1 =>
    have hs : s.rx.sync ≠ .hunt := by simp [hsync]
    refine (live_of_running hrun fun s => s.confirmStray feed).trans (congrArg _ ?_)
    rw [State.confirmStray, feed_to_stray hs hidles hb hbuf]
    dsimp only
    rw [nextUnit_stray hs hb hstart, hsync]
    rfl
  case refine_2 =>
    have hs : s.rx.sync ≠ .hunt := by simp [hsync]
    refine (live_of_running hrun fun s => s.lockedStray feed).trans (congrArg _ ?_)
    rw [State.lockedStray, feed_to_stray hs hidles hb hbuf]
    dsimp only
    rw [nextUnit_stray hs hb hstart, hsync]
    exact s.leaveLocked_eq rest
  case refine_3 =>
    refine (live_of_running hrun fun s => s.lockedStray feed).trans (congrArg _ ?_)
    rw [State.lockedStray, feed_to_start (passes_idles (by simp [hsync]) hidles) hbuf]
    dsimp only
    rw [nextUnit_start, readBlock_badLen head rest (hlen.symm.imp_right fun h => ⟨h, hsync⟩), hsync]
    exact s.leaveLocked_eq _
  case refine_4 =>
    intro w u
    refine (live_of_running hrun fun s => s.lockedBad feed).trans (congrArg _ ?_)
    rw [State.lockedBad, feed_to_start (passes_idles (by simp [hsync]) hidles) hbuf]
    dsimp only
    rw [nextUnit_start, readBlock_bad hlen hmax (.inl hgood) (hbad.imp_right .inr), hsync]
    have hw : enterWindow s.rx.window true = w := enterWindow_eq _ _
    simp only [State.noteBlock, State.raise, State.scanFrom, hw, ← count_true_eq]
    by_cases hfew : w.count true < 4
    · rw [if_neg (by omega), if_pos hfew]
      simp [u, hsync]
    · rw [if_pos (by omega), if_neg hfew, State.leaveLocked_eq_self]
      simp [u, hsync]

/-! ### Good blocks in LOCKED (R171 to R174) -/

/-- A good block of a kind in LOCKED enters the window as good and is taken. -/
theorem lockedGood_of_good {feed idles rest : List FeedByte} {head : Byte} {payload : List Byte} {k : BlockKind}
    (paper : Bool) (hsync : s.rx.sync = .locked) (hidles : ∀ b ∈ idles, isIdle b = true) (hlen : payload.length ≤ 48)
    (hbuf : s.rx.buf ++ feed = idles ++ goodFeed head payload ++ rest)
    (hw : ((if s.rx.window.length < 16 then s.rx.window else s.rx.window.tail) ++ [false]).count true < 4)
    (hk : blockKind head payload.length = k) :
    s.lockedGood feed k paper = State.takeBlock { s with rx := { s.rx with
      buf := rest, window := (if s.rx.window.length < 16 then s.rx.window else s.rx.window.tail) ++ [false] } }
      head payload paper := by
  rw [List.append_assoc, goodFeed_eq] at hbuf
  rw [State.lockedGood, feed_to_start (passes_idles (by simp [hsync]) hidles) hbuf]
  dsimp only
  rw [nextUnit_start, readBlock_good _ _ _ hlen, hsync]
  dsimp only
  rw [if_pos hk]
  simp only [State.noteBlock, State.scanFrom, enterWindow_eq, ← count_true_eq]
  rw [if_neg (by omega)]

theorem State.appendKeys_of_room {l : List Byte} (h : s.keyq.queue.length + l.length ≤ 16) :
    s.appendKeys l = { s with keyq := ⟨s.keyq.queue ++ l, if l = [] then s.keyq.overflowRun else false⟩ } := by
  induction l generalizing s with
  | nil => simp [State.appendKeys]
  | cons b l ih =>
    rw [List.length_cons] at h
    have hfirst : s.appendKey b = { s with keyq := ⟨s.keyq.queue ++ [b], false⟩ } := if_pos (show _ < 16 by omega)
    have hrest : (s.appendKey b).appendKeys l = s.appendKeys (b :: l) := rfl
    rw [← hrest, hfirst, ih (by simp only [List.length_append, List.length_singleton]; omega)]
    simp

theorem takeBlock_key {head : Byte} {payload : List Byte} (hk : blockKind head payload.length = .key) (paper : Bool) :
    s.takeBlock head payload paper = s.appendKeys payload := by
  unfold State.takeBlock
  rw [hk]

theorem takeBlock_text {head : Byte} {payload : List Byte} (hk : blockKind head payload.length = .text) (paper : Bool) :
    s.takeBlock head payload paper = s.chargeText payload := by
  unfold State.takeBlock
  rw [hk]

theorem takeBlock_unknown {head : Byte} {payload : List Byte} (hk : blockKind head payload.length = .unknown)
    (paper : Bool) : s.takeBlock head payload paper = s.raise .unknownKinds := by
  unfold State.takeBlock
  rw [hk]

/-- Settles O9: the block enters the window, and its kind says what takes it. -/
theorem lockedBlocksAreTakenByKind : Obligations.LockedBlocksAreTakenByKind := by
  intro s feed idles rest head payload hrun hsync hidles hlen hbuf w u hw
  have hgood {k : BlockKind} (hk : blockKind head payload.length = k) :
      live s (fun s => s.lockedGood feed k) = .next (u.takeBlock head payload true) :=
    (live_of_running hrun _).trans (congrArg _ (lockedGood_of_good true hsync hidles hlen hbuf hw hk))
  refine ⟨fun hhead h8 hroom => ?_, fun hhead hroom => ?_, fun hhead hover => ?_, fun hkey htext hcontrol => ?_⟩
  · have hk : blockKind head payload.length = .key := if_pos ⟨hhead, h8⟩
    refine (hgood hk).trans (congrArg _ ?_)
    rw [takeBlock_key hk]
    exact State.appendKeys_of_room (s := u) hroom
  · have hk : blockKind head payload.length = .text := by simp [blockKind, hhead]
    refine (hgood hk).trans (congrArg _ ?_)
    rw [takeBlock_text hk, State.chargeText, Nat.min_eq_left hroom]
    simp [u]
  · have hk : blockKind head payload.length = .text := by simp [blockKind, hhead]
    refine (hgood hk).trans (congrArg _ ?_)
    rw [takeBlock_text hk, State.chargeText, Nat.min_eq_right hover.le]
    dsimp only
    rw [if_neg hover.ne', Nat.sub_self]
    rfl
  · have hk : blockKind head payload.length = .unknown := by
      have hempty : head.toNat / 16 = 3 → payload.length = 0 := fun h => by rw [hcontrol h]; rfl
      rw [blockKind, if_neg (fun h => absurd (hkey h.1) h.2.not_gt), if_neg htext,
        if_neg (fun h => absurd (hempty h.1) h.2.ne')]
    refine (hgood hk).trans (congrArg _ ?_)
    rw [takeBlock_unknown hk]
    rfl

/-! ### CONTROL blocks (R172, R176) -/

/-- Only RESUME reads the paper sensor (R84). -/
theorem State.takeControl_paper (s : State) {code : Byte} (h : code ≠ 0x0D) (p : List Byte) (a b : Bool) :
    s.takeControl code p a = s.takeControl code p b := by
  have hcommand (s : State) : s.command code p a = s.command code p b := by
    unfold State.command
    rw [if_neg h, if_neg h]
  rw [State.takeControl, State.takeControl, hcommand]

theorem exec_of_payload {i : Instr} {code : Byte} {params : List Byte} {paper : Bool} (h : s.resetHeld = false)
    (hr : code = 0x04 → runsInside s.tab.slots = true) (hp : payloadOf i = some (code, params))
    (hpaper : ∀ p, i = .resume p → p = paper) : exec i s = .next (s.takeControl code params paper) := by
  have hany {c : Byte} {p : List Byte} (hc : c ≠ 0x0D) :
      live s (fun s => s.takeControl c p) = .next (s.takeControl c p paper) := by
    rw [live_of_running h, s.takeControl_paper hc]
  cases i with
  | resume q =>
    cases hp
    cases hpaper q rfl
    exact live_of_running h fun s => s.takeControl 0x0D [] paper
  | tableWrite p =>
    cases hp
    exact (liveTables_of_running h (hr rfl) fun s => s.takeControl 0x04 params).trans
      (congrArg _ (s.takeControl_paper (by decide) _ _ _))
  | set | queryStatus | queryCounters | queryDirectory | queryLine | queryWords | queryUserWord | queryFaults
  | tableOpen | tableSeal | tableDrop | tabAdd | tabRemove | tabsClear | userWordAdd | userWordRemove | pause | ackFault
  | creditRestate | clearCounters | restartLink | restartText | restartMech | restartTables | restartCounters
  | restartAll => cases hp; exact hany (by decide)
  | _ => cases hp

/-- A command that spells no row is answered at once. -/
theorem takeControl_answered {code : Byte} {params : List Byte} {o : CmdOutcome} (paper : Bool)
    (hfree : s.ret.hasFree = true) (hidle : s.tab.sealing = none)
    (h : s.reserve.command code params paper = s.reserve.answer code o []) :
    s.takeControl code params paper = { s with ret := s.ret.answered code o [] } := by
  rw [State.takeControl, if_neg (by simp [hfree]), if_neg (by simp [hidle]), h, State.reserve_answer]

theorem command_unknown (s : State) {code : Byte} (h : code = 0 ∨ 0x11 < code.toNat) (p : List Byte) (paper : Bool) :
    s.command code p paper = s.answer code .unknownCommand [] := by
  have hne (c : Byte) (hpos : 0 < c.toNat) (hle : c.toNat ≤ 0x11) : code ≠ c := by
    rintro rfl
    rcases h with rfl | h
    · exact absurd hpos (by decide)
    · omega
  unfold State.command
  repeat rw [if_neg (hne _ (by decide) (by decide))]

/-- A payload whose length is not the command's is answered so (R176, R186). -/
theorem command_badLength (s : State) {code : Byte} {n : Nat} {p : List Byte} (paper : Bool)
    (h : (code, n) ∈ [((0x01 : Byte), 3), (0x02, 2), (0x03, 5), (0x05, 4), (0x06, 1), (0x07, 3), (0x08, 2), (0x09, 0),
      (0x0C, 0), (0x0D, 0), (0x0E, 0), (0x0F, 0), (0x10, 0), (0x11, 1)]) (hp : p.length ≠ n) :
    s.command code p paper = s.answer code .badLength [] := by
  have hnil {f : List Byte → State} {a : State} (hf : ∀ b l, f (b :: l) = a) (h0 : p.length ≠ 0) : f p = a := by
    match p, h0 with
    | b :: l, _ => exact hf b l
  simp only [List.mem_cons, List.not_mem_nil, Prod.mk.injEq, or_false] at h
  rcases h with ⟨rfl, rfl⟩ | ⟨rfl, rfl⟩ | ⟨rfl, rfl⟩ | ⟨rfl, rfl⟩ | ⟨rfl, rfl⟩ | ⟨rfl, rfl⟩ | ⟨rfl, rfl⟩ | ⟨rfl, rfl⟩ |
    ⟨rfl, rfl⟩ | ⟨rfl, rfl⟩ | ⟨rfl, rfl⟩ | ⟨rfl, rfl⟩ | ⟨rfl, rfl⟩ | ⟨rfl, rfl⟩
  · exact State.cmdSet.eq_2 s p fun _ _ _ h => hp (h ▸ rfl)
  · exact State.cmdQuery.eq_2 s p fun _ _ h => hp (h ▸ rfl)
  · exact State.cmdTableOpen.eq_2 s p fun _ _ _ _ _ h => hp (h ▸ rfl)
  · exact State.cmdTableSeal.eq_2 s p fun _ _ _ _ h => hp (h ▸ rfl)
  · exact State.cmdTableDrop.eq_2 s p fun _ h => hp (h ▸ rfl)
  · exact State.cmdTabAdd.eq_2 s p fun _ _ _ h => hp (h ▸ rfl)
  · exact State.cmdTabRemove.eq_2 s p fun _ _ h => hp (h ▸ rfl)
  · exact hnil (f := s.cmdTabsClear) (fun _ _ => rfl) hp
  · exact hnil (f := s.cmdPause) (fun _ _ => rfl) hp
  · exact hnil (f := s.cmdResume paper) (fun _ _ => rfl) hp
  · exact hnil (f := s.cmdAckFault) (fun _ _ => rfl) hp
  · exact hnil (f := s.cmdRestate) (fun _ _ => rfl) hp
  · exact hnil (f := s.cmdClear) (fun _ _ => rfl) hp
  · show s.cmdRestart p = _
    have hof : restartOf p = .inr .badLength := by
      unfold restartOf
      split
      · exact absurd rfl hp
      · rfl
    rw [State.cmdRestart, hof]

theorem cmdQuery_badItem (s : State) {item : Byte} (index : Byte) (h : 6 < item.toNat) :
    s.cmdQuery [item, index] = s.answer 0x02 .badContent [] := by
  have hne (c : Byte) (hc : c.toNat ≤ 6) : item ≠ c := by
    rintro rfl
    omega
  unfold State.cmdQuery
  dsimp only
  repeat rw [if_neg (hne _ (by decide))]

theorem cmdRestart_badSelector (s : State) {k : Byte} (h : 5 < k.toNat) :
    s.cmdRestart [k] = s.answer 0x11 .badContent [] := by
  have hof : Selector.ofNum k.toNat = none := by
    unfold Selector.ofNum
    split <;> first | omega | rfl
  rw [State.cmdRestart, restartOf, hof]

/-- Settles O10: the block enters the window and its payload goes to the Command Engine, as the row that spells it
does. -/
theorem controlBlockRunsItsCommand : Obligations.ControlBlockRunsItsCommand := by
  have htaken {s : State} {feed idles rest : List FeedByte} {head code : Byte} {params : List Byte} {paper : Bool}
      (hrun : s.resetHeld = false) (hr : runsInside s.tab.slots = true) (hsync : s.rx.sync = .locked)
      (hidles : ∀ b ∈ idles, isIdle b = true) (hlen : params.length ≤ 47) (hhead : head.toNat / 16 = 3)
      (hbuf : s.rx.buf ++ feed = idles ++ goodFeed head (code :: params) ++ rest)
      (hw : ((if s.rx.window.length < 16 then s.rx.window else s.rx.window.tail) ++ [false]).count true < 4) :
      exec (.controlBlock feed paper) s = .next (State.takeControl { s with rx := { s.rx with
        buf := rest, window := (if s.rx.window.length < 16 then s.rx.window else s.rx.window.tail) ++ [false] } }
        code params paper) := by
    have hk : blockKind head (code :: params).length = .control := by simp [blockKind, hhead]
    refine (liveTables_of_running hrun hr fun s => s.lockedGood feed .control paper).trans (congrArg _ ?_)
    rw [lockedGood_of_good (payload := code :: params) paper hsync hidles (Nat.succ_le_succ hlen) hbuf hw hk]
    unfold State.takeBlock
    rw [hk]
  refine ⟨?_, ?_⟩
  · intro s feed idles rest head i code params paper hrun hr hsync hidles hlen hhead hbuf hi hpaper w hw
    exact ⟨_, htaken hrun hr hsync hidles hlen hhead hbuf hw, exec_of_payload hrun (fun _ => hr) hi hpaper⟩
  intro s feed idles rest head code params paper hrun hr hsync hidles hlen hhead hbuf hfree hidle w replies hw
  have hreplies {o : CmdOutcome} (h : ∀ t : State, t.command code params paper = t.answer code o []) : replies o :=
    (htaken hrun hr hsync hidles hlen hhead hbuf hw).trans
      (congrArg _ (takeControl_answered (s := { s with rx := { s.rx with buf := rest, window := w } }) paper hfree hidle
        (h _)))
  refine ⟨fun hcode => hreplies fun t => command_unknown t hcode _ _,
    fun n hn hlength => hreplies fun t => command_badLength t paper hn hlength, ?_, ?_⟩
  · rintro rfl item index rfl hitem
    exact hreplies fun t => cmdQuery_badItem t index hitem
  · rintro rfl k rfl hk
    exact hreplies fun t => cmdRestart_badSelector t hk

/-! ### Full queues (R173, R177) -/

/-- Settles O11: `appendKey` without room, and the two outcomes of an EVENT. -/
theorem fullQueuesDropAndCount : Obligations.FullQueuesDropAndCount := by
  refine ⟨fun s b hfull => ?_, fun s e => ⟨fun hevents hfill => ?_, fun hfull => ?_⟩⟩
  · rw [State.appendKey, if_neg (by simp only [keyPlaces]; omega)]
    simp
  · refine State.event_of_takes ?_
    rw [ReturnLine.takesEvent, Bool.and_eq_true, decide_eq_true_eq, ReturnLine.hasFree_iff]
    exact ⟨hevents, hfill⟩
  · refine State.event_of_full (Bool.eq_false_iff.mpr fun htakes => ?_)
    rw [ReturnLine.takesEvent, Bool.and_eq_true, decide_eq_true_eq, ReturnLine.hasFree_iff] at htakes
    obtain ⟨hevents, hfill⟩ := htakes
    exact hfull.elim (Nat.not_le_of_lt hevents) (Nat.not_le_of_lt hfill)

end Sys2Proof.Machine
end

section
/-! PROOF of O12, O13 and O14 to O16. A command taken is answered from the state with its place reserved; what it leaves unchanged
is carried through the image formed at its end. -/

namespace Sys2Proof.Machine

variable {s t : State}

/-! ### A command carried out (R176) -/

/-- A command row with a free place and no seal in progress is carried out with its answer's place reserved. -/
theorem exec_of_ready {i : Instr} {code : Byte} {params : List Byte} (h : s.commandReady) (hw : code ≠ 0x04)
    (hp : payloadOf i = some (code, params)) {paper : Bool} (hpaper : ∀ p, i = .resume p → p = paper) :
    exec i s = .next (s.reserve.command code params paper) := by
  obtain ⟨hrun, hfree, hidle⟩ := h
  rw [exec_of_payload hrun (fun hc => absurd hc hw) hp hpaper, State.takeControl, if_neg (by simp [hfree]),
    if_neg (by simp [hidle])]

theorem exec_command {i : Instr} {code : Byte} {params : List Byte} (h : s.commandReady) (hw : code ≠ 0x04)
    (hp : payloadOf i = some (code, params)) (hpaper : ∀ p, i ≠ .resume p) :
    exec i s = .next (s.reserve.command code params true) :=
  exec_of_ready h hw hp fun p hi => absurd hi (hpaper p)

/-- A command answered from its reserved place, with nothing else done. -/
theorem exec_replies {i : Instr} {code : Byte} {params : List Byte} {o : CmdOutcome} {data : List Byte}
    (h : s.commandReady) (hw : code ≠ 0x04) (hp : payloadOf i = some (code, params)) (hpaper : ∀ p, i ≠ .resume p)
    (hc : s.reserve.command code params true = s.reserve.answer code o data) :
    exec i s = .next { s with ret := s.ret.answered code o data } := by
  rw [exec_command h hw hp hpaper, hc, State.reserve_answer]

/-! ### Queries (R184, R185) -/

theorem State.counterAnswer_badIndex {g : Byte} (h : 1 < g.toNat) : s.counterAnswer g = s.answer 0x02 .badIndex [] := by
  have hne (c : Byte) (hc : c.toNat ≤ 1) : g ≠ c := by
    rintro rfl
    omega
  rw [State.counterAnswer, if_neg (hne _ (by decide)), if_neg (hne _ (by decide))]

theorem indexHeld_iff {α : Type} (i : Byte) (l : List α) :
    indexHeld i.toNat l.length = true ↔ i.toNat < l.length ∨ (i = 0 ∧ l = []) := by
  have hzero : i.toNat = 0 ↔ i = 0 := ⟨fun h => BitVec.eq_of_toNat_eq h, fun h => h ▸ rfl⟩
  simp [indexHeld, hzero]

theorem not_indexHeld {α : Type} {i : Byte} {l : List α} (h : l.length ≤ i.toNat) (he : ¬(i = 0 ∧ l = [])) :
    ¬indexHeld i.toNat l.length = true := by
  rw [indexHeld_iff]
  exact not_or.mpr ⟨h.not_gt, he⟩

/-- Settles O12: each query is answered by its own function of the state. -/
theorem queriesAnswerAndChangeNothingElse : Obligations.QueriesAnswerAndChangeNothingElse := by
  intro s h answers
  have hanswers {i : Instr} {params : List Byte} {o : CmdOutcome} {data : List Byte}
      (hp : payloadOf i = some (0x02, params)) (hpaper : ∀ p, i ≠ .resume p)
      (hc : s.reserve.cmdQuery params = s.reserve.answer 0x02 o data) : answers i o data :=
    exec_replies h (by decide) hp hpaper hc
  refine ⟨hanswers rfl nofun rfl, hanswers rfl nofun rfl, hanswers rfl nofun rfl,
    fun g hg => hanswers rfl nofun (State.counterAnswer_badIndex hg), fun i hi => hanswers rfl nofun (if_pos hi),
    fun i hi => hanswers rfl nofun (if_neg hi.not_gt),
    fun i hi => hanswers rfl nofun (if_pos ((indexHeld_iff _ _).mpr hi)),
    fun i hi he => hanswers rfl nofun (if_neg (not_indexHeld hi he)),
    fun i hi => hanswers rfl nofun (if_pos ((indexHeld_iff _ _).mpr hi)),
    fun i hi he => hanswers rfl nofun (if_neg (not_indexHeld hi he)),
    fun i w hw => hanswers rfl nofun ?_, fun i hi => hanswers rfl nofun ?_⟩
  · change s.reserve.userWordAnswer i = _
    rw [State.userWordAnswer, show s.reserve.spell = s.spell from rfl, hw]
  · change s.reserve.userWordAnswer i = _
    rw [State.userWordAnswer, show s.reserve.spell = s.spell from rfl, List.getElem?_eq_none hi]

/-- Settles O13: the records take four bytes each, so that the unused places follow by their number. -/
theorem queryFaultsReportsTheFaultList : Obligations.QueryFaultsReportsTheFaultList := by
  intro s h hlength one r data
  have hrecs : (s.drv.faults.flatMap FaultRec.bytes).length = 4 * s.drv.faults.length := by
    rw [List.length_flatMap]
    simp [FaultRec.bytes, Nat.mul_comm]
  have hdata : s.reserve.faultBytes = data := by
    show s.faultBytes = data
    rw [State.faultBytes, hrecs]
    simp [data, r, one]
    rfl
  refine ⟨exec_replies (params := [6, 0]) h (by decide) rfl nofun ?_, ?_⟩
  · rw [← hdata]
    rfl
  · obtain ⟨d, hd⟩ : ∃ d, 1 :: s.ctr.group1 = d ++ twoBytes s.ctr.faultsUnlisted := ⟨1 :: _, rfl⟩
    refine ⟨d, ?_⟩
    rw [← hd]
    exact exec_replies (params := [1, 1]) h (by decide) rfl nofun rfl

/-! ### The end of a step that nothing waits for (R28, R136) -/

/-- The image formed at the end of a step joins the parts that it changed. -/
theorem State.keeps.ends {u : State} {l m : List Part} (h : s.keeps u l) (hi : .image ∉ l)
    (hm : .image :: l ⊆ m) : s.keeps u.formImage m ∧ s.imageFollows u.formImage := by
  obtain ⟨himage, hl⟩ := List.cons_subset.mp hm
  obtain ⟨hcurrent, hslot⟩ := h .image hi
  exact ⟨State.keeps_trans (State.keeps_mono h hl)
    (State.keeps_mono u.keeps_formImage (by simpa using himage)),
    State.imageFollows_formImage hcurrent hslot⟩

/-- With no item waiting, an operation answered after the end of the step ends with the image alone. -/
theorem State.settle_answer {u pre : State} (hk : u.comp.keyWait = none) (ht : u.comp.textWait = none) (code : Byte)
    (o : CmdOutcome) (data : List Byte) :
    (u.settle pre).answer code o data = (u.answer code o data).formImage := by
  rw [State.settle_of_quiet hk ht, State.answer_formImage]

/-! ### SET (R181, R182) -/

theorem exec_set {id hi lo : Byte} {k : Setting} (h : s.commandReady) (hk : Setting.ofId id.toNat = some k) :
    exec (.set [id, hi, lo]) s = .next (s.reserve.setTo k (ofTwoBytes hi lo)) := by
  rw [exec_command (i := .set [id, hi, lo]) h (by decide) rfl nofun, State.command_set, State.cmdSet, hk]

/-- SET carried out with nothing pending for the value (R181). -/
theorem exec_set_done {id hi lo : Byte} {k : Setting} {u : State} (h : s.commandReady)
    (hk : Setting.ofId id.toNat = some k)
    (hu : s.reserve.applySetting (k.clamp (ofTwoBytes hi lo)) k = .done u) (hkey : u.comp.keyWait = none)
    (htext : u.comp.textWait = none) :
    exec (.set [id, hi, lo]) s = .next (u.answer 0x01
      (if k.clamp (ofTwoBytes hi lo) = ofTwoBytes hi lo then .done else .doneClamped)
      (twoBytes (k.clamp (ofTwoBytes hi lo)) ++ [0])).formImage := by
  rw [exec_set h hk, State.setTo, hu, ← State.settle_answer hkey htext]

theorem exec_set_later {id hi lo : Byte} {k : Setting} {u : State} (h : s.commandReady)
    (hk : Setting.ofId id.toNat = some k)
    (hu : s.reserve.applySetting (k.clamp (ofTwoBytes hi lo)) k = .later u) (hkey : u.comp.keyWait = none)
    (htext : u.comp.textWait = none) :
    exec (.set [id, hi, lo]) s = .next (u.answer 0x01
      (if k.clamp (ofTwoBytes hi lo) = ofTwoBytes hi lo then .donePending else .doneClamped)
      (twoBytes (k.clamp (ofTwoBytes hi lo)) ++ [1])).formImage := by
  rw [exec_set h hk, State.setTo, hu, ← State.settle_answer hkey htext]

theorem exec_set_inconsistent {id hi lo : Byte} {k : Setting} (h : s.commandReady)
    (hk : Setting.ofId id.toNat = some k)
    (hu : s.reserve.applySetting (k.clamp (ofTwoBytes hi lo)) k = .inconsistent) :
    exec (.set [id, hi, lo]) s = .next { s with ret := s.ret.answered 0x01 .inconsistent [] } := by
  rw [exec_set h hk, State.setTo, hu, State.reserve_answer]

theorem State.reserve_ret_answered {u : State} (h : u.ret = s.reserve.ret) (code : Byte) (o : CmdOutcome)
    (data : List Byte) : (u.answer code o data).formImage.ret = s.ret.answered code o data := by
  simp [State.answer, h, State.reserve, ReturnLine.answered]

/-- SET of a setting that is stored and read later (R181). -/
theorem exec_set_stores {id hi lo : Byte} {k : Setting} {f : Settings → Settings} (h : s.commandReady) (hq : s.quiet)
    (hk : Setting.ofId id.toNat = some k)
    (hu : s.reserve.applySetting (k.clamp (ofTwoBytes hi lo)) k = .done (s.reserve.withSet f)) :
    ∃ t, exec (.set [id, hi, lo]) s = .next t ∧ t.set = f s.set ∧
      t.ret = s.ret.answered 0x01 (if k.clamp (ofTwoBytes hi lo) = ofTwoBytes hi lo then .done else .doneClamped)
        (twoBytes (k.clamp (ofTwoBytes hi lo)) ++ [0]) ∧
      s.keeps t [.set, .ret, .image] ∧ s.imageFollows t := by
  obtain ⟨-, hkey, htext⟩ := hq
  refine ⟨_, exec_set_done h hk hu hkey htext, by simp [State.withSet, State.reserve],
    State.reserve_ret_answered (u := s.reserve.withSet f) rfl _ _ _, ?_⟩
  refine State.keeps.ends (l := [.set, .ret]) (fun p hp => ?_) (by decide) (by decide)
  cases p <;> simp_all [State.same, State.withSet, State.reserve, State.answer]

theorem Justify.ofNum_eq (x : Nat) : Justify.ofNum x =
    if x = 0 then .ragged else if x = 1 then .justify else if x = 2 then .center else .flushRight := by
  unfold Justify.ofNum
  split <;> simp_all

theorem Impression.ofNum_eq (x : Nat) : Impression.ofNum x =
    if x = 0 then .light else if x = 1 then .normal else .heavy := by
  unfold Impression.ofNum
  split <;> simp_all

theorem MaskValue.ofNum_eq (x : Nat) : MaskValue.ofNum x = if x = 0 then .halt else .report := by
  unfold MaskValue.ofNum
  split <;> simp_all

theorem marginsConsistent_eq_false {l r : Nat} (h : r < l + 120) : marginsConsistent l r = false :=
  decide_eq_false (Nat.not_le_of_lt h)

/-- Settles O14: each of these settings is stored by `withSet`, and a refusal changes nothing but the report queue. -/
theorem setStoresOrRefuses : Obligations.SetStoresOrRefuses := by
  refine ⟨?_, fun s h => ⟨fun params hp => ?_, fun id hi lo hid => ?_, fun hi lo hm => ?_, fun hi lo hm => ?_⟩⟩
  · intro s hi lo h hq v stores
    refine ⟨exec_set_stores (k := .lineSpacing) h hq rfl rfl, exec_set_stores (k := .pageLength) h hq rfl rfl, ?_,
      exec_set_stores (k := .holdOnMiss) h hq rfl rfl, ?_, exec_set_stores (k := .ribbon) h hq rfl rfl,
      exec_set_stores (k := .correctionOffset) h hq rfl rfl, exec_set_stores (k := .autoReturn) h hq rfl rfl, ?_, ?_, ?_⟩
    · simp only [stores, ← Justify.ofNum_eq]
      exact exec_set_stores (k := .justify) h hq rfl rfl
    · simp only [stores, ← Impression.ofNum_eq]
      exact exec_set_stores (k := .impression) h hq rfl rfl
    · simp only [stores, ← MaskValue.ofNum_eq]
      exact exec_set_stores (k := .maskOpenLoad) h hq rfl rfl
    · simp only [stores, ← MaskValue.ofNum_eq]
      exact exec_set_stores (k := .maskHomeNotFound) h hq rfl rfl
    · simp only [stores, ← MaskValue.ofNum_eq]
      exact exec_set_stores (k := .maskIndexLost) h hq rfl rfl
  · exact exec_replies h (by decide) rfl nofun (command_badLength _ (n := 3) _ (by simp) hp)
  · refine exec_replies h (by decide) rfl nofun ?_
    have hnone : Setting.ofId id.toNat = none := by
      unfold Setting.ofId
      split <;> first | omega | rfl
    rw [State.command_set, State.cmdSet, hnone]
  · refine exec_set_inconsistent (k := .leftMargin) h rfl ?_
    have hno : marginsConsistent (Setting.leftMargin.clamp (ofTwoBytes hi lo)) s.comp.comingRight = false :=
      marginsConsistent_eq_false (by simpa [Setting.clamp, Setting.range, Composer.comingRight, leftMax] using hm)
    exact if_neg (by rw [show s.reserve.comp = s.comp from rfl, hno]; decide)
  · refine exec_set_inconsistent (k := .rightMargin) h rfl ?_
    have hno : marginsConsistent s.comp.comingLeft (Setting.rightMargin.clamp (ofTwoBytes hi lo)) = false :=
      marginsConsistent_eq_false (by simpa [Setting.clamp, Setting.range, Composer.comingLeft, rightMax] using hm)
    exact if_neg (by rw [show s.reserve.comp = s.comp from rfl, hno]; decide)

/-! ### The line settings (R25 to R27) -/

theorem Composer.modeInEffect_local {c : Composer} (h : c.source = .localKeys) : c.modeInEffect = c.mode := by
  rw [Composer.modeInEffect, h]

theorem Composer.modeInEffect_line {c : Composer} (h : c.modeInEffect = .line) : c.source = .localKeys ∧ c.mode = .line := by
  unfold Composer.modeInEffect at h
  split at h
  · cases h
  case h_2 hsource => exact ⟨hsource, h⟩

/-- LINE entered from DIRECT starts with an empty composition (R39). -/
theorem Composer.applyPending_recs_nil {c : Composer} {j : Justify} (h : (c.applyPending j).modeInEffect = .line)
    (hwas : c.modeInEffect = .direct) : (c.applyPending j).recs = [] := by
  revert h
  unfold Composer.applyPending
  rw [hwas]
  dsimp only
  split_ifs <;> split <;> simp_all [Composer.modeInEffect]

/-- Going over to another mode in effect leaves no records whose word references could change. -/
theorem State.reachBoundary_comp (s : State) : s.reachBoundary.comp = s.comp.applyPending s.set.justify := by
  unfold State.reachBoundary
  dsimp only
  split
  case isFalse => rfl
  case isTrue hchange =>
    generalize hc : s.comp.applyPending s.set.justify = c at hchange ⊢
    set t : State := { s with comp := c, disp := { s.disp with window := 0 } } with ht
    obtain ⟨-, hrecs, -, hcomp⟩ := t.respell_text
    cases hmode : c.modeInEffect with
    | direct => exact t.respell_other.1 hmode
    | line =>
      have hwas : s.comp.modeInEffect = .direct := by
        cases hbefore : s.comp.modeInEffect with
        | direct => rfl
        | line =>
          obtain ⟨hsource, -⟩ := Composer.modeInEffect_line hmode
          obtain ⟨hsource', -⟩ := Composer.modeInEffect_line hbefore
          rw [hsource, hsource', hmode, hbefore] at hchange
          exact absurd hchange (by decide)
      have hnil : c.recs = [] := hc ▸ Composer.applyPending_recs_nil (hc ▸ hmode) hwas
      have hnone : t.respell.comp.recs = [] := by
        rw [ht, hnil] at hrecs
        simpa [plainRecs] using hrecs
      rw [hcomp, hnone, ← hnil]

theorem State.reachBoundary_window (s : State) : s.reachBoundary.disp = { s.disp with window := 0 } := by
  unfold State.reachBoundary
  dsimp only
  split
  · simp
  · rfl

/-- A line boundary changes no more of the text than the word references, and raises no counter but CHECKS_DROPPED. -/
theorem State.reachBoundary_text (s : State) :
    plain s.reachBoundary.line.entries = plain s.line.entries ∧
      ∀ k, k ≠ Counter.checksDropped → s.reachBoundary.ctr.get k = s.ctr.get k := by
  unfold State.reachBoundary
  dsimp only
  split
  · exact ⟨(State.respell_text _).1, fun k hk => State.respell_get _ hk⟩
  · exact ⟨rfl, fun _ _ => rfl⟩

theorem Composer.applyPending_waits (c : Composer) (j : Justify) :
    (c.applyPending j).keyWait = c.keyWait ∧ (c.textWait = none → (c.applyPending j).textWait = none) := by
  unfold Composer.applyPending
  dsimp only
  split_ifs <;> split <;> simp

theorem State.keeps_reachBoundary (s : State) : s.keeps s.reachBoundary [.comp, .line, .ctr, .spell, .window] := by
  intro p hp
  cases p <;> simp_all [State.same, State.reachBoundary_window]

section LineSettings

variable {id hi lo : Byte} {k : Setting} {v : LineValue} (h : s.commandReady) (hq : s.quiet)
  (hk : Setting.ofId id.toNat = some k)
  (hv : s.reserve.applySetting (k.clamp (ofTwoBytes hi lo)) k = s.reserve.applyLine v)
include h hq hk hv

/-- The reply to SET of a line setting (R181). -/
def State.lineReply (s : State) (x n : Nat) (o : CmdOutcome) (later : Byte) : ReturnLine :=
  s.ret.answered 0x01 (if x = n then o else .doneClamped) (twoBytes x ++ [later])

theorem exec_set_enters (hb : s.atBoundary = false) (hf : v.inForce s.comp = false) :
    ∃ t, exec (.set [id, hi, lo]) s = .next t ∧ t.comp = { s.comp with later := s.comp.later.enter v } ∧
      t.ret = s.lineReply (k.clamp (ofTwoBytes hi lo)) (ofTwoBytes hi lo) .donePending 1 ∧
      s.keeps t [.comp, .ret, .image] ∧ s.imageFollows t := by
  obtain ⟨-, hkey, htext⟩ := hq
  set u : State := { s.reserve with comp := { s.comp with later := s.comp.later.enter v } } with hu
  have hset : s.reserve.setLine v = (u, true) := by
    rw [State.setLine, if_neg (by rw [show s.reserve.atBoundary = s.atBoundary from rfl, hb]; decide),
      if_neg (by rw [show s.reserve.comp = s.comp from rfl, hf]; decide)]
    rfl
  have hlater : s.reserve.applySetting (k.clamp (ofTwoBytes hi lo)) k = .later u := by
    rw [hv, State.applyLine, hset, if_pos rfl]
  refine ⟨_, exec_set_later h hk hlater hkey htext, by simp [hu], State.reserve_ret_answered (u := u) rfl _ _ _,
    State.keeps.ends (l := [.comp, .ret]) (fun p hp => ?_) (by decide) (by decide)⟩
  cases p <;> simp_all [State.same, State.reserve, State.answer]

theorem exec_set_removes (hb : s.atBoundary = false) (hf : v.inForce s.comp = true) :
    ∃ t, exec (.set [id, hi, lo]) s = .next t ∧ t.comp = { s.comp with later := s.comp.later.remove v } ∧
      t.ret = s.lineReply (k.clamp (ofTwoBytes hi lo)) (ofTwoBytes hi lo) .done 0 ∧
      s.keeps t [.comp, .ret, .image] ∧ s.imageFollows t := by
  obtain ⟨-, hkey, htext⟩ := hq
  set u : State := { s.reserve with comp := { s.comp with later := s.comp.later.remove v } } with hu
  have hset : s.reserve.setLine v = (u, false) := by
    rw [State.setLine, if_neg (by rw [show s.reserve.atBoundary = s.atBoundary from rfl, hb]; decide),
      if_pos (by rw [show s.reserve.comp = s.comp from rfl, hf])]
    rfl
  have hdone : s.reserve.applySetting (k.clamp (ofTwoBytes hi lo)) k = .done u := by
    rw [hv, State.applyLine, hset, if_neg Bool.false_ne_true]
  refine ⟨_, exec_set_done h hk hdone hkey htext, by simp [hu], State.reserve_ret_answered (u := u) rfl _ _ _,
    State.keeps.ends (l := [.comp, .ret]) (fun p hp => ?_) (by decide) (by decide)⟩
  cases p <;> simp_all [State.same, State.reserve, State.answer]

theorem exec_set_at_boundary (hb : s.atBoundary = true) :
    ∃ t, exec (.set [id, hi, lo]) s = .next t ∧
      t.comp = ({ s.comp with later := s.comp.later.enter v } : Composer).applyPending s.set.justify ∧
      t.disp.window = 0 ∧ t.ret = s.lineReply (k.clamp (ofTwoBytes hi lo)) (ofTwoBytes hi lo) .done 0 ∧
      plain t.line.entries = plain s.line.entries ∧ (∀ k, k ≠ Counter.checksDropped → t.ctr.get k = s.ctr.get k) ∧
      s.keeps t [.comp, .line, .ret, .ctr, .spell, .window, .image] ∧ s.imageFollows t := by
  obtain ⟨-, hkey, htext⟩ := hq
  set w : State := { s.reserve with comp := { s.comp with later := s.comp.later.enter v } } with hw
  have hset : s.reserve.setLine v = (w.reachBoundary, false) := by
    rw [State.setLine, if_pos (by rw [show s.reserve.atBoundary = s.atBoundary from rfl, hb])]
    rfl
  have hdone : s.reserve.applySetting (k.clamp (ofTwoBytes hi lo)) k = .done w.reachBoundary := by
    rw [hv, State.applyLine, hset, if_neg Bool.false_ne_true]
  have hwaits := w.comp.applyPending_waits w.set.justify
  rw [← w.reachBoundary_comp] at hwaits
  have hwindow : s.keeps w [.comp, .ret] := by
    intro p hp
    cases p <;> simp_all [State.same, State.reserve]
  have hkeeps : s.keeps w.reachBoundary [.comp, .line, .ret, .ctr, .spell, .window] :=
    State.keeps_trans (State.keeps_mono hwindow (by decide)) (State.keeps_mono w.keeps_reachBoundary (by decide))
  have hanswer (o : CmdOutcome) (data : List Byte) : w.reachBoundary.keeps (w.reachBoundary.answer 0x01 o data) [.ret] := by
    intro p hp
    cases p <;> simp_all [State.same]
  have htextual := w.reachBoundary_text
  refine ⟨_, exec_set_done h hk hdone (hwaits.1.trans hkey) (hwaits.2 htext), ?_, ?_,
    State.reserve_ret_answered (u := w.reachBoundary) (by simp [hw]) _ _ _, ?_, fun c hc => ?_,
    State.keeps.ends (State.keeps_trans hkeeps (State.keeps_mono (hanswer _ _) (by decide))) (by decide) (by decide)⟩
  · simp only [State.formImage_frame, State.answer_frame]
    exact w.reachBoundary_comp
  · simp [State.reachBoundary_window]
  · simp only [State.formImage_frame, State.answer_frame]
    exact htextual.1
  · simp only [State.formImage_frame, State.answer_frame]
    exact htextual.2 c hc

end LineSettings

theorem Pitch.ofNum_eq (x : Nat) : Pitch.ofNum x =
    if x = 0 then .p10 else if x = 1 then .p12 else if x = 2 then .p15 else .ps := by
  unfold Pitch.ofNum
  split <;> simp_all

/-- Settles O15: each of the five settings is one value of a line setting, entered, removed or put in force. -/
theorem setLineSettingWaitsForTheBoundary : Obligations.SetLineSettingWaitsForTheBoundary := by
  intro s hi lo h hq v p replied becomes
  have hbecomes {id : Byte} {k : Setting} {c : LineValue} {x : Nat} {inForce : Prop} {enter remove : PendingLine}
      (hk : Setting.ofId id.toNat = some k) (hx : k.clamp v = x)
      (hv : s.reserve.applySetting (k.clamp v) k = s.reserve.applyLine c)
      (hf : c.inForce s.comp = true ↔ inForce) (he : p.enter c = enter) (hr : p.remove c = remove) :
      becomes id x inForce enter remove := by
    subst hx he hr
    refine ⟨fun hb hno => ?_, fun hb hyes => ?_, fun hb => exec_set_at_boundary h hq hk hv hb⟩
    · exact exec_set_enters h hq hk hv hb (Bool.eq_false_iff.mpr (mt hf.mp hno))
    · exact exec_set_removes h hq hk hv hb (hf.mpr hyes)
  have hlow (n : Nat) : max 0 (min n v) = min n v := Nat.max_eq_right (Nat.zero_le _)
  have hzero (n : Nat) (hn : 0 < n) : (max 0 (min n v) = 0) = (v = 0) := by
    rw [hlow]
    exact propext (by omega)
  refine ⟨?_, ?_, ?_, fun hm => ?_, fun hm => ?_⟩
  · intro m
    refine hbecomes (k := .mode) (c := .mode m) rfl (hlow 1) ?_ (decide_eq_true_iff.trans eq_comm) rfl rfl
    simp only [State.applySetting, Setting.clamp, Setting.range, hzero 1 (by decide), m]
  · intro m
    refine hbecomes (k := .source) (c := .source m) rfl (hlow 1) ?_ (decide_eq_true_iff.trans eq_comm) rfl rfl
    simp only [State.applySetting, Setting.clamp, Setting.range, hzero 1 (by decide), m]
  · intro m
    refine hbecomes (k := .pitch) (c := .pitch m) rfl (hlow 3) ?_ (decide_eq_true_iff.trans eq_comm) rfl rfl
    have hpitch : Pitch.ofNum (max 0 (min 3 v)) = m := by
      rw [Pitch.ofNum_eq, hlow]
      simp only [m]
      split_ifs <;> first | rfl | omega
    simp only [State.applySetting, Setting.clamp, Setting.range, hpitch]
  · refine hbecomes (k := .leftMargin) (c := .left _) rfl (hlow 1439) ?_ (decide_eq_true_iff.trans eq_comm) rfl rfl
    have hfits : marginsConsistent (Setting.leftMargin.clamp v) s.reserve.comp.comingRight = true := by
      rw [show Setting.leftMargin.clamp v = min 1439 v from hlow 1439]
      exact decide_eq_true hm
    rw [State.applySetting, if_pos hfits]
    exact congrArg (fun x => s.reserve.applyLine (.left x)) (hlow 1439)
  · refine hbecomes (k := .rightMargin) (c := .right _) rfl (hlow 1559) ?_ (decide_eq_true_iff.trans eq_comm) rfl rfl
    have hfits : marginsConsistent s.reserve.comp.comingLeft (Setting.rightMargin.clamp v) = true := by
      rw [show Setting.rightMargin.clamp v = min 1559 v from hlow 1559]
      exact decide_eq_true hm
    rw [State.applySetting, if_pos hfits]
    exact congrArg (fun x => s.reserve.applyLine (.right x)) (hlow 1559)

end Sys2Proof.Machine
end

section
/-! PROOF of O16, O18, O19, O20 and O21. What the table, tab and user word commands do: the judgements in their order, and where
no reader is concerned, the directory alone changes. -/

namespace Sys2Proof.Machine

variable {s t u : State}

/-! ### Active tables that stand (R166) -/

theorem indexWhere_congr {α β : Type} {p : α → Bool} {q : β → Bool} {l : List α} {m : List β}
    (h : l.map p = m.map q) : indexWhere p l = indexWhere q m := by
  induction l generalizing m with
  | nil => cases m <;> simp_all [indexWhere]
  | cons a l ih =>
    match m, h with
    | b :: m, h =>
      obtain ⟨hab, hlm⟩ := List.cons.inj h
      rw [indexWhere, indexWhere, hab, ih hlm]

theorem map_setAt {α β : Type} (f : α → β) (l : List α) (i : Nat) (v : α) :
    (setAt l i v).map f = setAt (l.map f) i (f v) := by
  rw [setAt_eq_set, setAt_eq_set, List.map_set]

theorem setAt_getElem {α : Type} {l : List α} {i : Nat} {v : α} (h : ∀ hi : i < l.length, l[i] = v) : setAt l i v = l := by
  rw [setAt_eq_set]
  by_cases hi : i < l.length
  · rw [← h hi, List.set_getElem_self]
  · exact List.set_eq_of_length_le (Nat.le_of_not_lt hi)

/-- A slot replaced, neither before nor after it the SEALED one of a kind and key. -/
theorem findSealed_setAt {l : List Slot} {i : Nat} {v : Slot} {k : TableKind} {key : Nat}
    (hv : ¬(v.state = .sealed ∧ v.kind = k ∧ v.key = key))
    (hi : ¬((slotAt l i).state = .sealed ∧ (slotAt l i).kind = k ∧ (slotAt l i).key = key)) :
    findSealed (setAt l i v) k key = findSealed l k key := by
  refine indexWhere_congr ?_
  rw [map_setAt]
  refine setAt_getElem fun hlt => ?_
  rw [List.length_map] at hlt
  rw [slotAt_of_lt hlt] at hi
  rw [List.getElem_map]
  have hfalse {d : Slot} (hd : ¬(d.state = .sealed ∧ d.kind = k ∧ d.key = key)) :
      (d.state = .sealed && d.kind = k && d.key = key) = false := by
    simpa [and_assoc] using hd
  rw [hfalse hi, hfalse hv]

/-- The readers that go on as they are: no active table has changed, and no wheel is waited for. -/
theorem State.readersAct_of_same (hs : u.seq.state ≠ .wheelWait) (hk : u.active .keyMap = s.active .keyMap)
    (hl : u.active .lexicon = s.active .lexicon) : s.readersAct u = u := by
  have hjudge : u.rejudge = u := if_neg hs
  rw [State.readersAct, hjudge, if_pos hk, if_pos hl]

/-! ### What a command leaves unchanged once answered -/

theorem State.keeps_answer (s : State) (code : Byte) (o : CmdOutcome) (data : List Byte) :
    s.keeps (s.answer code o data) [.ret] := by
  intro p hp
  cases p <;> simp_all [State.same]

theorem State.keeps_reserve (s : State) : s.keeps s.reserve [.ret] := by
  intro p hp
  cases p <;> simp_all [State.same, State.reserve]

/-- An operation from the state with its place reserved, answered and followed by the image. -/
theorem State.answered_ends {l : List Part} (h : s.reserve.keeps u l) (hi : .image ∉ l) {m : List Part}
    (hm : .image :: .ret :: l ⊆ m) (code : Byte) (o : CmdOutcome) (data : List Byte) :
    s.keeps (u.answer code o data).formImage m ∧ s.imageFollows (u.answer code o data).formImage := by
  have hreserve := State.keeps_mono s.keeps_reserve (List.cons_subset_cons Part.ret (List.nil_subset l))
  have hl := State.keeps_mono h (List.subset_cons_self Part.ret l)
  have hanswer := State.keeps_mono (u.keeps_answer code o data) (List.cons_subset_cons Part.ret (List.nil_subset l))
  exact State.keeps.ends (State.keeps_trans (State.keeps_trans hreserve hl) hanswer) (by simpa using hi) hm

/-! ### TABLE_OPEN (R156, R157) -/

/-- A change of the directory that concerns no reader. -/
theorem State.withSlots_settles {l : List Slot} (hw : s.seq.state ≠ .wheelWait)
    (hk : ∀ k, (s.withSlots l).active k = s.active k) (hkey : s.comp.keyWait = none) (htext : s.comp.textWait = none)
    (code : Byte) (o : CmdOutcome) (data : List Byte) :
    ((s.readersAct (s.withSlots l)).settle s).answer code o data =
      ((s.withSlots l).answer code o data).formImage := by
  have hacts : s.readersAct (s.withSlots l) = s.withSlots l := State.readersAct_of_same hw (hk _) (hk _)
  rw [hacts, State.settle_answer (u := s.withSlots l) hkey htext]

theorem State.withSlots_ends {l : List Slot} (hw : s.seq.state ≠ .wheelWait)
    (hk : ∀ k, (s.reserve.withSlots l).active k = s.active k) (hq : s.quiet) (code : Byte) (o : CmdOutcome)
    (data : List Byte) :
    ∃ t, ((s.reserve.readersAct (s.reserve.withSlots l)).settle s.reserve).answer code o data = t ∧
      t.tab.slots = l ∧ t.ret = s.ret.answered code o data ∧ s.keeps t [.slots, .ret, .image] ∧ s.imageFollows t := by
  obtain ⟨-, hkey, htext⟩ := hq
  refine ⟨_, State.withSlots_settles (s := s.reserve) hw hk hkey htext _ _ _, by simp [State.withSlots],
    State.reserve_ret_answered (u := s.reserve.withSlots l) rfl _ _ _,
    State.answered_ends (l := [.slots]) (fun p hp => ?_) (by decide) (by decide) _ _ _⟩
  cases p <;> simp_all [State.same, State.withSlots]

theorem TableKind.ofNum_num (k : TableKind) : TableKind.ofNum k.num = some k := by
  cases k <;> rfl

theorem TableKind.ofNum_none {n : Nat} (h : 2 < n) : TableKind.ofNum n = none := by
  unfold TableKind.ofNum
  split <;> first | omega | rfl

theorem State.cmdTableOpen_legal {slot kind key hi lo : Byte} {k : TableKind} (hi12 : slot.toNat < 12)
    (hk : kind.toNat = k.num) (hkey : key.toNat ≤ k.maxKey) (hpos : 0 < ofTwoBytes hi lo) (hmax : ofTwoBytes hi lo ≤ 4096) :
    s.cmdTableOpen [slot, kind, key, hi, lo] = s.openSlot slot.toNat k key.toNat (ofTwoBytes hi lo) := by
  rw [State.cmdTableOpen, if_neg (show ¬slotCount ≤ slot.toNat from hi12.not_ge), hk, TableKind.ofNum_num]
  dsimp only
  have hcount : ¬(ofTwoBytes hi lo = 0 ∨ segmentCount < ofTwoBytes hi lo) := not_or.mpr ⟨hpos.ne', hmax.not_gt⟩
  rw [if_neg hkey.not_gt, if_neg hcount]

theorem State.cmdTableOpen_badContent {slot kind key hi lo : Byte} (hi12 : slot.toNat < 12)
    (h : 2 < kind.toNat ∨ (kind = 0 ∧ 63 < key.toNat) ∨ (kind ≠ 0 ∧ 7 < key.toNat) ∨ ofTwoBytes hi lo = 0 ∨
      4096 < ofTwoBytes hi lo) :
    s.cmdTableOpen [slot, kind, key, hi, lo] = s.answer 0x03 .badContent [] := by
  rw [State.cmdTableOpen, if_neg (show ¬slotCount ≤ slot.toNat from hi12.not_ge)]
  split
  · rfl
  case h_2 k hk =>
    have hmax : k.maxKey = if kind = 0 then 63 else 7 := by
      by_cases h0 : kind = 0
      · subst h0
        cases hk
        rfl
      · have hne : kind.toNat ≠ 0 := fun hz => h0 (BitVec.eq_of_toNat_eq hz)
        rw [if_neg h0]
        unfold TableKind.ofNum at hk
        split at hk <;> cases hk <;> first | rfl | contradiction
    split
    · rfl
    case isFalse hkey =>
      rw [hmax] at hkey
      rcases h with h | ⟨h0, h⟩ | ⟨h0, h⟩ | h
      · rw [TableKind.ofNum_none h] at hk
        cases hk
      · rw [if_pos h0] at hkey
        exact absurd h hkey
      · rw [if_neg h0] at hkey
        exact absurd h hkey
      · exact if_pos h

theorem State.openSlot_noRoom {i : Nat} {k : TableKind} {key count : Nat}
    (hno : ¬((slotAt s.tab.slots i).state = .sealed ∧ (slotAt s.tab.slots i).guarded = true))
    (hfit : lowestFit (otherRuns s.tab.slots i) count = none) :
    s.openSlot i k key count = s.answer 0x03 .noRoom (twoBytes (longestFree (otherRuns s.tab.slots i))) := by
  rw [State.openSlot, if_neg hno, hfit]

theorem State.openSlot_fits {i : Nat} {k : TableKind} {key count first : Nat}
    (hno : ¬((slotAt s.tab.slots i).state = .sealed ∧ (slotAt s.tab.slots i).guarded = true))
    (hfit : lowestFit (otherRuns s.tab.slots i) count = some first) :
    s.openSlot i k key count =
      ((s.readersAct (s.withSlots (setAt s.tab.slots i (Slot.opened k key first count)))).settle s).answer 0x03 .done
        (twoBytes first) := by
  rw [State.openSlot, if_neg hno, hfit]

/-- Settles O16: the checks of the parameters in their order, then the lowest run that fits. -/
theorem tableOpenAllocatesTheLowestRun : Obligations.TableOpenAllocatesTheLowestRun := by
  refine ⟨fun s params h hp => ?_, ?_⟩
  · exact exec_replies h (by decide) rfl nofun (command_badLength _ (n := 5) _ (by simp) hp)
  intro s slot kind key hi lo h hq i n others replies
  have hreplies {o : CmdOutcome} {data : List Byte}
      (hc : s.reserve.cmdTableOpen [slot, kind, key, hi, lo] = s.reserve.answer 0x03 o data) : replies o data :=
    exec_replies h (by decide) rfl nofun hc
  refine ⟨fun hi12 => hreplies (if_pos hi12), fun hi12 hbad => hreplies (State.cmdTableOpen_badContent hi12 hbad), ?_⟩
  intro k hi12 hk hkey hpos hmax
  have hopen := State.cmdTableOpen_legal (s := s.reserve) hi12 hk hkey hpos hmax
  refine ⟨fun hst hg => hreplies (hopen.trans (if_pos ⟨hst, hg⟩)),
    fun hno hfit => hreplies (hopen.trans (State.openSlot_noRoom (s := s.reserve) hno hfit)), ?_⟩
  intro first hwheel hfit hd
  have hno : ¬((slotAt s.tab.slots i).state = .sealed ∧ (slotAt s.tab.slots i).guarded = true) := fun ⟨hst, hg⟩ =>
    absurd ((hd hst).1.symm.trans hg) (by decide)
  have hactive (k' : TableKind) :
      (s.reserve.withSlots (setAt s.tab.slots i (Slot.opened k key.toNat first n))).active k' = s.active k' := by
    refine findSealed_setAt (by simp [Slot.opened]) ?_
    rintro ⟨hst, hkind, hkey'⟩
    exact (hd hst).2 (hkind ▸ hkey')
  obtain ⟨t, ht, hends⟩ := State.withSlots_ends hwheel hactive hq 0x03 .done (twoBytes first)
  refine ⟨t, ?_, hends⟩
  refine (exec_command (i := .tableOpen _) h (by decide) rfl nofun).trans (congrArg _ ?_)
  rw [← ht]
  exact hopen.trans (State.openSlot_fits (s := s.reserve) hno hfit)

/-! ### TABLE_DROP (R165) -/

/-- Settles O19: the slot is EMPTY after it, and where it held no active table no reader is concerned. -/
theorem tableDropEmptiesTheSlot : Obligations.TableDropEmptiesTheSlot := by
  intro s h hq
  refine ⟨fun params hp => ?_, fun slot hslot => ?_, fun slot hslot hwheel hd => ?_⟩
  · exact exec_replies h (by decide) rfl nofun (command_badLength _ (n := 1) _ (by simp) hp)
  · exact exec_replies h (by decide) rfl nofun (if_pos hslot)
  · have hactive (k : TableKind) :
        (s.reserve.withSlots (setAt s.tab.slots slot.toNat Slot.emptySlot)).active k = s.active k := by
      refine findSealed_setAt (by simp [Slot.emptySlot]) ?_
      rintro ⟨hst, hkind, hkey⟩
      exact hd ⟨hst, hkind ▸ hkey⟩
    obtain ⟨t, ht, hends⟩ := State.withSlots_ends hwheel hactive hq 0x06 .done
      [byteOf (slotAt s.tab.slots slot.toNat).state.num]
    refine ⟨t, ?_, hends⟩
    refine (exec_command (i := .tableDrop _) h (by decide) rfl nofun).trans (congrArg _ ?_)
    rw [← ht]
    exact if_neg (show ¬slotCount ≤ slot.toNat from hslot.not_ge)

/-! ### Sealing (R160 to R162) -/

theorem exec_sealComplete (hrun : s.resetHeld = false) (hr : runsInside s.tab.slots = true) :
    exec .sealComplete s = .next s.sealDone :=
  liveTables_of_running hrun hr State.sealDone

/-- Sealing a table that is not of a kind and key leaves the SEALED one of that kind and key (R162). -/
theorem findSealed_sealSlots {l : List Slot} {i : Nat} {k : TableKind} {key : Nat} (ho : (slotAt l i).state = .opened)
    (hd : ¬((slotAt l i).kind = k ∧ (slotAt l i).key = key)) (check : Word) (guarded : Bool) :
    findSealed (sealSlots l i check guarded) k key = findSealed l k key := by
  have hcleared (e : Slot) : ((slotAt l i).clearedFor e).state = .sealed ∧ ((slotAt l i).clearedFor e).kind = k ∧
      ((slotAt l i).clearedFor e).key = key ↔ e.state = .sealed ∧ e.kind = k ∧ e.key = key := by
    unfold Slot.clearedFor
    split
    case isTrue he => exact ⟨fun h => absurd h.1 (by decide), fun h => absurd ⟨he.2.1 ▸ h.2.1, he.2.2 ▸ h.2.2⟩ hd⟩
    case isFalse => exact Iff.rfl
  have hmap : findSealed (l.map (slotAt l i).clearedFor) k key = findSealed l k key := by
    refine indexWhere_congr ?_
    rw [List.map_map]
    refine List.map_congr_left fun e _ => ?_
    rw [Bool.eq_iff_iff]
    simp only [Function.comp_apply, Bool.and_eq_true, decide_eq_true_eq, and_assoc]
    exact hcleared e
  rw [← hmap]
  refine findSealed_setAt (fun h => hd h.2) fun h => ?_
  have hi : i < l.length := slotAt_lt (by simp [ho])
  have hat : slotAt (l.map (slotAt l i).clearedFor) i = (slotAt l i).clearedFor (slotAt l i) := by
    rw [slotAt_of_lt (by simpa using hi), List.getElem_map, ← slotAt_of_lt hi]
  have hst := ((hcleared _).mp (hat ▸ h)).1
  rw [ho] at hst
  cases hst

theorem State.sealDone_of_valid {e : Seal} (he : s.tab.sealing = some e)
    (hc : e.tableCheck s.tab.mem (slotAt s.tab.slots e.slot) = e.check)
    (hv : validateTable s.tab.mem (slotAt s.tab.slots e.slot) = none) :
    s.sealDone = State.sealSucceeds { s with tab := { s.tab with sealing := none } } e
      (e.tableCheck s.tab.mem (slotAt s.tab.slots e.slot)) := by
  rw [State.sealDone, he]
  dsimp only
  rw [if_neg (not_not.mpr hc), hv]

/-- The table sealed is not the one its readers select. -/
theorem State.sealSucceeds_of_unselected {e : Seal} {check : Word}
    (h : (slotAt s.tab.slots e.slot).key ≠ s.selection (slotAt s.tab.slots e.slot).kind) :
    s.sealSucceeds e check = ((s.readersAct (s.withSlots (sealSlots s.tab.slots e.slot check e.guarded))).settle s).answer
      0x05 .done (twoBytes check.toNat) := by
  rw [State.sealSucceeds, if_neg h]

/-- Settles O18: the checks of the command in their order, the seal's own start, and the judgements at its end. -/
theorem sealChecksAndSealsTheTable : Obligations.SealChecksAndSealsTheTable := by
  refine ⟨?_, ?_⟩
  · intro s slot hi lo guarded h d un replies
    have hreplies {o : CmdOutcome} {data : List Byte}
        (hc : s.reserve.cmdTableSeal [slot, hi, lo, guarded] = s.reserve.answer 0x05 o data) : replies o data :=
      exec_replies h (by decide) rfl nofun hc
    refine ⟨fun params hp => ?_, fun h12 => hreplies (if_pos h12), fun h12 ho => hreplies ?_,
      fun h12 ho hun => hreplies ?_, fun h12 ho hun => ?_⟩
    · exact exec_replies h (by decide) rfl nofun (command_badLength _ (n := 4) _ (by simp) hp)
    · exact (if_neg h12.not_ge).trans (if_pos ho)
    · exact (if_neg h12.not_ge).trans ((if_neg (not_not.mpr ho)).trans (if_pos hun))
    · refine (exec_command (i := .tableSeal _) h (by decide) rfl nofun).trans (congrArg _ ?_)
      exact (if_neg h12.not_ge).trans ((if_neg (not_not.mpr ho)).trans (if_neg (not_not.mpr hun)))
  · intro s e hq hr hfollows he d check ends
    have hdone : exec .sealComplete s = .next s.sealDone := exec_sealComplete hq.1 hr
    have hcheck : e.tableCheck s.tab.mem d = check := Seal.tableCheck_eq hfollows he
    refine ⟨fun hne => ?_, fun off heq hoff => ?_, fun heq hvalid hkey ho hwheel => ?_⟩
    · refine hdone.trans (congrArg _ ?_)
      rw [State.sealDone, he]
      dsimp only
      rw [hcheck, if_pos hne]
      rfl
    · refine hdone.trans (congrArg _ ?_)
      rw [State.sealDone, he]
      dsimp only
      rw [hcheck, if_neg (not_not.mpr heq), hoff]
      rfl
    · set p : State := { s with tab := { s.tab with sealing := none } } with hp
      set l := sealSlots s.tab.slots e.slot check e.guarded
      have hactive (k : TableKind) : (p.withSlots l).active k = p.active k :=
        findSealed_sealSlots ho (fun ⟨hkind, hk⟩ => hkey (hk.trans (congrArg s.selection hkind.symm))) _ _
      have hseals : s.sealDone = ((p.withSlots l).answer 0x05 .done (twoBytes check.toNat)).formImage := by
        rw [State.sealDone_of_valid he (hcheck.trans heq) hvalid, hcheck, State.sealSucceeds_of_unselected (s := p) hkey]
        exact State.withSlots_settles (s := p) hwheel hactive hq.2.1 hq.2.2 _ _ _
      refine ⟨_, hdone.trans (congrArg _ hseals), by simp [hp, State.withSlots],
        by simp only [State.formImage_frame, State.answer_frame]; rfl, by simp [State.answer, State.withSlots, hp],
        State.keeps.ends (l := [.slots, .sealing, .ret]) (fun q hq => ?_) (by decide) (by decide)⟩
      cases q <;> simp_all [State.same, State.answer, State.withSlots]

end Sys2Proof.Machine
end

section
/-! PROOF of O20 and O21. The tab stops and the user words: a change that leaves the composition within its limits, or that
keeps the list, is made and answered; every other is turned away. -/

namespace Sys2Proof.Machine

variable {s t u : State}

/-! ### The guard of the composition (R45) -/

/-- The logical position that follows the cursor in LINE and stands in DIRECT (R39). -/
def State.followed (s : State) : Nat := if s.comp.modeInEffect = .line then s.cursorPosition else s.comp.logical

theorem State.syncCursor_eq (s : State) : s.syncCursor = { s with comp := { s.comp with logical := s.followed } } := by
  unfold State.syncCursor State.followed
  cases s.comp.modeInEffect <;> rfl

theorem State.changeTabs_of_fits {tabs : List TabStop} {u : State} (hu : u = { s with comp := { s.comp with tabs := tabs } })
    (h : u.fits s.comp.recs = true) :
    s.changeTabs tabs = some { s with comp := { s.comp with tabs := tabs, logical := u.followed } } := by
  subst hu
  rw [State.changeTabs]
  dsimp only
  rw [if_pos h, State.syncCursor_eq]

theorem State.changeTabs_of_not_fits {tabs : List TabStop}
    (h : State.fits { s with comp := { s.comp with tabs := tabs } } s.comp.recs = false) : s.changeTabs tabs = none :=
  if_neg (by rw [h]; decide)

/-- A command that ends its step before its answer, with no item waiting. -/
theorem exec_settles {i : Instr} {code : Byte} {p : List Byte} {o : CmdOutcome} {data : List Byte} (h : s.commandReady)
    (hw : code ≠ 0x04) (hp : payloadOf i = some (code, p)) (hpaper : ∀ q, i ≠ .resume q)
    (hkey : u.comp.keyWait = none) (htext : u.comp.textWait = none)
    (hc : s.reserve.command code p true = (u.settle s.reserve).answer code o data) :
    exec i s = .next (u.answer code o data).formImage := by
  rw [exec_command h hw hp hpaper, hc, State.settle_answer hkey htext]

theorem hasStop_iff (l : List TabStop) (x : Nat) : hasStop l x = true ↔ ∃ u ∈ l, u.pos = x := by
  simp [hasStop]

theorem hasStop_eq_false {l : List TabStop} {x : Nat} (h : ∀ u ∈ l, u.pos ≠ x) : hasStop l x = false := by
  rw [Bool.eq_false_iff, ne_eq, hasStop_iff]
  rintro ⟨u, hu, hx⟩
  exact h u hu hx

theorem State.setDecimal_of_fits {v : Bool} {u : State} (hu : u = { s with set := { s.set with decimalComma := v } })
    (h : u.fits s.comp.recs = true) :
    s.setDecimal v = some { s with
      set := { s.set with decimalComma := v }, comp := { s.comp with logical := u.followed } } := by
  subst hu
  rw [State.setDecimal]
  exact (if_pos h).trans (congrArg some (State.syncCursor_eq _))

theorem State.setDecimal_of_not_fits {v : Bool}
    (h : State.fits { s with set := { s.set with decimalComma := v } } s.comp.recs = false) : s.setDecimal v = none :=
  if_neg (by rw [State.withSet, h]; decide)

/-- Settles O20: a change of the tab stops, or of the decimal character, is made where the composition fits it. -/
theorem tabCommandsKeepTheGuard : Obligations.TabCommandsKeepTheGuard := by
  intro s h hq replies moved changes
  obtain ⟨-, hkey, htext⟩ := hq
  have hchanges {i : Instr} {code : Byte} {p : List Byte} {tabs : List TabStop} (hw : code ≠ 0x04)
      (hp : payloadOf i = some (code, p)) (hpaper : ∀ q, i ≠ .resume q)
      (hc : s.reserve.command code p true = s.reserve.commandTabs code tabs) : changes i code tabs := by
    refine ⟨fun hfits => ?_, fun hno => ?_⟩
    · have hset := State.changeTabs_of_fits (s := s.reserve) rfl hfits
      set v : State := { s.reserve with comp := { s.comp with
        tabs := tabs, logical := moved { s with comp := { s.comp with tabs := tabs } } } } with hv
      have hdone : s.reserve.command code p true = (v.settle s.reserve).answer code .done [] := by
        rw [hc, State.commandTabs, hset]
        rfl
      refine ⟨_, exec_settles (u := v) h hw hp hpaper hkey htext hdone, by simp [hv],
        State.reserve_ret_answered (u := v) rfl _ _ _,
        State.answered_ends (l := [.comp]) (fun q hq => ?_) (by decide) (by decide) _ _ _⟩
      cases q <;> simp_all [State.same]
    · refine exec_replies h hw hp hpaper ?_
      rw [hc, State.commandTabs, State.changeTabs_of_not_fits (s := s.reserve) hno]
  refine ⟨?_, hchanges (by decide) rfl nofun rfl, ?_⟩
  · intro hi lo dec x
    refine ⟨fun hx => ?_, fun hx hno hfull => ?_, fun hx hroom => ?_, fun hno => ?_, fun hyes => ?_⟩
    · exact exec_replies h (by decide) rfl nofun (if_pos hx)
    · refine exec_replies h (by decide) rfl nofun ((if_neg hx.not_gt).trans (if_pos ?_))
      rw [show s.reserve.comp.tabs = s.comp.tabs from rfl, hasStop_eq_false hno]
      exact decide_eq_true hfull
    · refine hchanges (by decide) rfl nofun ((if_neg hx.not_gt).trans (if_neg ?_))
      rw [← hasStop_iff] at hroom
      rw [show s.reserve.comp.tabs = s.comp.tabs from rfl, Bool.and_eq_true, Bool.not_eq_true', decide_eq_true_eq]
      rintro ⟨hnone, hfull⟩
      rcases hroom with hyes | hroom
      · exact absurd (hnone.symm.trans hyes) (by decide)
      · exact absurd hfull hroom.not_ge
    · refine exec_replies h (by decide) rfl nofun ?_
      show s.reserve.cmdTabRemove [hi, lo] = _
      have hnone : ¬hasStop s.reserve.comp.tabs x = true := by
        rw [show s.reserve.comp.tabs = s.comp.tabs from rfl, hasStop_eq_false hno]
        exact Bool.false_ne_true
      exact if_neg hnone
    · exact hchanges (by decide) rfl nofun (if_pos ((hasStop_iff _ _).mpr hyes))
  · intro v u
    have hvalue : Setting.decimalChar.clamp (ofTwoBytes 0 (if v then 1 else 0)) = if v then 1 else 0 := by
      cases v <;> rfl
    have hbool : decide ((if v then 1 else 0) = 1) = v := by cases v <;> rfl
    refine ⟨fun hfits => ?_, fun hno => ?_⟩
    · have hset := State.setDecimal_of_fits (s := s.reserve) (v := v) rfl hfits
      set w : State := { s.reserve with
        set := { s.set with decimalComma := v }, comp := { s.comp with logical := moved u } } with hw
      have hdone : s.reserve.applySetting (Setting.decimalChar.clamp (ofTwoBytes 0 (if v then 1 else 0))) .decimalChar =
          .done w := by
        rw [hvalue, State.applySetting, hbool, hset]
        rfl
      have hexec := exec_set_done (id := 17) (k := .decimalChar) h rfl hdone hkey htext
      have hreply : (if Setting.decimalChar.clamp (ofTwoBytes 0 (if v then 1 else 0)) = ofTwoBytes 0 (if v then 1 else 0)
          then CmdOutcome.done else .doneClamped) = .done := by cases v <;> rfl
      have hbytes : twoBytes (if v then 1 else 0) ++ [0] = [0, if v then 1 else 0, 0] := by cases v <;> rfl
      rw [hreply, hvalue, hbytes] at hexec
      refine ⟨_, hexec, by simp [hw, u], by simp [hw], State.reserve_ret_answered (u := w) rfl _ _ _,
        State.answered_ends (l := [.comp, .set]) (fun q hq => ?_) (by decide) (by decide) _ _ _⟩
      cases q <;> simp_all [State.same]
    · refine exec_set_inconsistent (k := .decimalChar) h rfl ?_
      rw [hvalue, State.applySetting, hbool, State.setDecimal_of_not_fits (s := s.reserve) hno]

/-! ### The user word list (R126) -/

theorem judgeWord_badLength {l : List Byte} (h : l.length < 2 ∨ 24 < l.length) : judgeWord l = some .badLength :=
  if_pos h

theorem judgeWord_badContent {l : List Byte} (hlow : 2 ≤ l.length) (hhigh : l.length ≤ 24) (h : ∃ b ∈ l, 40 < b.toNat) :
    judgeWord l = some .badContent := by
  rw [judgeWord, if_neg (show ¬(l.length < 2 ∨ wordLetters < l.length) from not_or.mpr ⟨hlow.not_gt, hhigh.not_gt⟩), if_pos]
  simpa using h

theorem judgeWord_none {l : List Byte} (hlow : 2 ≤ l.length) (hhigh : l.length ≤ 24) (h : ∀ b ∈ l, b.toNat ≤ 40) :
    judgeWord l = none := by
  rw [judgeWord, if_neg (show ¬(l.length < 2 ∨ wordLetters < l.length) from not_or.mpr ⟨hlow.not_gt, hhigh.not_gt⟩), if_neg]
  simpa using h

/-- What a change of the user words leaves besides them: the Spelling Unit looks words up and drops checks (R126). -/
structure State.relists (s u : State) (users : List (List Nat)) : Prop where
  users : u.spell.users = users
  nextWord : u.spell.nextWord = s.spell.nextWord
  marks : u.spell.marks = s.spell.marks
  ret : u.ret = s.ret
  get : ∀ k, k ≠ Counter.checksDropped → u.ctr.get k = s.ctr.get k
  keeps : s.keeps u [.spell, .ctr]

theorem State.addUserWord_relists (s : State) (w : List Nat) : s.relists (s.addUserWord w) (s.spell.users ++ [w]) := by
  refine ⟨?_, ?_, ?_, ?_, fun k hk => State.spellOn_get _ hk, fun q hq => ?_⟩
  case refine_5 => cases q <;> simp_all [State.same, State.addUserWord]
  all_goals simp [State.addUserWord]

theorem State.removeUserWord_relists (s : State) (w : List Nat) :
    s.relists (s.removeUserWord w) (s.spell.users.filter (fun u => u ≠ w)) := by
  refine ⟨?_, ?_, ?_, ?_, fun k hk => State.spellOn_get _ hk, fun q hq => ?_⟩
  case refine_5 => cases q <;> simp_all [State.same, State.removeUserWord]
  all_goals simp [State.removeUserWord, State.startSweep]

/-- Settles O21: the list changes as the word says, and the Spelling Unit goes on from it. -/
theorem userWordCommandsKeepTheList : Obligations.UserWordCommandsKeepTheList := by
  intro s l h hq w replies lists
  have hadd {o : CmdOutcome} (hc : s.reserve.cmdUserAdd l = s.reserve.answer 0x0A o []) :
      replies (.userWordAdd l) 0x0A o := exec_replies h (by decide) rfl nofun hc
  have hremove {o : CmdOutcome} (hc : s.reserve.cmdUserRemove l = s.reserve.answer 0x0B o []) :
      replies (.userWordRemove l) 0x0B o := exec_replies h (by decide) rfl nofun hc
  have hlists {i : Instr} {code : Byte} {u : State} {users : List (List Nat)} (hw : code ≠ 0x04)
      (hp : payloadOf i = some (code, l)) (hpaper : ∀ q, i ≠ .resume q) (hu : s.reserve.relists u users)
      (hc : s.reserve.command code l true = (u.settle s.reserve).answer code .done []) : lists i code users := by
    have hcomp : u.comp = s.comp := (hu.keeps .comp (by decide))
    refine ⟨_, exec_settles h hw hp hpaper (hcomp ▸ hq.2.1) (hcomp ▸ hq.2.2) hc, by simpa using hu.users,
      by simpa using hu.nextWord, by simpa using hu.marks, State.reserve_ret_answered hu.ret _ _ _,
      by simpa using hu.get, State.answered_ends hu.keeps (by decide) (by decide) _ _ _⟩
  refine ⟨fun hbad => ?_, fun hlow hhigh hbad => ?_, fun hlow hhigh hgood => ?_⟩
  · have hj := judgeWord_badLength hbad
    exact ⟨hadd (by rw [State.cmdUserAdd, hj]), hremove (by rw [State.cmdUserRemove, hj])⟩
  · have hj := judgeWord_badContent hlow hhigh hbad
    exact ⟨hadd (by rw [State.cmdUserAdd, hj]), hremove (by rw [State.cmdUserRemove, hj])⟩
  · have hj := judgeWord_none hlow hhigh hgood
    refine ⟨fun hin => ⟨hadd ?_, ?_⟩, fun hout => ⟨hremove ?_, fun hfull => hadd ?_, fun hroom => ?_⟩⟩
    · rw [State.cmdUserAdd, hj]
      exact if_pos (List.contains_iff_mem.mpr hin)
    · refine hlists (by decide) rfl nofun (s.reserve.removeUserWord_relists w) ?_
      show s.reserve.cmdUserRemove l = _
      rw [State.cmdUserRemove, hj]
      exact if_pos (List.contains_iff_mem.mpr hin)
    · rw [State.cmdUserRemove, hj]
      exact if_neg (mt List.contains_iff_mem.mp hout)
    · rw [State.cmdUserAdd, hj]
      exact (if_neg (mt List.contains_iff_mem.mp hout)).trans (if_pos hfull)
    · refine hlists (by decide) rfl nofun (s.reserve.addUserWord_relists w) ?_
      show s.reserve.cmdUserAdd l = _
      rw [State.cmdUserAdd, hj]
      exact (if_neg (mt List.contains_iff_mem.mp hout)).trans (if_neg hroom.not_ge)

end Sys2Proof.Machine
end

section
/-! PROOF of O1, O4, O22, O24, O25 and O54. The front of the queue, the values at reset, and the commands that pause, clear
and restart the link. -/

namespace Sys2Proof.Machine

variable {s t u : State}

/-! ### The queue and reset -/

/-- Settles O1. -/
theorem stepRunsTheFrontCommand : Obligations.StepRunsTheFrontCommand := by
  refine ⟨fun c rest s h => ?_, fun s h => ?_⟩
  · rw [step, h]
  · rw [step, h]

/-- Settles O4: every part of `State.reset` is written out by its power-on value. -/
theorem resetLeavesPowerOnValues : Obligations.ResetLeavesPowerOnValues := by
  refine ⟨rfl, rfl, rfl, rfl, rfl, rfl, rfl, rfl, rfl, rfl, rfl, rfl, rfl, rfl, rfl, rfl, rfl, rfl, rfl, rfl, rfl, rfl,
    rfl, rfl, rfl, rfl, rfl, rfl, rfl, rfl, rfl, rfl, rfl⟩

/-- Settles O54: with every list empty and every slot EMPTY, the properties are finite facts. -/
theorem resetMeetsEveryInvariant : Obligations.ResetMeetsEveryInvariant := by
  have hempty (d : Slot) (h : d ∈ State.reset.tab.slots) : d.state = .empty := by
    rw [show State.reset.tab.slots = List.replicate slotCount Slot.emptySlot from rfl] at h
    rw [List.eq_of_mem_replicate h]
    rfl
  refine ⟨rfl, Nat.zero_le _, ⟨nofun, nofun⟩, rfl, ⟨rfl, rfl, fun d hd hne => absurd (hempty d hd) hne, ?_, nofun⟩,
    nofun, ?_, ⟨by decide, by decide, rfl⟩, rfl, fun _ => ⟨rfl, rfl⟩, by decide, by decide, by decide,
    List.Pairwise.nil, by decide, by decide, by decide, by decide, by decide, by decide, by decide⟩
  · exact List.pairwise_of_forall_mem_list fun d hd e _ hne => absurd (hempty d hd) hne
  · exact List.pairwise_of_forall_mem_list fun d hd e _ h => absurd (hempty d hd) (by simp [h.1])

/-! ### No operation of the sequencer makes an item wait (R28) -/

/-- Where no item of a feed waits before, none waits after. -/
def State.addsNoWait (s t : State) : Prop :=
  t.comp.keyWait = s.comp.keyWait ∧ (s.comp.textWait = none → t.comp.textWait = none)

theorem State.addsNoWait.trans (h : s.addsNoWait t) (k : t.addsNoWait u) : s.addsNoWait u :=
  ⟨k.1.trans h.1, fun hs => k.2 (h.2 hs)⟩

theorem State.addsNoWait.of_comp (h : t.comp = s.comp) : s.addsNoWait t := by
  rw [State.addsNoWait, h]
  exact ⟨rfl, id⟩

theorem State.addsNoWait.quiet (h : s.addsNoWait t) (hq : s.quiet) : t.comp.keyWait = none ∧ t.comp.textWait = none :=
  ⟨h.1.trans hq.2.1, h.2 hq.2.2⟩

theorem State.respell_addsNoWait (s : State) : s.addsNoWait s.respell := by
  obtain ⟨-, -, -, hcomp⟩ := s.respell_text
  rw [State.addsNoWait, hcomp]
  exact ⟨rfl, id⟩

theorem State.reachBoundary_addsNoWait (s : State) : s.addsNoWait s.reachBoundary := by
  rw [State.addsNoWait, s.reachBoundary_comp]
  exact s.comp.applyPending_waits s.set.justify

theorem State.textChanged_addsNoWait (was : Bool) (s : State) : s.addsNoWait (s.textChanged was) := by
  have hfollow : s.addsNoWait s.followText :=
    State.addsNoWait.trans (State.addsNoWait.trans (State.addsNoWait.of_comp rfl) s.trimMarks.respell_addsNoWait)
      (State.addsNoWait.of_comp rfl)
  rw [State.textChanged, State.boundaryAfter]
  split
  · exact hfollow.trans (State.reachBoundary_addsNoWait _)
  · exact hfollow

theorem State.reportLift_addsNoWait (s : State) (ref : Option Word) (skipped : Bool) :
    s.addsNoWait (s.reportLift ref skipped) := by
  unfold State.reportLift
  split
  · exact State.addsNoWait.of_comp rfl
  · split
    · exact State.addsNoWait.of_comp rfl
    · dsimp only
      split
      · exact State.addsNoWait.of_comp rfl
      · split
        · exact State.addsNoWait.trans (State.addsNoWait.of_comp rfl) (State.textChanged_addsNoWait _ _)
        · exact State.addsNoWait.trans (State.addsNoWait.of_comp rfl) (State.textChanged_addsNoWait _ _)

theorem State.reportSkipped_addsNoWait (s : State) (o : Order) : s.addsNoWait (s.reportSkipped o) := by
  cases o
  case lift => exact s.reportLift_addsNoWait _ _
  case strike => exact State.addsNoWait.of_comp (by simp [State.reportSkipped])
  all_goals exact State.addsNoWait.of_comp rfl

theorem State.reportDone_addsNoWait (s : State) (petal wheel level : Nat) (o : Order) :
    s.addsNoWait (s.reportDone petal wheel level o) := by
  cases o
  case lift => exact s.reportLift_addsNoWait _ _
  case strike => exact State.addsNoWait.of_comp (by simp [State.reportDone])
  all_goals exact State.addsNoWait.of_comp rfl

theorem State.skipOrder_addsNoWait (s : State) (o : Order) : s.addsNoWait (s.skipOrder o) := by
  unfold State.skipOrder
  refine State.addsNoWait.trans ?_ (State.reportSkipped_addsNoWait _ o)
  split <;> exact State.addsNoWait.of_comp (by simp)

theorem State.runOrders_addsNoWait (n : Nat) (s : State) : s.addsNoWait (State.runOrders n s) := by
  induction n generalizing s with
  | zero => exact State.addsNoWait.of_comp rfl
  | succ n ih =>
    unfold State.runOrders
    split
    · exact State.addsNoWait.of_comp (by simp)
    · split
      · exact State.addsNoWait.of_comp (by simp)
      case h_2 o _ _ =>
        split
        case h_2 => exact (s.skipOrder_addsNoWait o).trans (ih _)
        case h_4 => exact State.addsNoWait.trans (State.addsNoWait.of_comp rfl) (ih s.popOrder)
        all_goals exact State.addsNoWait.of_comp (by simp)

theorem State.runQueue_addsNoWait (s : State) : s.addsNoWait s.runQueue := State.runOrders_addsNoWait _ s

theorem State.enterReady_addsNoWait (s : State) : s.addsNoWait s.enterReady := by
  unfold State.enterReady
  split
  · exact State.addsNoWait.of_comp (by simp)
  · split
    · exact State.addsNoWait.of_comp (by simp)
    · exact State.addsNoWait.trans (State.addsNoWait.of_comp (by simp)) (State.runQueue_addsNoWait _)

theorem State.kick_addsNoWait (s : State) : s.addsNoWait s.kick := by
  unfold State.kick
  split
  · exact State.addsNoWait.trans (State.addsNoWait.of_comp (by simp)) (State.runQueue_addsNoWait _)
  · exact State.addsNoWait.of_comp rfl

/-! ### PAUSE and RESUME (R83, R84) -/

theorem exec_resume {paper : Bool} (h : s.commandReady) :
    exec (.resume paper) s = .next (s.reserve.cmdResume paper []) :=
  exec_of_ready (i := .resume paper) (code := 0x0D) h (by decide) rfl fun _ hp => (Instr.resume.inj hp).symm

theorem State.askPause_now (h : s.seq.state = .idle ∨ s.seq.state = .running ∧ s.seq.flight = none) (r : PauseReason) :
    s.askPause r = State.changedTo { s with seq := { s.seq with pauseReq := none } } .paused
      (s.seq.pauseReq.getD r).reason := by
  have hne : s.seq.state ≠ .paused := by
    rcases h with h | ⟨h, -⟩ <;> rw [h] <;> decide
  have hnow : s.askPause r = s.pauseNow r := by
    rcases h with h | ⟨h, hf⟩
    · simp only [State.askPause, h]
    · simp only [State.askPause, h, hf, Option.isNone_none, if_true]
  rw [hnow, State.pauseNow]
  exact State.enter_of_ne (s := { s with seq := { s.seq with pauseReq := none } }) hne _

theorem State.askPause_later (hi : s.seq.state ≠ .idle) (hp : s.seq.state ≠ .paused)
    (hr : ¬(s.seq.state = .running ∧ s.seq.flight = none)) (r : PauseReason) : s.askPause r = s.requestPause r := by
  unfold State.askPause
  split
  case h_1 h => exact absurd h hp
  case h_2 h => exact absurd h hi
  case h_3 h => exact if_neg fun hf => hr ⟨h, Option.isNone_iff_eq_none.mp hf⟩
  case h_4 => rfl

/-- A changed state of the mechanism, told and answered, leaves the other parts as they were. -/
theorem State.keeps_requestPause (s : State) (r : PauseReason) : s.keeps (s.requestPause r) [.seq, .drv, .ctr, .ret] := by
  intro p hp
  cases p <;> simp_all [State.same]

theorem State.enterReady_running (hr : s.seq.pauseReq = none) (hq : s.seq.queue ≠ []) (h : s.seq.state ≠ .running) :
    s.enterReady = (s.changedTo .running .none).runQueue := by
  unfold State.enterReady
  rw [hr]
  dsimp only
  rw [if_neg (by simpa using hq), State.enter_of_ne h]

theorem State.enterReady_idle (hr : s.seq.pauseReq = none) (hq : s.seq.queue = []) (h : s.seq.state ≠ .idle) :
    s.enterReady = s.changedTo .idle .none := by
  unfold State.enterReady
  rw [hr]
  dsimp only
  rw [if_pos (by simp [hq]), State.enter_of_ne h]

/-- The head order that is a MOVE to another place starts its motion (R80). -/
theorem State.runQueue_move {p : Nat} {rest : List Order} (hr : s.seq.pauseReq = none) (hq : s.seq.queue = .move p :: rest)
    (hp : s.seq.carriage ≠ some p) : s.runQueue = { s with
      seq := { s.seq with flight := some (.moving (carriageMicros (Machine.dist (s.seq.carriage.getD 0) p))) } } := by
  have hstart : s.startStep (.move p) = .moving (carriageMicros (Machine.dist (s.seq.carriage.getD 0) p)) := if_neg hp
  simp only [State.runQueue, State.runOrders, hr, hq, hstart]

theorem State.askResume_of_paper {paper : Bool} (h : s.seq.reason = .paper → paper = true) :
    s.askResume paper = some s.enterReady := by
  rw [State.askResume, if_neg]
  rintro ⟨hr, hp⟩
  simp [h hr] at hp

/-- RESUME carried out (R84), with no item waiting. -/
theorem exec_resume_of_paused {paper : Bool} (h : s.commandReady) (hq : s.quiet) (hst : s.seq.state = .paused)
    (hp : s.seq.reason = .paper → paper = true) :
    exec (.resume paper) s = .next (s.reserve.enterReady.answer 0x0D .done []).formImage := by
  obtain ⟨hkey, htext⟩ := (s.reserve.enterReady_addsNoWait).quiet hq
  rw [exec_resume h, State.cmdResume, if_pos (show s.reserve.seq.state = .paused from hst),
    State.askResume_of_paper (s := s.reserve) hp]
  dsimp only
  rw [State.settle_answer hkey htext]

/-- Settles O22: the request of a pause by the mechanism's state, and its end by the queue. -/
theorem pauseAndResume : Obligations.PauseAndResume := by
  intro s h hq
  obtain ⟨-, hkey, htext⟩ := hq
  have hpause {u : State} (hu : s.reserve.askPause .command = u) (hkeeps : s.reserve.keeps u [.seq, .drv, .ctr, .ret]) :
      exec .pause s = .next (u.answer 0x0C .done []).formImage ∧
        s.keeps (u.answer 0x0C .done []).formImage [.seq, .drv, .ctr, .ret, .image] ∧
        s.imageFollows (u.answer 0x0C .done []).formImage := by
    have hcomp : u.comp = s.comp := hkeeps .comp (by decide)
    refine ⟨?_, State.answered_ends hkeeps (by decide) (by decide) _ _ _⟩
    refine exec_settles h (by decide) rfl nofun (hcomp ▸ hkey) (hcomp ▸ htext) ?_
    rw [← hu]
    rfl
  refine ⟨?_, fun paper => ⟨fun hst => ?_, fun hst hreason hpaper => ?_, fun hst hpaper hreq => ⟨fun hqueue => ?_,
    fun hqueue => ?_, ?_⟩⟩⟩
  · intro pauses now
    refine ⟨fun hc => ?_, fun hc => ?_, fun hc => ?_⟩
    · obtain ⟨hexec, hends⟩ := hpause (State.askPause_now (s := s.reserve) hc .command)
        (State.keeps_trans (fun p hp => by cases p <;> simp_all [State.same]) (State.keeps_changedTo _ _ _))
      refine ⟨_, hexec, ?_, ?_, ?_, ?_, hends⟩
      all_goals simp only [State.formImage_frame, State.answer_frame]; rfl
    · have hstay : s.reserve.askPause .command = s.reserve := by
        rw [State.askPause, show s.reserve.seq.state = .paused from hc]
      obtain ⟨hexec, hends⟩ := hpause hstay (fun p hp => by cases p <;> simp_all [State.same])
      exact ⟨_, hexec, by simp, by simp, by simp, State.reserve_ret_answered (u := s.reserve) rfl _ _ _, hends⟩
    · obtain ⟨hi, hp, hr⟩ := hc
      obtain ⟨hexec, hends⟩ := hpause (State.askPause_later (s := s.reserve) hi hp hr .command)
        (State.keeps_requestPause _ _)
      exact ⟨_, hexec, by simp [State.requestPause], by simp, by simp,
        State.reserve_ret_answered (u := s.reserve.requestPause .command) rfl _ _ _, hends⟩
  · rw [exec_resume h, State.cmdResume, if_neg (show s.reserve.seq.state ≠ .paused from hst)]
    rfl
  · rw [exec_resume h, State.cmdResume, if_pos (show s.reserve.seq.state = .paused from hst), State.askResume,
      if_pos ⟨hreason, by rw [hpaper]; rfl⟩]
    exact congrArg _ (s.reserve_answer _ _ _)
  · have hrun := State.enterReady_running (s := s.reserve) hreq hqueue (by rw [State.reserve, hst]; decide)
    rw [exec_resume_of_paused h ⟨h.1, hkey, htext⟩ hst hpaper, hrun]
    rfl
  · have hidle := State.enterReady_idle (s := s.reserve) hreq hqueue (by rw [State.reserve, hst]; decide)
    refine ⟨_, exec_resume_of_paused h ⟨h.1, hkey, htext⟩ hst hpaper, ?_, ?_⟩
    · simp [hidle]
    · rw [hidle]
      exact State.answered_ends (State.keeps_changedTo _ _ _) (by decide) (by decide) _ _ _
  · intro p rest hqueue hne
    have hrun := State.enterReady_running (s := s.reserve) hreq (by rw [State.reserve, hqueue]; simp)
      (by rw [State.reserve, hst]; decide)
    rw [State.runQueue_move (by simpa using hreq) (by simpa using hqueue) (by simpa using hne)] at hrun
    refine ⟨_, exec_resume_of_paused h ⟨h.1, hkey, htext⟩ hst hpaper, ?_, ?_⟩
    · simp [hrun]
    · rw [hrun]
      refine State.answered_ends
        (State.keeps_trans (State.keeps_changedTo s.reserve .running .none) (fun q hq => ?_)) (by decide)
        (by decide) _ _ _
      cases q <;> simp_all [State.same]

/-! ### The credit, the counters, and a command in progress (R164, R175, R176, R185) -/

theorem State.abortSeal_of_none (h : s.tab.sealing = none) : s.abortSeal = s := by
  rw [State.abortSeal, h]

/-- Settles O24: a RESTART passes the BUSY answer and aborts the seal before its own answer. -/
theorem creditCountersAndCommandsInProgress : Obligations.CreditCountersAndCommandsInProgress := by
  refine ⟨fun s h => ⟨?_, ?_, ?_⟩, fun s i code params hp hrun hr => ⟨fun hfull => ?_, fun hfree he hcode => ?_⟩,
    fun s e hrun hfree he => ?_⟩
  · rw [exec_command (i := .creditRestate) h (by decide) rfl nofun]
    rfl
  · rw [exec_command (i := .clearCounters) h (by decide) rfl nofun]
    rfl
  · rw [exec_command (i := .restartCounters) h (by decide) rfl nofun]
    show Host.Outcome.next (s.reserve.abortSeal.restart .counters) = _
    rw [State.abortSeal_of_none (s := s.reserve) h.2.2]
    rfl
  · obtain ⟨paper, hpaper⟩ : ∃ paper, ∀ p, i = .resume p → p = paper := by
      cases i
      case resume q => exact ⟨q, fun p hp => (Instr.resume.inj hp).symm⟩
      all_goals exact ⟨true, nofun⟩
    rw [exec_of_payload hrun (fun _ => hr) hp hpaper, State.takeControl, if_pos (by simp [hfull])]
    rfl
  · obtain ⟨paper, hpaper⟩ : ∃ paper, ∀ p, i = .resume p → p = paper := by
      cases i
      case resume q => exact ⟨q, fun p hp => (Instr.resume.inj hp).symm⟩
      all_goals exact ⟨true, nofun⟩
    rw [exec_of_payload hrun (fun _ => hr) hp hpaper, State.takeControl, if_neg (by simp [hfree]), if_pos ⟨he, hcode⟩,
      State.reserve_answer]
  · rw [exec_of_payload (i := .restartCounters) (paper := true) hrun (fun hc => absurd hc (by decide)) rfl nofun,
      State.takeControl, if_neg (by simp [hfree]), if_neg (by simp)]
    show Host.Outcome.next (s.reserve.abortSeal.restart .counters) = _
    have habort : s.reserve.abortSeal =
        State.answer { s.reserve with tab := { s.tab with sealing := none } } 0x05 .aborted [] := by
      rw [State.abortSeal, show s.reserve.tab.sealing = some e from he]
      rfl
    rw [habort]
    simp [State.restart, State.restartCounters, State.restartAnswer, State.answer, State.reserve]

/-! ### RESTART LINK (R179) -/

theorem exec_restart {i : Instr} {k : Selector} {p : List Byte} (h : s.commandReady) (hp : payloadOf i = some (0x11, p))
    (hpaper : ∀ q, i ≠ .resume q) (hk : restartOf p = .inl k) : exec i s = .next (s.reserve.restart k) := by
  rw [exec_command h (by decide) hp hpaper]
  show Host.Outcome.next (s.reserve.cmdRestart p) = _
  rw [State.cmdRestart, hk]
  dsimp only
  rw [State.abortSeal_of_none (s := s.reserve) h.2.2]

/-- The link started afresh (R179), its image not yet formed. -/
def State.linkAfresh (s : State) : State :=
  let locked := s.rx.sync = .locked
  { s with
    rx := { s.rx with sync := .hunt }
    ret := { s.ret with
      reports := .answer 0x11 .done [] :: (if locked then [.event .linkLost false] else [])
      reserved := 0, lost := false, arbCount := 0 }
    txt := { s.txt with balance := 0, unsent := 96 - s.txt.queue.length, restate := true }
    ctr := if locked then s.ctr.raise .syncLosses 1 else s.ctr
    intake := if locked then { s.intake with held := [], shiftLock := false, timer := none, pendingRepeat := none }
      else s.intake
    line := { s.line with run := if locked ∧ s.intake.pendingRepeat.isSome then none else s.line.run }
    disp := { s.disp with lastSent := none, slot := none } }

theorem State.keeps_linkAfresh (s : State) :
    s.keeps s.linkAfresh [.rx, .ret, .txt, .ctr, .intake, .line, .image, .lastSent] := by
  intro p hp
  cases p <;> simp_all [State.same, State.linkAfresh]

/-- Leaving LOCKED is told where the report queue takes an EVENT, and with no key action waiting leaves the Composer
(R171). -/
theorem State.lostLock_of_takes (hkey : s.comp.keyWait = none) (ht : s.ret.takesEvent = true) (rest : List FeedByte) :
    s.lostLock rest = { s with
      rx := { s.rx with sync := .hunt, buf := rest }
      ret := s.ret.told .linkLost
      ctr := s.ctr.raise .syncLosses 1
      intake := { s.intake with held := [], shiftLock := false, timer := none, pendingRepeat := none }
      line := { s.line with run := if s.intake.pendingRepeat.isSome then none else s.line.run } } := by
  have hnone : (if s.intake.pendingRepeat.isSome then none else s.comp.keyWait) = s.comp.keyWait := by
    rw [hkey, ite_self]
  rw [State.lostLock, State.event_of_takes (s := { s with rx := { s.rx with sync := .hunt, buf := rest } }) ht, hnone]

/-- RESTART LINK with no key action waiting, whose wait leaving LOCKED would withdraw (R171, R179). -/
theorem State.restartLink_eq (hkey : s.comp.keyWait = none) : s.reserve.restartLink = s.linkAfresh.formImage := by
  by_cases hl : s.rx.sync = .locked
  · have hlost : s.reserve.freshReports.huntAfresh = s.reserve.freshReports.lostLock s.rx.buf :=
      (if_pos hl).trans (State.leaveLocked_eq_self _)
    rw [State.restartLink, hlost, State.lostLock_of_takes (s := s.reserve.freshReports) hkey rfl,
      State.freshImage, State.linkAfresh]
    simp only [hl, true_and]
    rfl
  · have hstays : s.reserve.freshReports.huntAfresh =
        { s.reserve.freshReports with rx := { s.rx with sync := .hunt } } := if_neg hl
    rw [State.restartLink, hstays, State.linkAfresh]
    simp only [hl, false_and, if_false]
    rfl

/-- Settles O25: the image formed at the end of the step is the one started afresh. -/
theorem restartLinkStartsTheLinkAfresh : Obligations.RestartLinkStartsTheLinkAfresh := by
  intro s h hq locked
  obtain ⟨-, hkey, htext⟩ := hq
  set w := s.linkAfresh with hw
  have hexec : exec .restartLink s = .next w.formImage.formImage := by
    rw [exec_restart (i := .restartLink) h rfl nofun rfl]
    show Host.Outcome.next (s.reserve.restartLink.settle s.reserve) = _
    rw [State.restartLink_eq hkey, State.settle_of_quiet]
    · simpa [State.linkAfresh] using hkey
    · simpa [State.linkAfresh] using htext
  have hsent : w.formImage.formImage.disp.lastSent = none :=
    (State.keeps_trans w.keeps_formImage w.formImage.keeps_formImage) .lastSent (by decide)
  have hslot : w.formImage.formImage.disp.slot =
      if s.set.display then some w.formImage.formImage.image else none := by
    have hset : w.formImage.formImage.set.display = s.set.display := by
      simp only [State.formImage_frame]
      rfl
    by_cases hd : s.set.display = true
    · obtain ⟨-, hshown⟩ := w.formImage.formImage_imageShown (hset.trans hd)
      rw [hshown, hsent, if_pos hd]
      exact if_neg nofun
    · have hdark : ¬w.set.display = true := hd
      have hoff : w.formImage.formImage = w := by
        rw [show w.formImage = w from if_neg hdark, show w.formImage = w from if_neg hdark]
      rw [hoff, if_neg hd]
      rfl
  refine ⟨_, hexec, by simp only [State.formImage_frame]; rfl, by simp only [State.formImage_frame]; rfl,
    by simp only [State.formImage_frame]; rfl, by simp only [State.formImage_frame]; rfl,
    by simp only [State.formImage_frame]; rfl, by simp only [State.formImage_frame]; rfl,
    hsent, hslot, ?_⟩
  exact State.keeps_trans s.keeps_linkAfresh (State.keeps_mono
    (State.keeps_trans w.keeps_formImage w.formImage.keeps_formImage) (by decide))

end Sys2Proof.Machine
end

section
/-! PROOF of O32, O52 and O53. Key Intake, the arbiter and the beeper: each takes one decision, said here by its cases. -/

namespace Sys2Proof.Machine

variable {s t u : State}

/-! ### The arbiter (R178) -/

theorem exec_returnBlockSent (h : s.resetHeld = false) : exec .returnBlockSent s = .next s.blockSent :=
  live_of_running h State.blockSent

theorem State.blockSent_of_no_pair (h : ∀ im, s.ret.sending ≠ some (.displayFirst im)) : s.blockSent = s.arbitrate := by
  unfold State.blockSent
  split
  case h_1 im hsends => exact absurd hsends (h im)
  case h_2 => rfl

theorem State.arbiterChoice_image {im : Image} (h : s.disp.slot = some im) (hc : s.ret.arbCount = 4) :
    s.arbiterChoice = .display im := by
  simp only [State.arbiterChoice, h]
  exact if_pos hc

/-- Without an image whose turn it is, the credit comes first and then the reports (R178). -/
theorem State.arbiterChoice_of_not_due (h : ¬(s.disp.slot.isSome ∧ s.ret.arbCount = 4)) :
    s.arbiterChoice = if 0 < s.txt.unsent ∨ s.txt.restate then .credit else s.laterChoice := by
  unfold State.arbiterChoice
  split
  case h_1 im hslot =>
    rw [hslot, Option.isSome_some] at h
    exact if_neg fun hc => h ⟨rfl, hc⟩
  case h_2 => rfl

/-- The block that a choice of the arbiter starts (R178). -/
def State.starts (s : State) : Choice → State
  | .display im => s.sendDisplay im
  | .credit => s.sendCredit
  | .report r => s.sendReport r
  | .rest => { s with ret := { s.ret with sending := none } }

theorem State.arbitrate_eq (s : State) : s.arbitrate = s.starts s.arbiterChoice := by
  unfold State.arbitrate
  split <;> (rename_i hchoice; rw [hchoice]; rfl)

/-- Settles O52: each choice of the arbiter starts its own block. -/
theorem theArbiterChoosesByPriority : Obligations.TheArbiterChoosesByPriority := by
  intro s h shows
  refine ⟨fun im hsends => ?_, fun hno => ?_⟩
  · rw [exec_returnBlockSent h, State.blockSent, hsends]
  · have hsent {c : Choice} (hc : s.arbiterChoice = c) : exec .returnBlockSent s = .next (s.starts c) := by
      rw [exec_returnBlockSent h, State.blockSent_of_no_pair hno, State.arbitrate_eq, hc]
    intro due credit
    have hlater (hdue : ¬due) (hcredit : ¬credit) : s.arbiterChoice = s.laterChoice :=
      (State.arbiterChoice_of_not_due hdue).trans (if_neg hcredit)
    refine ⟨fun im hslot hc => hsent (State.arbiterChoice_image hslot hc),
      fun hdue hcredit => hsent ((State.arbiterChoice_of_not_due hdue).trans (if_pos hcredit)),
      fun r rest hdue hcredit hr => ?_, fun im hdue hcredit hr hslot => ?_, fun hcredit hr hslot => ?_⟩
    · have hchoice : s.laterChoice = .report r := by rw [State.laterChoice, hr]
      rw [hsent ((hlater hdue hcredit).trans hchoice)]
      simp only [State.starts, State.sendReport, hr, List.tail_cons]
      rfl
    · have hchoice : s.laterChoice = .display im := by rw [State.laterChoice, hr, hslot]
      exact hsent ((hlater hdue hcredit).trans hchoice)
    · have hchoice : s.laterChoice = .rest := by rw [State.laterChoice, hr, hslot]
      have hdue : ¬due := fun hd => by simp [due, hslot] at hd
      exact hsent ((hlater hdue hcredit).trans hchoice)

/-! ### The beeper (R138 to R140) -/

theorem exec_beeperIntervalExpiry (h : s.resetHeld = false) : exec .beeperIntervalExpiry s = .next s.nextInterval :=
  live_of_running h State.nextInterval

theorem State.nextInterval_silent (h : s.disp.beeper = none) : s.nextInterval = s := by
  rw [State.nextInterval, h]

theorem State.nextInterval_sounding {b : Sounding} (h : s.disp.beeper = some b) (hb : b.cutOff = false) :
    s.nextInterval = { s with disp := { s.disp with beeper := b.next } } := by
  rw [State.nextInterval, h]
  exact if_neg (by rw [hb]; decide)

/-- The first expiry after a cut-off is drawn (R139). -/
theorem State.nextInterval_cutOff {b : Sounding} (h : s.disp.beeper = some b) (hb : b.cutOff = true) :
    s.nextInterval = { s with
      disp := { s.disp with beeper := if Config.cutOffExpiry s.free then some { b with cutOff := false } else b.next }
      free := s.free + 1 } := by
  rw [State.nextInterval, h]
  exact if_pos hb

/-- Settles O53: a pattern by its intervals. -/
theorem theBeeperSoundsItsPatterns : Obligations.TheBeeperSoundsItsPatterns := by
  refine ⟨fun s p => ⟨fun hoff => ?_, fun hon hsilent => ?_, fun b hon hb => ?_⟩, fun s h => ?_⟩
  · exact if_neg (by rw [hoff]; decide)
  · rw [State.signal, if_pos hon, hsilent]
  · rw [State.signal, if_pos hon, hb]
  · intro becomes
    have hsounds {b : Sounding} {next : Option Sounding} {tone : Bool} (hb : s.disp.beeper = some b)
        (hcut : b.cutOff = false) (hnext : b.next = next)
        (htone : Display.tone { s.disp with beeper := next } = tone) : becomes next tone := by
      refine ⟨_, exec_beeperIntervalExpiry h, ?_, ?_⟩
      · rw [State.nextInterval_sounding hb hcut, hnext]
      · rw [State.nextInterval_sounding hb hcut, hnext]
        exact htone
    refine ⟨fun hsilent => ?_, fun n hb => ?_, fun hb => ?_, fun hb => hsounds hb rfl rfl rfl,
      fun hb => hsounds hb rfl rfl rfl, fun hb => hsounds hb rfl rfl rfl⟩
    · refine ⟨_, exec_beeperIntervalExpiry h, ?_, ?_⟩
      · rw [State.nextInterval_silent hsilent, ← hsilent]
      · rw [State.nextInterval_silent hsilent, Display.tone, hsilent]
    · have hlast (p : Pattern) (hp : p.intervals = 1) : Sounding.next ⟨p, n, false⟩ = none :=
        if_neg (by show ¬n + 1 < p.intervals; omega)
      rcases hb with hb | hb
      · exact hsounds hb rfl (hlast .refused rfl) rfl
      · exact hsounds hb rfl (hlast .bell rfl) rfl
    · refine ⟨_, exec_beeperIntervalExpiry h, ?_⟩
      rw [State.nextInterval_cutOff hb rfl]
      cases Config.cutOffExpiry s.free with
      | true => exact .inl ⟨rfl, rfl⟩
      | false => exact .inr ⟨rfl, rfl⟩

/-! ### Key Intake (R14 to R21) -/

theorem exec_keyPress (h : s.resetHeld = false) : exec .keyPress s = .next s.keyPressed :=
  live_of_running h State.keyPressed

theorem exec_keyRelease (h : s.resetHeld = false) : exec .keyRelease s = .next s.keyReleased :=
  live_of_running h State.keyReleased

/-- A press that comes to the head of the key queue (R16). -/
theorem State.keyPressed_eq {b : Byte} {rest : List Byte} (hq : s.keyq.queue = b :: rest) (hb : b.toNat < 128)
    (ho : s.intake.offered = none) : s.keyPressed = s.pressHead (keyOf b) := by
  have hpress : ¬(isRelease b = true ∨ s.intake.offered.isSome = true) := by
    simp [isRelease, ho, hb]
  rw [State.keyPressed, hq]
  exact if_neg hpress

theorem State.pressHead_resolves {key base : Nat} (hk : key < 96) (hb : s.activeBase .keyMap = some base) :
    s.pressHead key = s.resolvePress key (keyEntryAt s.tab.mem base s.intake.layer key) := by
  rw [State.pressHead, if_neg (show ¬keyCount ≤ key from hk.not_ge), hb]

theorem State.popKey_eq {b : Byte} {rest : List Byte} (h : s.keyq.queue = b :: rest) :
    s.popKey = { s with keyq := { s.keyq with queue := rest } } := by
  rw [State.popKey, h, List.tail_cons]

theorem State.resolvePress_func {key : Nat} {f : Func} {r : Bool} (hs : f ≠ .shift) (hc : f ≠ .code) (hl : f ≠ .shiftLock) :
    s.resolvePress key (.func f r) =
      State.offer { s with intake := s.intake.endRepeat.hold key (.func f r) } ⟨key, .func f, r⟩ := by
  cases f <;> first | rfl | contradiction

theorem Intake.release_eq (k : Intake) (key : Nat) : k.release key = { k with
    held := k.held.filter (fun h => h.1 ≠ key), timer := k.timer.filter (fun t => t.key ≠ key) } := by
  unfold Intake.release
  cases ht : k.timer with
  | none => rfl
  | some t =>
    by_cases hk : t.key = key
    · simp [hk, Option.filter]
    · simp [hk, Option.filter]

theorem exec_typematicCountdownExpiry (h : s.resetHeld = false) :
    exec .typematicCountdownExpiry s = .next (s.repeatExpiry false) :=
  live_of_running h fun s => s.repeatExpiry false

theorem exec_typematicPeriodicExpiry (h : s.resetHeld = false) :
    exec .typematicPeriodicExpiry s = .next (s.repeatExpiry true) :=
  live_of_running h fun s => s.repeatExpiry true

theorem State.repeatExpiry_of_runs {key : Nat} {a : KeyAction} {p : Bool} (h : s.intake.timer = some ⟨key, a, p⟩) :
    s.repeatExpiry p = { s with intake := { s.intake with
      pendingRepeat := some (s.intake.pendingRepeat.getD a), timer := some ⟨key, a, true⟩ } } := by
  rw [State.repeatExpiry, h]
  exact if_pos rfl

theorem State.repeatExpiry_of_other {key : Nat} {a : KeyAction} {p q : Bool} (h : s.intake.timer = some ⟨key, a, p⟩)
    (hne : p ≠ q) : s.repeatExpiry q = s := by
  rw [State.repeatExpiry, h]
  exact if_neg hne

theorem State.repeatExpiry_of_none (h : s.intake.timer = none) (p : Bool) : s.repeatExpiry p = s := by
  rw [State.repeatExpiry, h]

/-- Settles O32: the head event by its kind, the expiries by the timer that runs, and the taking by what is selected. -/
theorem keyEventsAreResolvedAndRepeated : Obligations.KeyEventsAreResolvedAndRepeated := by
  refine ⟨?_, fun s key a h => ?_, fun s => ⟨fun a ha => ?_, fun o hp ho => ?_, fun hp ho => ?_⟩⟩
  · intro s b rest h hq key popped others
    refine ⟨fun hb => ?_, fun hb ho => ⟨fun hk => ?_, fun hk hno => ?_, ?_⟩⟩
    · have hrelease : isRelease b = true := decide_eq_true hb
      rw [exec_keyRelease h, State.keyReleased, hq]
      dsimp only
      rw [if_pos hrelease, Intake.release_eq, State.popKey, hq]
      rfl
    · rw [exec_keyPress h, State.keyPressed_eq hq hb ho, State.pressHead, if_pos (show keyCount ≤ keyOf b from hk),
        State.popKey_eq hq]
    · rw [exec_keyPress h, State.keyPressed_eq hq hb ho, State.pressHead,
        if_neg (show ¬keyCount ≤ keyOf b from hk.not_ge), hno]
      dsimp only
      rw [State.pressUnmapped, State.popKey_eq (rest := rest) (by exact hq)]
      rfl
    · intro base layer e hk hbase hlayer he pressed taken offers
      have hpress : exec .keyPress s = .next (s.resolvePress key e) := by
        rw [exec_keyPress h, State.keyPressed_eq hq hb ho, State.pressHead_resolves (key := keyOf b) hk hbase, he, hlayer]
        rfl
      have htaken {k : Intake} {e' : KeyEntry} (hee : e = e')
          (hr : s.resolvePress key e' = State.popKey { s with intake := k }) : taken k := by
        rw [hee] at hpress
        refine hpress.trans (congrArg _ ?_)
        rw [hr, State.popKey_eq (rest := rest) (by exact hq)]
      refine ⟨fun he => ?_, fun r he => ?_, fun r he => ?_, fun r he => ?_, fun c r he => ?_, fun c he => ?_,
        fun f r he hs hc hl => ?_⟩
      · subst he; exact htaken rfl rfl
      · subst he; exact htaken rfl rfl
      · subst he; exact htaken rfl rfl
      · subst he; exact htaken rfl rfl
      · subst he; exact hpress
      · subst he; exact hpress
      · subst he
        exact hpress.trans (congrArg _ (State.resolvePress_func hs hc hl))
  · refine ⟨fun ht => ⟨?_, ?_⟩, fun ht => ⟨?_, ?_⟩, fun ht => ⟨?_, ?_⟩⟩
    · rw [exec_typematicCountdownExpiry h, State.repeatExpiry_of_runs ht]
    · rw [exec_typematicPeriodicExpiry h, State.repeatExpiry_of_other ht (by decide)]
    · rw [exec_typematicPeriodicExpiry h, State.repeatExpiry_of_runs ht]
    · rw [exec_typematicCountdownExpiry h, State.repeatExpiry_of_other ht (by decide)]
    · rw [exec_typematicCountdownExpiry h, State.repeatExpiry_of_none ht]
    · rw [exec_typematicPeriodicExpiry h, State.repeatExpiry_of_none ht]
  · rw [State.selected, State.dropSelected, ha]
    exact ⟨rfl, rfl⟩
  · have hstart : s.intake.startCountdown o =
        if o.rep = true ∧ (∃ h ∈ s.intake.held, h.1 = o.key) then some ⟨o.key, o.action, false⟩ else s.intake.timer := by
      refine if_congr ?_ rfl rfl
      rw [Bool.and_eq_true, List.any_eq_true]
      simp only [decide_eq_true_eq]
    rw [State.selected, State.dropSelected, hp, ho]
    refine ⟨rfl, ?_⟩
    dsimp only
    rw [hstart]
    rfl
  · rw [State.selected, State.dropSelected, hp, ho]
    exact ⟨rfl, rfl⟩

end Sys2Proof.Machine
end

section
/-! PROOF of O44, O45, O46 and O47. How an order starts, runs and leaves the queue, with what it reports to the line
record, and the motions of the lift. -/

namespace Sys2Proof.Machine

variable {s t u : State}

/-! ### Steps that end with the waiting items (R28) -/

/-- A row of the mechanism with no item waiting: what it does is followed by the image alone. -/
theorem exec_of_quiet {i : Instr} {f : State → State} (hi : ∀ s, exec i s = live s fun s => (f s).settle s) (hq : s.quiet)
    (hf : f s = t) (hw : s.addsNoWait t) : exec i s = .next t.formImage := by
  obtain ⟨hkey, htext⟩ := hw.quiet hq
  rw [hi, live_of_running hq.1, hf, State.settle_of_quiet hkey htext]

/-! ### Reports to the line record (R94, R101) -/

theorem State.reportStrike_eq (s : State) (ref : Option Word) (num : Word) (f : StrikeStatus → StrikeStatus) :
    s.reportStrike ref num f = { s with line := { s.line with entries := Machine.strikeSet s.line.entries ref num f } } := by
  cases ref with
  | none => simp [State.reportStrike, Machine.strikeSet]
  | some n => simp [State.reportStrike, Machine.strikeSet, LineRecord.change, Entry.changeStrike, eq_comm]

theorem State.reportLift_none (s : State) (skipped : Bool) : s.reportLift none skipped = s := rfl

section Lifted

variable {n : Word} {e : Entry} (he : s.line.entries.find? (fun d => d.seqNum = n) = some e) (skipped : Bool)
include he

theorem seqNum_of_find : e.seqNum = n := by
  simpa using List.find?_some he

theorem State.reportLift_of_more (h : 1 < e.outstanding) : s.reportLift (some n) skipped = { s with
    line := { s.line with entries := s.line.entries.map (fun d => if d.seqNum = n then e.liftDone skipped else d) } } := by
  obtain rfl := seqNum_of_find he
  have hfind : (some e.seqNum).bind s.line.find = some e := he
  have hmore : (e.liftDone skipped).outstanding ≠ 0 := Nat.sub_ne_zero_of_lt h
  rw [State.reportLift, hfind]
  dsimp only
  rw [if_neg (by omega), if_pos hmore, LineRecord.change]

theorem State.reportLift_of_last_skipped (h : e.outstanding = 1) (hs : (e.liftSkipped || skipped) = true) :
    s.reportLift (some n) skipped = State.textChanged s.atBoundary { s with line := { s.line with
      entries := s.line.entries.map (fun d => if d.seqNum = n then { e with outstanding := 0, liftSkipped := false } else d) } } := by
  obtain rfl := seqNum_of_find he
  have hfind : (some e.seqNum).bind s.line.find = some e := he
  have hlast : (e.liftDone skipped).outstanding = 0 := by rw [Entry.liftDone, h]
  rw [State.reportLift, hfind]
  dsimp only
  rw [if_neg (by omega), if_neg (not_not.mpr hlast), if_pos (show (e.liftDone skipped).liftSkipped = true from hs),
    LineRecord.change, Entry.liftDone, h]

theorem State.reportLift_of_last (h : e.outstanding = 1) (hs : (e.liftSkipped || skipped) = false) :
    s.reportLift (some n) skipped = State.textChanged s.atBoundary { s with
      line := { s.line with entries := s.line.entries.filter (fun d => d.seqNum ≠ n) }
      seq := { s.seq with queue := s.seq.queue.map (fun r => if r.ref = some n then r.dropRef else r) } } := by
  obtain rfl := seqNum_of_find he
  have hfind : (some e.seqNum).bind s.line.find = some e := he
  have hlast : (e.liftDone skipped).outstanding = 0 := by rw [Entry.liftDone, h]
  have hno : (e.liftDone skipped).liftSkipped = false := hs
  rw [State.reportLift, hfind]
  dsimp only
  rw [if_neg (by omega), if_neg (not_not.mpr hlast),
    if_neg (Bool.eq_false_iff.mp hno), State.removeEntry,
    LineRecord.remove]
  rfl

end Lifted

/-! ### The heat check (R74 to R76) -/

theorem State.drivenIf_eq (s : State) (b : Bool) (ch : Channel) : s.drivenIf b ch = { s with drv := { s.drv with
    faults := if b then cleared s.drv.faults .overcurrent ch else s.drv.faults } } := by
  cases b <;> rfl

theorem State.heatCheck_of_cool {petal level : Nat} (h : s.seq.heat + level ≤ 255) : s.heatCheck petal level =
    { s with seq := { s.seq with flight := some (.pulse petal level (200 + 25 * level)), heat := s.seq.heat + level } } :=
  if_pos h

theorem State.heatCheck_of_hot {petal level : Nat} (h : 255 < s.seq.heat + level) : s.heatCheck petal level = { s with
    seq := { s.seq with flight := some (.heatWait petal level), heatCounted := true }
    ctr := if s.seq.heatCounted then s.ctr else s.ctr.raise .heatWaits 1 } := by
  rw [State.heatCheck, if_neg h.not_ge]
  cases hc : s.seq.heatCounted <;> rfl

/-- The end of a POSITION phase that no lift motion to another place holds back (R74). -/
theorem State.positionComplete_eq {o : Order} {rest : List Order} {petal level us : Nat} (hq : s.seq.queue = o :: rest)
    (hf : s.seq.flight = some (.position petal level us))
    (hl : s.seq.liftTarget = none ∨ s.seq.liftTarget = some o.liftPos) :
    let d1 := if s.seq.petal = some petal then s.drv.faults else cleared s.drv.faults .overcurrent .wheel
    let d2 := if s.seq.carriage = some o.pos then d1 else cleared d1 .overcurrent .carriage
    let d3 := if s.seq.liftTarget = none then d2 else cleared d2 .overcurrent .lift
    s.positionComplete = State.heatCheck { s with
      seq := { s.seq with petal := some petal, carriage := some o.pos, lift := some o.liftPos, liftTarget := none }
      drv := { s.drv with faults := d3 } } petal level := by
  intro d1 d2 d3
  have hdriven : ((s.drivenIf (s.seq.petal ≠ some petal) .wheel).drivenIf (s.seq.carriage ≠ some o.pos) .carriage).drivenIf
      (s.seq.liftTarget ≠ none) .lift = { s with drv := { s.drv with faults := d3 } } := by
    simp only [State.drivenIf_eq, decide_eq_true_eq, ite_not, d1, d2, d3]
  rw [State.positionComplete, hf, hq]
  dsimp only
  rw [if_pos hl, hdriven]

theorem State.heatTick_of_waiting {petal level : Nat} (h : s.seq.flight = some (.heatWait petal level)) :
    s.heatTick = State.heatCheck { s with seq := { s.seq with heat := s.seq.heat - 1 } } petal level := by
  rw [State.heatTick, h]

theorem State.heatTick_of_not_waiting (h : ∀ petal level, s.seq.flight ≠ some (.heatWait petal level)) :
    s.heatTick = { s with seq := { s.seq with heat := s.seq.heat - 1 } } := by
  unfold State.heatTick
  dsimp only
  split
  case h_1 petal level hf => exact absurd hf (h petal level)
  case h_2 => rfl

theorem exec_heatDecayTick (h : s.resetHeld = false) : exec .heatDecayTick s = .next s.heatTick :=
  live_of_running h State.heatTick

/-- Settles O44: POSITION_COMPLETE and the decay timer come to the one heat check. -/
theorem strikesPassTheHeatCheck : Obligations.StrikesPassTheHeatCheck := by
  refine ⟨?_, fun s h => ⟨fun hf => ?_, fun petal level hf => ⟨fun hcool => ?_, fun hhot => ?_⟩⟩⟩
  · intro s o rest petal level us hq hqueue hf hl d1 d2 d3 q
    have hcheck := State.positionComplete_eq hqueue hf hl
    have hexec {t : State} (ht : s.positionComplete = t) (hcomp : t.comp = s.comp) :
        exec .positionComplete s = .next t.formImage :=
      exec_of_quiet (fun _ => rfl) hq ht (State.addsNoWait.of_comp hcomp)
    exact ⟨fun hcool => hexec (hcheck.trans (State.heatCheck_of_cool hcool)) rfl,
      fun hhot => hexec (hcheck.trans (State.heatCheck_of_hot hhot)) rfl⟩
  · rw [exec_heatDecayTick h, State.heatTick_of_not_waiting hf]
  · rw [exec_heatDecayTick h, State.heatTick_of_waiting hf]
    rw [State.heatCheck_of_cool (s := { s with seq := { s.seq with heat := s.seq.heat - 1 } }) hcool]
  · rw [exec_heatDecayTick h, State.heatTick_of_waiting hf]
    rw [State.heatCheck_of_hot (s := { s with seq := { s.seq with heat := s.seq.heat - 1 } }) hhot, ← hf]

/-! ### Orders that complete (R75, R77, R80 to R82) -/

theorem State.countPulse_eq {o : Order} {rest : List Order} (h : s.seq.queue = o :: rest) :
    s.countPulse = { s with ctr := s.ctr.raise (if o.liftPos = .tape then .lifts else .strikes) 1 } := by
  rw [State.countPulse, h]
  cases o <;> rfl

theorem State.finishOrder_eq {o : Order} {rest : List Order} (h : s.seq.queue = o :: rest) (petal level : Nat) :
    s.finishOrder petal level = State.reportDone { s with seq := s.seq.popped } petal s.seq.wheelCode level o := by
  rw [State.finishOrder, h]
  rfl

theorem State.recoverComplete_eq {petal level us : Nat} (h : s.seq.flight = some (.recover petal level us)) :
    s.recoverComplete = (s.finishOrder petal level).runQueue := by
  rw [State.recoverComplete, h]

theorem State.popped_queue {o : Order} {rest : List Order} (h : s.seq.queue = o :: rest) : s.seq.popped.queue = rest := by
  rw [Sequencer.popped, h, List.tail_cons]

/-- Settles O45: each completion is the report of its order and the start of the next. -/
theorem ordersCompleteAndLeaveTheQueue : Obligations.OrdersCompleteAndLeaveTheQueue := by
  intro s o rest hq hqueue
  refine ⟨fun petal level us hf hstop => ?_, fun petal level us hf => ?_, fun us p hf ho => ?_, fun k us v hf hv => ?_⟩
  · refine exec_of_quiet (f := State.pulseComplete) (fun _ => rfl) hq ?_ (State.addsNoWait.of_comp rfl)
    rw [State.pulseComplete, hf]
    dsimp only
    rw [State.countPulse_eq hqueue]
    exact if_neg (show ¬s.seq.coverStop = true from Bool.eq_false_iff.mp hstop)
  · have hrecover {t : State} (ht : s.finishOrder petal level = t) (hw : s.addsNoWait t) :
        exec .recoverComplete s = .next (State.formImage t.runQueue) :=
      exec_of_quiet (fun _ => rfl) hq ((State.recoverComplete_eq hf).trans (by rw [ht])) (hw.trans t.runQueue_addsNoWait)
    have hfinish := State.finishOrder_eq hqueue petal level
    have hpopped : s.addsNoWait { s with seq := s.seq.popped } := State.addsNoWait.of_comp rfl
    refine ⟨fun code p role ref num ho => ?_, fun pt w p l ho => ?_, ?_⟩
    · subst ho
      exact hrecover (hfinish.trans (State.reportStrike_eq _ _ _ _)) (State.addsNoWait.of_comp rfl)
    · subst ho
      exact hrecover hfinish (State.addsNoWait.of_comp rfl)
    · intro pt w p l n e ho he change
      subst ho
      have hdone {t : State} (ht : State.reportLift { s with seq := s.seq.popped } (some n) false = t) :
          exec .recoverComplete s = .next (State.formImage t.runQueue) :=
        hrecover (hfinish.trans ht) (hpopped.trans (ht ▸ State.reportLift_addsNoWait _ _ _))
      have hfalse : (e.liftSkipped || false) = e.liftSkipped := Bool.or_false _
      refine ⟨fun hmore => hdone ?_, fun hlast hskip => hdone ?_, fun hlast hskip => hdone ?_⟩
      · refine (State.reportLift_of_more (s := { s with seq := s.seq.popped }) he false hmore).trans ?_
        rw [Entry.liftDone, hfalse]
      · exact State.reportLift_of_last_skipped (s := { s with seq := s.seq.popped }) he false hlast (hfalse.trans hskip)
      · refine (State.reportLift_of_last (s := { s with seq := s.seq.popped }) he false hlast (hfalse.trans hskip)).trans ?_
        dsimp only
        rw [State.popped_queue hqueue]
        rfl
  · refine exec_of_quiet (f := State.moveComplete) (fun _ => rfl) hq ?_
      (State.addsNoWait.trans (State.addsNoWait.of_comp rfl) (State.runQueue_addsNoWait _))
    rw [State.moveComplete, hf, hqueue, ho]
    dsimp only
    rw [State.popOrder]
    rfl
  · intro u
    have hcomplete (paper : Bool) : s.indexComplete paper = u.afterIndex paper := by
      rw [State.indexComplete, hf, hqueue]
      rcases hv with ⟨c, rfl, rfl⟩ | ⟨rfl, rfl⟩
      · rfl
      · rfl
    refine ⟨?_, fun hrun => ?_⟩
    · exact exec_of_quiet (f := fun s => s.indexComplete true) (fun _ => rfl) hq (hcomplete true)
        (State.addsNoWait.trans (State.addsNoWait.of_comp rfl) u.runQueue_addsNoWait)
    · refine exec_of_quiet (f := fun s => s.indexComplete false) (fun _ => rfl) hq ((hcomplete false).trans ?_)
        (State.addsNoWait.of_comp (by simp [State.changedTo, u]))
      refine State.enter_of_ne (s := { u with seq := { u.seq with pauseReq := none } }) ?_ _
      rw [show State.seq _ = _ from rfl]
      simp [u, Sequencer.popped, hrun]

/-! ### The head order starts (R72, R73, R78, R80, R81, R83) -/

theorem State.wheelCondition_mismatch (h : s.set.expectedWheel ≠ 0 ∧ s.set.expectedWheel ≠ s.seq.wheelCode) :
    s.wheelCondition = .mismatch := if_pos h

theorem State.wheelCondition_noMap (h : ¬(s.set.expectedWheel ≠ 0 ∧ s.set.expectedWheel ≠ s.seq.wheelCode))
    (hm : s.active .wheelMap = none) : s.wheelCondition = .noMap :=
  (if_neg h).trans (if_pos (by rw [hm]; rfl))

theorem State.wheelCondition_ready (h : ¬(s.set.expectedWheel ≠ 0 ∧ s.set.expectedWheel ≠ s.seq.wheelCode))
    (hm : s.active .wheelMap ≠ none) : s.wheelCondition = .ready :=
  (if_neg h).trans (if_neg (by simpa using hm))

theorem State.enterWheelWait_mismatch (h : s.seq.state ≠ .wheelWait) : s.enterWheelWait .mismatch =
    State.event (s.changedTo .wheelWait .mismatch) (.wheelMismatch s.set.expectedWheel s.seq.wheelCode) := by
  rw [State.enterWheelWait, State.enter_of_ne h]

theorem State.enterWheelWait_noMap (h : s.seq.state ≠ .wheelWait) : s.enterWheelWait .noMap =
    State.event (s.changedTo .wheelWait .noMap) (.wheelNoMap s.seq.wheelCode) := by
  rw [State.enterWheelWait, State.enter_of_ne h]

theorem PauseReason.reason_eq (r : PauseReason) : r.reason = if r = .key then .key else .command := by
  cases r <;> rfl

theorem State.runQueue_of_pause {r : PauseReason} (h : s.seq.pauseReq = some r) :
    s.runQueue = State.enter { s with seq := { s.seq with pauseReq := none } } .paused r.reason := by
  rw [State.runQueue, State.runOrders, h]

theorem State.runQueue_of_empty (h : s.seq.pauseReq = none) (hq : s.seq.queue = []) : s.runQueue = s.enter .idle .none := by
  rw [State.runQueue, State.runOrders, h, hq]

/-- What the start of the head order comes to, by the way in which it starts (R72). -/
def State.begins (s : State) (o : Order) : StartStep → State
  | .position petal level => s.startPosition o petal level
  | .skip => State.runOrders s.seq.queue.length (s.skipOrder o)
  | .wait c => s.enterWheelWait c
  | .moveDone => State.runOrders s.seq.queue.length s.popOrder
  | .moving us => { s with seq := { s.seq with flight := some (.moving us) } }
  | .indexing k => { s with seq := { s.seq with flight := some (.indexing k (paperMicros k)) } }

theorem State.runQueue_of_head {o : Order} {rest : List Order} (h : s.seq.pauseReq = none) (hq : s.seq.queue = o :: rest) :
    s.runQueue = s.begins o (s.startStep o) := by
  rw [State.runQueue, State.runOrders, h, hq]
  dsimp only
  generalize s.startStep o = st
  cases st <;> simp only [State.begins, hq]

/-- After an order has left, the queue runs on from the next one. -/
theorem State.runOrders_eq_runQueue {n : Nat} (h : n = s.seq.queue.length + 1) : State.runOrders n s = s.runQueue := by
  rw [h, State.runQueue]

/-- A POSITION phase as the start of an order leaves it (R74). -/
def State.positioning (s : State) (o : Order) (petal level : Nat) : Sequencer := { s.seq with
  flight := some (.position petal level (max (wheelMicros (wheelSteps (s.seq.petal.getD 0) petal))
    (max (carriageMicros (Machine.dist (s.seq.carriage.getD 0) o.pos))
      (if s.seq.liftTarget = none ∧ s.seq.lift = some o.liftPos then 0 else 6000))))
  liftTarget := if s.seq.liftTarget.isSome then s.seq.liftTarget
    else if s.seq.lift = some o.liftPos then none else some o.liftPos }

theorem Sequencer.askLift_eq (q : Sequencer) (d : LiftPos) : q.askLift d =
    if q.liftTarget.isSome then q.liftTarget else if q.lift = some d then none else some d := by
  unfold Sequencer.askLift
  cases q.liftTarget <;> rfl

theorem State.startPosition_eq (s : State) (o : Order) (petal level : Nat) : s.startPosition o petal level =
    State.reportInFlight { s with seq := s.positioning o petal level } o := by
  rw [State.startPosition, Sequencer.askLift_eq]
  rfl

/-- Settles O46: the cases of `startStep`, each with what the order's start leaves. -/
theorem theHeadOrderStarts : Obligations.TheHeadOrderStarts := by
  intro s hst hf
  have hrunning (st : MechState) (h : st ≠ .running) : s.seq.state ≠ st := fun he => h (he.symm.trans hst)
  refine ⟨fun r hr => ?_, fun hr => ⟨fun hq => ?_, ?_⟩⟩
  · rw [State.runQueue_of_pause hr, ← PauseReason.reason_eq]
    exact State.enter_of_ne (s := { s with seq := { s.seq with pauseReq := none } }) (hrunning _ (by decide)) _
  · rw [State.runQueue_of_empty hr hq, State.enter_of_ne (hrunning _ (by decide))]
  intro o rest hq mismatch starts
  have hhead {st : StartStep} (hstart : s.startStep o = st) := by
    have h := State.runQueue_of_head hr hq
    rw [hstart] at h
    exact h
  have hlength : s.seq.queue.length = s.seq.popped.queue.length + 1 := by
    rw [State.popped_queue hq, hq, List.length_cons]
  refine ⟨?_, ?_, ?_, fun c ho => ?_, fun ho => ?_⟩
  · intro code p role ref num ho
    subst ho
    refine ⟨fun hm => ?_, fun hm hno => ?_, fun hm hmap => ⟨fun petal cls adv under hentry => ?_, fun hentry => ?_⟩⟩
    · have hstart : s.startStep (.strike code p role ref num) = .wait .mismatch := by
        rw [State.startStep, State.wheelCondition_mismatch hm]
      exact (hhead hstart).trans (State.enterWheelWait_mismatch (hrunning _ (by decide)))
    · have hstart : s.startStep (.strike code p role ref num) = .wait .noMap := by
        rw [State.startStep, State.wheelCondition_noMap hm hno]
      exact (hhead hstart).trans (State.enterWheelWait_noMap (hrunning _ (by decide)))
    · have hstart : s.startStep (.strike code p role ref num) =
          .position petal (hammerLevel cls s.set.impression s.set.ribbon) := by
        rw [State.startStep, State.wheelCondition_ready hm hmap, hentry]
        rfl
      rw [hhead hstart, State.begins]
      rw [State.startPosition_eq, State.reportInFlight, State.reportStrike_eq]
      rfl
    · have hstart : s.startStep (.strike code p role ref num) = .skip := by
        rw [State.startStep, State.wheelCondition_ready hm hmap]
        dsimp only
        split
        case h_1 petal cls adv under he => exact absurd he (hentry petal cls adv under)
        case h_2 => rfl
      rw [hhead hstart, State.begins]
      have hskip : s.skipOrder (.strike code p role ref num) = { s with
          seq := s.seq.popped
          ctr := s.ctr.raise .unprintable 1
          line := { s.line with entries := strikeSet s.line.entries ref num (fun _ => .skipped) } } :=
        State.reportStrike_eq _ _ _ _
      rw [hskip]
      exact State.runOrders_eq_runQueue hlength
  · intro petal wheel p level ref ho
    subst ho
    refine ⟨fun hw => ?_, fun hw => ?_⟩
    · have hstart : s.startStep (.lift petal wheel p level ref) = .position petal level := if_pos hw
      rw [hhead hstart]
      exact State.startPosition_eq _ _ _ _
    · have hstart : s.startStep (.lift petal wheel p level ref) = .skip := if_neg hw
      intro e
      have hskips {t : State} (ht : e.reportLift ref true = t) (hlen : t.seq.queue.length = rest.length) :
          s.runQueue = t.runQueue := by
        rw [hhead hstart, State.begins]
        rw [show s.skipOrder (.lift petal wheel p level ref) = t from ht]
        exact State.runOrders_eq_runQueue (by rw [hlen, hq, List.length_cons])
      have hlen : e.seq.queue.length = rest.length := by
        simp only [e, State.event_frame]
        rw [State.popped_queue hq]
      have hbound : e.atBoundary = s.atBoundary := by simp [State.atBoundary, e]
      have hline : e.line = s.line := by simp [e]
      refine ⟨fun href => ?_, ?_⟩
      · subst href
        exact hskips rfl hlen
      · intro n d href hd becomes
        subst href
        have hde : e.line.entries.find? (fun f => f.seqNum = n) = some d := hline ▸ hd
        refine ⟨fun hmore => hskips ((State.reportLift_of_more hde true hmore).trans ?_) hlen,
          fun hlast => hskips ((State.reportLift_of_last_skipped hde true hlast (Bool.or_true _)).trans ?_) ?_⟩
        · rw [Entry.liftDone, Bool.or_true, hline]
        · rw [hbound, hline]
        · simp only [State.textChanged_frame]
          exact hlen
  · intro p ho
    subst ho
    refine ⟨fun hp => ?_, fun hp => ?_⟩
    · have hstart : s.startStep (.move p) = .moveDone := if_pos hp
      rw [hhead hstart]
      exact State.runOrders_eq_runQueue (s := { s with seq := s.seq.popped }) hlength
    · exact hhead (if_neg hp)
  · subst ho
    exact hhead rfl
  · subst ho
    exact hhead rfl

/-! ### The lift (R74, R79, R145) -/

/-- The state once a lift motion has completed, with where the lift goes on to (R79, R145). -/
def State.liftArrived (s : State) (d : LiftPos) (next : Option LiftPos) : State := { s with
  seq := { s.seq with lift := some d, liftTarget := next }
  drv := { s.drv with
    faults := cleared s.drv.faults .overcurrent .lift
    rotTest := if s.drv.rotTest = some .deferred then some .running else s.drv.rotTest } }

theorem State.liftComplete_position {d : LiftPos} {petal level us : Nat} {o : Order} {rest : List Order}
    (h : s.seq.liftTarget = some d) (hf : s.seq.flight = some (.position petal level us)) (hq : s.seq.queue = o :: rest) :
    s.liftComplete = s.liftArrived d (if o.liftPos = d then none else some o.liftPos) := by
  rw [State.liftComplete, h, hf, hq] <;> rfl

theorem State.liftComplete_other {d : LiftPos} (h : s.seq.liftTarget = some d)
    (hf : ∀ petal level us, s.seq.flight ≠ some (.position petal level us)) :
    s.liftComplete = s.liftArrived d none := by
  unfold State.liftComplete
  rw [h]
  dsimp only
  split
  case h_1 petal level us o rest hflight _ => exact absurd hflight (hf petal level us)
  case h_2 => rfl

theorem Sequencer.striking_iff (q : Sequencer) : q.striking = true ↔
    ∃ petal level, q.flight = some (.heatWait petal level) ∨
      ∃ us, q.flight = some (.position petal level us) ∨ q.flight = some (.pulse petal level us) ∨
        q.flight = some (.recover petal level us) := by
  unfold Sequencer.striking
  split <;> simp_all

theorem exec_liftRestTimerExpiry (h : s.resetHeld = false) : exec .liftRestTimerExpiry s = .next s.restExpiry :=
  live_of_running h State.restExpiry

/-- Settles O47: where a lift motion goes on to, and when the rest timer sends the lift to REST. -/
theorem theLiftMovesAndRests : Obligations.TheLiftMovesAndRests := by
  refine ⟨fun s d hq hd => ⟨fun petal level us o rest hf hqueue => ?_, fun hf => ?_⟩, fun s h => ?_⟩
  · exact exec_of_quiet (fun _ => rfl) hq (State.liftComplete_position hd hf hqueue) (State.addsNoWait.of_comp rfl)
  · exact exec_of_quiet (fun _ => rfl) hq (State.liftComplete_other hd hf) (State.addsNoWait.of_comp rfl)
  · intro striking stays
    have hstays : stays ↔ ¬(!s.seq.striking ∧ s.seq.lift ≠ some .rest ∧ s.seq.liftTarget = none ∧ s.seq.state ≠ .halted) := by
      have hstrike := s.seq.striking_iff
      change s.seq.striking = true ↔ striking at hstrike
      simp only [stays, ← hstrike, Bool.not_eq_true', not_and_or, Bool.not_eq_false, not_not, ne_eq]
    refine ⟨fun hs => ?_, fun hs => ?_⟩
    · rw [exec_liftRestTimerExpiry h, State.restExpiry, if_neg (hstays.mp hs)]
    · rw [exec_liftRestTimerExpiry h, State.restExpiry, if_pos (not_not.mp (mt hstays.mpr hs))]

end Sys2Proof.Machine
end

section
/-! PROOF of O49 and O51. The steps of homing, the off-state tests of the rotation and of homing, and the end of homing. -/

namespace Sys2Proof.Machine

variable {s t u : State}

/-! ### Homing (R70, R71) -/

theorem State.returnPosition_eq (s : State) : s.returnPosition =
    min 1559 (if s.comp.source = .localKeys ∧ s.comp.mode = .line then s.comp.left else s.comp.logical) := by
  unfold State.returnPosition Composer.modeInEffect
  cases s.comp.source <;> cases s.comp.mode <;> rfl

theorem State.homeSeen_eq (h : s.seq.homing = some .home) : s.homeSeen = { s with
    seq := { s.seq with
      carriage := some 0, homing := some (if s.returnPosition = 0 then .index else .ret s.returnPosition) }
    drv := { s.drv with
      faults := cleared (cleared s.drv.faults .overcurrent .carriage) .homeNotFound .carriage } } := if_pos h

theorem State.indexSeen_eq (h : s.seq.homing = some .index) : s.indexSeen = { s with
    seq := { s.seq with petal := some (Config.indexMarkPetal % 96), homing := some (.ident []) }
    drv := { s.drv with
      faults := cleared (cleared s.drv.faults .overcurrent .wheel) .wheelIndexLost .wheel } } := if_pos h

theorem State.returnComplete_eq {x : Nat} (h : s.seq.homing = some (.ret x)) : s.returnComplete = { s with
    seq := { s.seq with carriage := some x, homing := some .index }
    drv := { s.drv with faults := cleared s.drv.faults .overcurrent .carriage } } := by
  rw [State.returnComplete, h]
  rfl

/-! ### Identification (R6, R7) -/

theorem identResult_nil (a : Nat) : identResult ([] ++ [a]) = none := rfl

theorem identResult_snoc {l : List Nat} {a : Nat} (h : l.getLast? = some a) (b : Nat) : identResult (l ++ [b]) =
    if b = a then some b else if l.length = 3 then some 0 else none := by
  obtain ⟨m, rfl⟩ := List.getLast?_eq_some_iff.mp h
  rw [identResult, List.append_assoc, List.reverse_append]
  show (if b = a then some b else if (m ++ ([a] ++ [b])).length = 4 then some 0 else none) = _
  simp

theorem State.identRead_goes {reads : List Nat} {code : Nat} (h : s.seq.homing = some (.ident reads))
    (hr : identResult (reads ++ [code]) = none) :
    s.identRead code = { s with seq := { s.seq with homing := some (.ident (reads ++ [code])) } } := by
  rw [State.identRead, h]
  dsimp only
  rw [hr]

/-- The state in which identification tells the wheel that it has found (R7). -/
def State.wheelFound (s : State) (code : Nat) : State :=
  State.event { s with
    seq := { s.seq with wheelCode := code, homing := some (.test .carriage) }
    drv := { s.drv with faults := cleared s.drv.faults .overcurrent .wheel } } (.wheelIdentified code)

theorem State.identRead_finds {reads : List Nat} {code c : Nat} (h : s.seq.homing = some (.ident reads))
    (hr : identResult (reads ++ [code]) = some c) : s.identRead code =
      State.identified { s.driven .wheel with seq := { s.seq with homing := some (.test .carriage) } } c := by
  rw [State.identRead, h]
  dsimp only
  rw [hr]

theorem State.identified_same {code : Nat} {v : State}
    (hv : v = State.event { s with seq := { s.seq with wheelCode := code } } (.wheelIdentified code))
    (h : v.active .wheelMap = none ∨ v.active .wheelMap = s.active .wheelMap) : s.identified code = v := by
  unfold State.identified
  dsimp only
  rw [← hv]
  split
  case h_1 => rfl
  case h_2 i hi =>
    rcases h with hnone | hsame
    · exact absurd (hi.symm.trans hnone) nofun
    · exact if_pos (hsame.symm.trans hi)

theorem State.identified_new {code i : Nat} {v : State}
    (hv : v = State.event { s with seq := { s.seq with wheelCode := code } } (.wheelIdentified code))
    (h : v.active .wheelMap = some i) (hnew : s.active .wheelMap ≠ some i) :
    s.identified code = v.event (.tableActive .wheelMap code i) := by
  unfold State.identified
  dsimp only
  rw [← hv, h]
  exact if_neg hnew

/-- Settles O49: each step of homing, and identification by the reads before. -/
theorem homingPlacesTheMechanism : Obligations.HomingPlacesTheMechanism := by
  intro s hq
  refine ⟨fun hh => ?_, fun x hh => ?_, fun hh => ?_, fun reads code hh => ?_⟩
  · intro x
    have hx : s.returnPosition = x := s.returnPosition_eq
    rw [← hx]
    exact exec_of_quiet (fun _ => rfl) hq (State.homeSeen_eq hh) (State.addsNoWait.of_comp rfl)
  · exact exec_of_quiet (fun _ => rfl) hq (State.returnComplete_eq hh) (State.addsNoWait.of_comp rfl)
  · exact ⟨_, Nat.mod_lt _ (by decide),
      exec_of_quiet (fun _ => rfl) hq (State.indexSeen_eq hh) (State.addsNoWait.of_comp rfl)⟩
  · intro goesOn identifies
    have hread {t : State} (ht : s.identRead code.toNat = t) (hcomp : t.comp = s.comp) :
        exec (.identificationRead code) s = .next t.formImage :=
      exec_of_quiet (f := fun s => s.identRead code.toNat) (fun _ => rfl) hq ht (State.addsNoWait.of_comp hcomp)
    have hgoes (hr : identResult (reads ++ [code.toNat]) = none) : goesOn :=
      hread (State.identRead_goes hh hr) rfl
    have hfinds {c : Nat} (hr : identResult (reads ++ [code.toNat]) = some c) : identifies c := by
      have hid := State.identRead_finds hh hr
      refine ⟨fun hmap => hread (t := s.wheelFound c) ?_ (by simp [State.wheelFound]), fun i hmap hnew => hread
        (t := (s.wheelFound c).event (.tableActive .wheelMap c i)) ?_ (by simp [State.wheelFound])⟩
      · exact hid.trans (State.identified_same rfl hmap)
      · exact hid.trans (State.identified_new rfl hmap hnew)
    refine ⟨fun hr => ?_, fun hlast => ?_, fun a hlast hne => ⟨fun hlen => ?_, fun hlen => ?_⟩⟩
    · subst hr
      exact hgoes (identResult_nil _)
    · exact hfinds ((identResult_snoc hlast _).trans (if_pos rfl))
    · exact hgoes ((identResult_snoc hlast _).trans ((if_neg (Ne.symm hne)).trans (if_neg hlen)))
    · exact hfinds ((identResult_snoc hlast _).trans ((if_neg (Ne.symm hne)).trans (if_pos hlen)))

/-! ### Halting with nothing in flight (R87, R149) -/

theorem State.stopLift_eq (s : State) : s.stopLift = { s with seq := { s.seq with
    lift := if s.seq.liftTarget = none then s.seq.lift else none, liftTarget := none } } := by
  unfold State.stopLift
  split
  case h_1 h =>
    rw [if_pos h, ← h]
  case h_2 h => simp [h]

theorem State.abandonFlight_of_none (h : s.seq.flight = none) :
    s.abandonFlight = { s with seq := { s.seq with flight := none, coverStop := false } } := by
  rw [State.abandonFlight, h]

theorem State.abandonHoming_of_none (h : s.seq.homing = none) : s.abandonHoming = s := by
  rw [State.abandonHoming, h]

theorem Sequencer.pauseToRequest_kept (q : Sequencer) : q.pauseToRequest = { q with pauseReq := q.pauseKept } := by
  obtain ⟨_, _, st, r, _, p, _⟩ := q
  cases st
  case paused => cases r <;> cases p <;> rfl
  all_goals rfl

theorem Sequencer.pauseToRequest_of_ne {q : Sequencer} (h : q.state ≠ .paused) : q.pauseToRequest = q := by
  rw [q.pauseToRequest_kept, show q.pauseKept = q.pauseReq from if_neg fun hp => h hp.1]

theorem State.raiseFault_seq (s : State) (k : FaultKind) (ch : Channel) : (s.raiseFault k ch).seq = s.seq := by simp

/-- What a halting fault makes of a mechanism that drives no order, and of a homing at one of its tests (R87). -/
theorem State.halt_of_resting (hst : s.seq.state ≠ .halted) (hp : s.seq.state ≠ .paused) (hf : s.seq.flight = none)
    (hc : s.seq.coverStop = false) (hh : s.seq.homing = none ∨ ∃ ch, s.seq.homing = some (.test ch)) (k : FaultKind) :
    s.halt k = State.changedTo { s with seq := { s.seq with
      homing := none, lift := if s.seq.liftTarget = none then s.seq.lift else none, liftTarget := none } }
      .halted (.fault k) := by
  have hflight : s.abandonFlight = s := by
    rw [State.abandonFlight_of_none hf, ← hf, ← hc]
  have habandon : s.abandonFlight.abandonHoming.stopLift = { s with seq := { s.seq with
      homing := none, lift := if s.seq.liftTarget = none then s.seq.lift else none, liftTarget := none } } := by
    rw [hflight]
    rcases hh with hh | ⟨ch, hh⟩
    · rw [State.abandonHoming_of_none hh, State.stopLift_eq, ← hh]
    · have htest : s.abandonHoming = State.stopLift { s with seq := { s.seq with homing := none } } := by
        rw [State.abandonHoming, hh]
      rw [htest, State.stopLift_eq, State.stopLift_eq]
      rfl
  rw [State.halt, if_neg hst, habandon]
  dsimp only
  rw [Sequencer.pauseToRequest_of_ne (by exact hp)]
  exact State.enter_of_ne (s := { s with seq := { s.seq with
    homing := none, lift := if s.seq.liftTarget = none then s.seq.lift else none, liftTarget := none } }) hst _

/-! ### The off-state tests (R143 to R145) -/

theorem State.halting_openLoad (s : State) : s.halting .openLoad = true ↔ s.set.maskOpenLoad = .halt := decide_eq_true_iff

theorem State.fault_of_halting {k : FaultKind} (h : s.halting k = true) (ch : Channel) :
    s.fault k ch = (s.raiseFault k ch).halt k := if_pos h

theorem State.fault_of_not_halting {k : FaultKind} (h : s.halting k = false) (ch : Channel) :
    s.fault k ch = s.raiseFault k ch := if_neg (by rw [h]; decide)

theorem State.testComplete_rotation (hh : s.seq.homing = none) (hr : s.drv.rotTest = some .running) (pass : Bool) :
    s.testComplete pass = State.testResult
      { s with drv := { s.drv with rotation := nextChannel s.drv.rotation, rotTest := none } } s.drv.rotation pass := by
  rw [State.testComplete, hh]
  exact if_pos hr

theorem State.testComplete_homing {ch : Channel} (hh : s.seq.homing = some (.test ch)) (pass : Bool) :
    s.testComplete pass = (s.testResult ch pass).nextTest ch := by
  rw [State.testComplete, hh]

theorem exec_rotationTimerExpiry (h : s.resetHeld = false) : exec .rotationTimerExpiry s = .next s.rotationExpiry :=
  live_of_running h State.rotationExpiry

theorem State.driveState_driving (s : State) (ch : Channel) : s.driveState ch = .driving ↔ s.seq.driving ch = true := by
  unfold State.driveState
  split_ifs <;> simp_all

theorem channels_any (f : Channel → Bool) : channels.any f = true ↔ ∃ ch, f ch = true := by
  refine ⟨fun h => ?_, fun ⟨ch, h⟩ => ?_⟩
  · obtain ⟨ch, -, h⟩ := List.any_eq_true.mp h
    exact ⟨ch, h⟩
  · exact List.any_eq_true.mpr ⟨ch, by cases ch <;> decide, h⟩

/-- A mechanism whose homing has ended (R71). -/
abbrev State.homed (s : State) : State := { s with seq := { s.seq with homing := none } }

theorem State.homingEnd_of_ready (h : s.wheelCondition = .ready) : s.homingEnd = s.homed.enterReady := by
  unfold State.homingEnd
  dsimp only
  rw [show s.homed.wheelCondition = .ready from h]

theorem State.homingEnd_of_failing {c : WheelCondition} (h : s.wheelCondition = c) (hc : c ≠ .ready) :
    s.homingEnd = s.homed.enterWheelWait c := by
  unfold State.homingEnd
  dsimp only
  rw [show s.homed.wheelCondition = c from h]
  cases c <;> first | rfl | contradiction

/-- Settles O51: the tests by the place that asks for them, and the end of homing by the wheel condition. -/
theorem offStateTestsRunInHomingAndRotation : Obligations.OffStateTestsRunInHomingAndRotation := by
  refine ⟨fun s h => ?_, fun s ch hq hf hc => ?_⟩
  · intro rests
    have hany : channels.any s.seq.driving = true ↔ ∃ ch, s.driveState ch = .driving := by
      simp only [channels_any, State.driveState_driving]
    refine ⟨fun hno => ?_, fun hr hdriven => ?_, fun hr hidle => ?_⟩
    · rw [exec_rotationTimerExpiry h, State.rotationExpiry, if_neg hno]
    · rw [exec_rotationTimerExpiry h, State.rotationExpiry, if_pos hr, if_pos (hany.mpr hdriven)]
    · rw [exec_rotationTimerExpiry h, State.rotationExpiry, if_pos hr,
        if_neg (mt hany.mp (not_exists.mpr hidle))]
  · intro lift passed failed
    have hexec {pass : Bool} {t : State} (ht : s.testComplete pass = t) (hw : s.addsNoWait t) :
        exec (.offStateTestComplete pass) s = .next t.formImage :=
      exec_of_quiet (f := fun s => s.testComplete pass) (fun _ => rfl) hq ht hw
    refine ⟨fun hh hr hch => ?_, fun hst hh => ?_⟩
    · subst hch
      intro d f
      have htest := fun pass => State.testComplete_rotation hh hr pass
      have hfseq : f.seq = s.seq := State.raiseFault_seq _ _ _
      have hfcomp : f.comp = s.comp := by simp [f]
      refine ⟨hexec (htest true) (State.addsNoWait.of_comp rfl), fun hstays => hexec ((htest false).trans ?_)
        (State.addsNoWait.of_comp hfcomp), fun hmask hidle => hexec ((htest false).trans ?_)
        (State.addsNoWait.of_comp (by simp [State.changedTo, f]))⟩
      · set v : State := { s with drv := failed d }
        show v.fault .openLoad s.drv.rotation = f
        rcases hstays with hmask | hhalted
        · refine State.fault_of_not_halting (Bool.eq_false_iff.mpr fun hhalt => ?_) _
          exact absurd (v.halting_openLoad.mp hhalt) (by rw [show v.set = s.set from rfl, hmask]; decide)
        · have hstands : f.halt .openLoad = f := if_pos (hfseq ▸ hhalted)
          by_cases hhalt : v.halting .openLoad = true
          · exact (State.fault_of_halting hhalt _).trans hstands
          · exact State.fault_of_not_halting (Bool.eq_false_iff.mpr hhalt) _
      · set v : State := { s with drv := failed d }
        show v.fault .openLoad s.drv.rotation = _
        rw [State.fault_of_halting (v.halting_openLoad.mpr hmask)]
        show f.halt .openLoad = _
        rw [State.halt_of_resting (by rw [hfseq, hidle]; decide) (by rw [hfseq, hidle]; decide) (hfseq ▸ hf) (hfseq ▸ hc)
          (.inl (hfseq ▸ hh)), hfseq, ← hh]
    · intro p f
      have hfseq : f.seq = s.seq := State.raiseFault_seq _ _ _
      set v : State := { s with drv := failed s.drv }
      have htest := fun pass => State.testComplete_homing hh pass
      refine ⟨fun hmask => ?_, ?_⟩
      · have hhalts : s.testResult ch false = State.changedTo
            { f with seq := { s.seq with homing := none, lift := lift, liftTarget := none } } .halted (.fault .openLoad) := by
          show v.fault .openLoad ch = _
          rw [State.fault_of_halting (v.halting_openLoad.mpr hmask)]
          show f.halt .openLoad = _
          rw [State.halt_of_resting (by rw [hfseq, hst]; decide) (by rw [hfseq, hst]; decide) (hfseq ▸ hf) (hfseq ▸ hc)
            (.inr ⟨ch, hfseq ▸ hh⟩), hfseq]
        refine hexec ((htest false).trans ?_) (State.addsNoWait.of_comp (by simp [State.changedTo, f]))
        rw [hhalts]
        exact if_pos (by simp)
      · intro u pass hu
        have hresult : s.testResult ch pass = u := by
          rcases hu with ⟨hp, hu⟩ | ⟨hp, hu, hmask⟩
          · rw [hp, hu]
            rfl
          · rw [hp, hu]
            refine State.fault_of_not_halting (s := v) (Bool.eq_false_iff.mpr fun hhalt => ?_) ch
            exact absurd (v.halting_openLoad.mp hhalt) (by rw [show v.set = s.set from rfl, hmask]; decide)
        obtain ⟨hseq, hcomp, hset, htab⟩ : u.seq = s.seq ∧ u.comp = s.comp ∧ u.set = s.set ∧ u.tab = s.tab := by
          rcases hu with ⟨-, hu⟩ | ⟨-, hu, -⟩ <;> rw [hu] <;> simp [p, f]
        have hnext : s.testComplete pass = if ch = .paper then u.homingEnd
            else { u with seq := { u.seq with homing := some (.test (nextChannel ch)) } } := by
          rw [htest pass, hresult, State.nextTest, if_neg (by rw [hseq, hst]; decide)]
        refine ⟨fun hne => hexec (hnext.trans ?_) (State.addsNoWait.of_comp hcomp), fun hpaper => ?_⟩
        · rw [if_neg hne, hseq]
        · intro e mismatch ready
          rw [if_pos hpaper] at hnext
          have he : u.homed = e := by
            show ({ u with seq := { u.seq with homing := none } } : State) = { u with seq := { s.seq with homing := none } }
            rw [hseq]
          have hestate : e.seq.state = .homing := hst
          have hactive : u.active .wheelMap = s.active .wheelMap := by
            simp only [State.active, State.selection, htab, hseq]
          have hexpected : (u.set.expectedWheel ≠ 0 ∧ u.set.expectedWheel ≠ u.seq.wheelCode) = mismatch := by
            rw [hset, hseq]
          have hready (hr : ready) : s.testComplete pass = e.enterReady := by
            rw [hnext, State.homingEnd_of_ready (State.wheelCondition_ready (hexpected ▸ hr.1) (hactive ▸ hr.2)), he]
          have hewait : s.addsNoWait e := State.addsNoWait.of_comp hcomp
          refine ⟨fun hm => ?_, fun hm hno => ?_, fun hr r hreq => ?_, fun hr hreq hempty => ?_, fun hr hreq hqueue => ?_⟩
          · refine hexec (hnext.trans ?_) (State.addsNoWait.of_comp (by simpa [State.changedTo] using hcomp))
            rw [State.homingEnd_of_failing (State.wheelCondition_mismatch (hexpected ▸ hm)) (by decide), he,
              State.enterWheelWait_mismatch (by rw [hestate]; decide), show e.set = s.set from hset]
          · refine hexec (hnext.trans ?_) (State.addsNoWait.of_comp (by simpa [State.changedTo] using hcomp))
            rw [State.homingEnd_of_failing (State.wheelCondition_noMap (hexpected ▸ hm) (hactive ▸ hno)) (by decide), he,
              State.enterWheelWait_noMap (by rw [hestate]; decide)]
          · refine hexec ((hready hr).trans ?_) (State.addsNoWait.of_comp (by simpa [State.changedTo] using hcomp))
            rw [State.enterReady, show e.seq.pauseReq = some r from hreq, ← PauseReason.reason_eq]
            exact State.enter_of_ne (s := { e with seq := { e.seq with pauseReq := none } })
              (by rw [show State.seq _ = _ from rfl]; exact fun hp => absurd (hestate.symm.trans hp) (by decide)) _
          · refine hexec ((hready hr).trans ?_) (State.addsNoWait.of_comp (by simpa [State.changedTo] using hcomp))
            exact State.enterReady_idle hreq hempty (by rw [hestate]; decide)
          · refine hexec ((hready hr).trans ?_) ?_
            · exact State.enterReady_running hreq hqueue (by rw [hestate]; decide)
            · exact hewait.trans (State.addsNoWait.trans (State.addsNoWait.of_comp (by simp [State.changedTo]))
                (State.runQueue_addsNoWait _))

end Sys2Proof.Machine
end

section
/-! PROOF of O50. Faults and what they stop: the motions cut on the way, the order left at the head, and the
mechanism HALTED. -/

namespace Sys2Proof.Machine

variable {s t u : State}

/-! ### Motions stopped on the way (R74, R81) -/

/-- A place on the way from the place `a`, where it is known, to `b`. -/
def onTheWay (a : Option Nat) (b : Nat) (c : Option Nat) : Prop :=
  (a = none → c = none) ∧ ∀ x, a = some x → ∃ y, c = some y ∧ min x b ≤ y ∧ y ≤ max x b

theorem along_between {a b k : Nat} (h : k ≤ dist a b) : min a b ≤ along a b k ∧ along a b k ≤ max a b := by
  unfold along
  unfold dist at h
  split_ifs at h ⊢ <;> omega

theorem State.stopCarriage_spec (s : State) (dest : Nat) : ∃ c n,
    s.stopCarriage dest = { s with free := n, seq := { s.seq with carriage := c } } ∧ onTheWay s.seq.carriage dest c := by
  unfold State.stopCarriage
  split
  case h_1 h => exact ⟨none, s.free, by rw [← h], fun _ => rfl, by simp [h]⟩
  case h_2 a h =>
    refine ⟨_, _, rfl, by simp [h], fun x hx => ⟨_, rfl, ?_⟩⟩
    obtain rfl : a = x := Option.some.inj (h.symm.trans hx)
    exact along_between (Nat.le_of_lt_succ (Nat.mod_lt _ (Nat.succ_pos _)))

theorem State.stopWheel_spec (s : State) (dest : Nat) : ∃ p n,
    s.stopWheel dest = { s with free := n, seq := { s.seq with petal := p } } := by
  unfold State.stopWheel
  split
  case h_1 h => exact ⟨none, s.free, by rw [← h]⟩
  case h_2 => exact ⟨_, _, rfl⟩

theorem State.stopTurning_spec (s : State) : ∃ p n,
    s.stopTurning = { s with free := n, seq := { s.seq with petal := p } } := by
  unfold State.stopTurning
  split
  case h_1 h => exact ⟨none, s.free, by rw [← h]⟩
  case h_2 => exact ⟨_, _, rfl⟩

/-- The half-lines that a stopped motion has made (R81). -/
theorem State.stopPaper_index {k : Nat} {c : Int} {rest : List Order} (hq : s.seq.queue = .index c :: rest) (hk : 0 < k)
    (hc : c ≠ 0) : ∃ m n, 0 < m ∧ m ≤ k ∧
      let d : Int := if 0 < c then m else -(m : Int)
      s.stopPaper k = { s with free := n, seq := { s.seq with
        flight := none
        paperPos := ((s.seq.paperPos + d) % (2 * s.set.pageLength : Nat)).toNat
        queue := if m = k then rest else .index (c - d) :: rest
        heatCounted := if m = k then false else s.seq.heatCounted } } := by
  obtain ⟨j, w, hdraw⟩ : ∃ j w, s.drawReached (k - 1) = (j, { s with free := w }) := ⟨_, _, rfl⟩
  refine ⟨min k (j + 1), w, by omega, by omega, ?_⟩
  have hsign : (0 ≤ c) = (0 < c) := by
    apply propext
    omega
  rw [State.stopPaper, hdraw]
  dsimp only
  rw [hq]
  simp only [hsign]
  split
  case isTrue => rfl
  case isFalse => rfl

theorem State.stopPaper_page {k : Nat} {rest : List Order} (hq : s.seq.queue = .indexPage :: rest) (hk : 0 < k) :
    ∃ m n, 0 < m ∧ m ≤ k ∧
      s.stopPaper k = { s with free := n, seq := { s.seq with
        flight := none
        paperPos := (s.seq.paperPos + m) % (2 * s.set.pageLength)
        queue := if m = k then rest else .indexPage :: rest
        heatCounted := if m = k then false else s.seq.heatCounted } } := by
  obtain ⟨j, w, hdraw⟩ : ∃ j w, s.drawReached (k - 1) = (j, { s with free := w }) := ⟨_, _, rfl⟩
  refine ⟨min k (j + 1), w, by omega, by omega, ?_⟩
  have hpos : State.paperAfter { s with free := w } (min k (j + 1) : Nat) =
      (s.seq.paperPos + min k (j + 1)) % (2 * s.set.pageLength) := by
    rw [State.paperAfter, ← Int.natCast_add, ← Int.natCast_mod, Int.toNat_natCast]
    rfl
  rw [State.stopPaper, hdraw]
  dsimp only
  rw [hq]
  dsimp only
  rw [hpos]
  split
  case isTrue => rfl
  case isFalse => rfl

/-! ### Orders and homing abandoned (R85, R87) -/

/-- The line record once the order at the head has left flight (R94). -/
def State.lineBack (s : State) (o : Order) : LineRecord :=
  match o with
  | .strike _ _ _ ref num => { s.line with
      entries := Machine.strikeSet s.line.entries ref num (fun k => if k = .inFlight then .waiting else k) }
  | _ => s.line

theorem State.reportLeftFlight_eq (s : State) (o : Order) : s.reportLeftFlight o = { s with line := s.lineBack o } := by
  cases o
  case strike => exact State.reportStrike_eq _ _ _ _
  all_goals rfl

theorem State.lineBack_strike (s : State) (o : Order) : ∀ code p role ref num, o = .strike code p role ref num →
    s.lineBack o = { s.line with
      entries := Machine.strikeSet s.line.entries ref num (fun k => if k = .inFlight then .waiting else k) } := by
  rintro code p role ref num rfl
  rfl

theorem State.lineBack_other (s : State) (o : Order) (h : ∀ code p role ref num, o ≠ .strike code p role ref num) :
    s.lineBack o = s.line := by
  cases o
  case strike => exact absurd rfl (h _ _ _ _ _)
  all_goals rfl

theorem State.lineBack_congr (h : t.line = s.line) (o : Order) : t.lineBack o = s.lineBack o := by
  simp only [State.lineBack, h]

theorem State.abandonFlight_of_resting (hf : s.seq.flight = none) (hc : s.seq.coverStop = false) : s.abandonFlight = s := by
  rw [State.abandonFlight_of_none hf, ← hf, ← hc]

section Abandoned

variable {o : Order} {rest : List Order} (hq : s.seq.queue = o :: rest)
include hq

theorem State.abandonFlight_position {petal level us : Nat} (hf : s.seq.flight = some (.position petal level us)) :
    ∃ c p n, s.abandonFlight = { s with free := n, line := s.lineBack o, seq := { s.seq with
      carriage := c, petal := p, flight := none, coverStop := false } } ∧ onTheWay s.seq.carriage o.pos c := by
  obtain ⟨c, n, hc, hway⟩ := s.stopCarriage_spec o.pos
  obtain ⟨p, m, hp⟩ := (s.stopCarriage o.pos).stopWheel_spec petal
  refine ⟨c, p, m, ?_, hway⟩
  rw [State.abandonFlight, hf, hq]
  dsimp only
  rw [hp, hc, State.reportLeftFlight_eq]
  rfl

theorem State.abandonFlight_moving {us : Nat} (hf : s.seq.flight = some (.moving us)) :
    ∃ c n, s.abandonFlight = { s with free := n, line := s.lineBack o, seq := { s.seq with
      carriage := c, flight := none, coverStop := false } } ∧ onTheWay s.seq.carriage o.pos c := by
  obtain ⟨c, n, hc, hway⟩ := s.stopCarriage_spec o.pos
  refine ⟨c, n, ?_, hway⟩
  rw [State.abandonFlight, hf, hq]
  dsimp only
  rw [hc, State.reportLeftFlight_eq]
  rfl

/-- An order that no motion carries is merely taken out of flight. -/
theorem State.abandonFlight_still {f : Flight} (hf : s.seq.flight = some f)
    (hstill : (∃ petal level us, f = .pulse petal level us) ∨ ∃ petal level, f = .heatWait petal level) :
    s.abandonFlight = { s with
      line := s.lineBack o, seq := { s.seq with flight := none, coverStop := false } } := by
  rw [State.abandonFlight, hf, hq]
  rcases hstill with ⟨petal, level, us, rfl⟩ | ⟨petal, level, rfl⟩
  · exact State.reportLeftFlight_eq _ _
  · exact State.reportLeftFlight_eq _ _

end Abandoned

theorem State.abandonFlight_index {k us : Nat} {c : Int} {rest : List Order} (hq : s.seq.queue = .index c :: rest)
    (hf : s.seq.flight = some (.indexing k us)) (hk : 0 < k) (hc : c ≠ 0) : ∃ m n, 0 < m ∧ m ≤ k ∧
      let d : Int := if 0 < c then m else -(m : Int)
      s.abandonFlight = { s with free := n, line := s.line, seq := { s.seq with
        flight := none, coverStop := false
        paperPos := ((s.seq.paperPos + d) % (2 * s.set.pageLength : Nat)).toNat
        queue := if m = k then rest else .index (c - d) :: rest
        heatCounted := if m = k then false else s.seq.heatCounted } } := by
  obtain ⟨m, n, hm, hmk, hpaper⟩ := State.stopPaper_index hq hk hc
  refine ⟨m, n, hm, hmk, ?_⟩
  rw [State.abandonFlight, hf, hq]
  dsimp only
  rw [hpaper]
  rfl

theorem State.abandonFlight_page {k us : Nat} {rest : List Order} (hq : s.seq.queue = .indexPage :: rest)
    (hf : s.seq.flight = some (.indexing k us)) (hk : 0 < k) : ∃ m n, 0 < m ∧ m ≤ k ∧
      s.abandonFlight = { s with free := n, line := s.line, seq := { s.seq with
        flight := none, coverStop := false
        paperPos := (s.seq.paperPos + m) % (2 * s.set.pageLength)
        queue := if m = k then rest else .indexPage :: rest
        heatCounted := if m = k then false else s.seq.heatCounted } } := by
  obtain ⟨m, n, hm, hmk, hpaper⟩ := State.stopPaper_page hq hk
  refine ⟨m, n, hm, hmk, ?_⟩
  rw [State.abandonFlight, hf, hq]
  dsimp only
  rw [hpaper]
  rfl

/-- The motion of a step of homing stopped (R69). -/
def State.homingStopped (s : State) : Homing → State
  | .home => s.stopCarriage 0
  | .ret target => s.stopCarriage target
  | .index => s.stopTurning
  | .ident _ => s.stopTurning
  | .test _ => s

theorem State.abandonHoming_eq {h : Homing} (hh : s.seq.homing = some h) : s.abandonHoming =
    State.stopLift { s.homingStopped h with seq := { (s.homingStopped h).seq with homing := none } } := by
  rw [State.abandonHoming, hh]
  cases h <;> rfl

theorem State.abandonHoming_spec {h : Homing} (hh : s.seq.homing = some h) : ∃ c p n,
    s.abandonHoming = { s with free := n, seq := { s.seq with
      homing := none, carriage := c, petal := p
      lift := if s.seq.liftTarget = none then s.seq.lift else none, liftTarget := none } } ∧
    (h ≠ .home → (∀ x, h ≠ .ret x) → c = s.seq.carriage) ∧ (h ≠ .index → (∀ l, h ≠ .ident l) → p = s.seq.petal) := by
  have hstops {v : State} {c p : Option Nat} {n : Nat} (hv : s.homingStopped h = v)
      (hs : v = { s with free := n, seq := { s.seq with carriage := c, petal := p } }) :
      s.abandonHoming = { s with free := n, seq := { s.seq with
        homing := none, carriage := c, petal := p
        lift := if s.seq.liftTarget = none then s.seq.lift else none, liftTarget := none } } := by
    rw [State.abandonHoming_eq hh, hv, hs, State.stopLift_eq]
  cases h with
  | home =>
    obtain ⟨c, n, hc, -⟩ := s.stopCarriage_spec 0
    exact ⟨c, s.seq.petal, n, hstops rfl hc, fun h => absurd rfl h, fun _ _ => rfl⟩
  | ret x =>
    obtain ⟨c, n, hc, -⟩ := s.stopCarriage_spec x
    exact ⟨c, s.seq.petal, n, hstops rfl hc, fun _ h => absurd rfl (h x), fun _ _ => rfl⟩
  | index =>
    obtain ⟨p, n, hp⟩ := s.stopTurning_spec
    exact ⟨s.seq.carriage, p, n, hstops rfl hp, fun _ _ => rfl, fun h => absurd rfl h⟩
  | ident l =>
    obtain ⟨p, n, hp⟩ := s.stopTurning_spec
    exact ⟨s.seq.carriage, p, n, hstops rfl hp, fun _ _ => rfl, fun _ h => absurd rfl (h l)⟩
  | test ch => exact ⟨s.seq.carriage, s.seq.petal, s.free, hstops rfl rfl, fun _ _ => rfl, fun _ _ => rfl⟩

/-! ### The fault list (R148) -/

theorem State.raiseFault_of_listed {k : FaultKind} {ch : Channel} {r : FaultRec}
    (h : s.drv.faults.find? (fun f => f.kind = k && f.ch = ch) = some r) :
    s.raiseFault k ch =
      let u := { s with drv := { s.drv with faults := s.drv.faults.map (fun f =>
        if f.kind = k ∧ f.ch = ch then { f with occ := min 255 (r.occ + 1), isPresent := true } else f) } }
      if r.isPresent then u else u.event (.faultRaised k ch (min 255 (r.occ + 1))) := by
  rw [State.raiseFault, findFault, h]
  rfl

theorem State.raiseFault_of_unlisted {k : FaultKind} {ch : Channel} (h : ∀ f ∈ s.drv.faults, ¬(f.kind = k ∧ f.ch = ch)) :
    s.raiseFault k ch = if s.drv.faults.length < 8 then
        State.event { s with drv := { s.drv with faults := s.drv.faults ++ [⟨k, ch, 1, true⟩] } } (.faultRaised k ch 1)
      else s.raise .faultsUnlisted := by
  have hnone : findFault s.drv.faults k ch = none :=
    List.find?_eq_none.mpr fun f hf => by simpa using h f hf
  rw [State.raiseFault, hnone]
  rfl

/-! ### HALTED (R87, R149) -/

theorem Sequencer.pauseKept_congr {p q : Sequencer} (hst : p.state = q.state) (hr : p.reason = q.reason)
    (hp : p.pauseReq = q.pauseReq) : p.pauseKept = q.pauseKept := by
  simp only [Sequencer.pauseKept, hst, hr, hp]

/-- A halt, once the motions that it stops are known (R87). -/
theorem State.halt_of_abandoned {q : Sequencer} {l : LineRecord} {n : Nat} (hst : s.seq.state ≠ .halted)
    (ha : s.abandonFlight.abandonHoming.stopLift = { s with free := n, seq := q, line := l })
    (hq : q.state = s.seq.state ∧ q.reason = s.seq.reason ∧ q.pauseReq = s.seq.pauseReq) (k : FaultKind) :
    s.halt k = State.changedTo
      { s with free := n, seq := { q with pauseReq := s.seq.pauseKept }, line := l } .halted (.fault k) := by
  obtain ⟨hstate, hreason, hpause⟩ := hq
  rw [State.halt, if_neg hst, ha]
  dsimp only
  rw [Sequencer.pauseToRequest_kept, Sequencer.pauseKept_congr hstate hreason hpause]
  exact State.enter_of_ne (s := { s with free := n, seq := { q with pauseReq := s.seq.pauseKept }, line := l })
    (by rw [← hstate] at hst; exact hst) _

/-- The lift stopped with whatever else a halt stops. -/
def Sequencer.liftStopped (q : Sequencer) : Sequencer :=
  { q with lift := if q.liftTarget = none then q.lift else none, liftTarget := none }

/-- OVERCURRENT on a driven channel, in terms of the order and the motions that it stops (R146). -/
theorem exec_overcurrent {ch : Channel} {q : Sequencer} {l : LineRecord} {n : Nat} (hq : s.quiet)
    (hd : s.seq.driving ch = true) (hst : s.seq.state ≠ .halted)
    (ha : (s.raiseFault .overcurrent ch).abandonFlight.abandonHoming.stopLift =
      { s.raiseFault .overcurrent ch with free := n, seq := q, line := l })
    (hsame : q.state = s.seq.state ∧ q.reason = s.seq.reason ∧ q.pauseReq = s.seq.pauseReq) :
    ∃ t, (let f := s.raiseFault .overcurrent ch
       let v := f.event (.mechState .halted (.fault .overcurrent))
       exec (.overcurrent ch) s = .next t ∧
         t.seq = { q with state := .halted, reason := .fault .overcurrent, pauseReq := s.seq.pauseKept } ∧
         t.ret = v.ret ∧ t.ctr = v.ctr ∧ t.drv = { f.drv with rotTest := none } ∧
         s.keeps t [.free, .seq, .drv, .line, .ret, .ctr, .image] ∧ s.imageFollows t) ∧ t.line = l := by
  set f := s.raiseFault .overcurrent ch with hf
  have hfseq : f.seq = s.seq := State.raiseFault_seq _ _ _
  have hhalt := State.halt_of_abandoned (s := f) (hfseq ▸ hst) ha (hfseq ▸ hsame) .overcurrent
  set w : State := { f with free := n, seq := { q with pauseReq := s.seq.pauseKept }, line := l } with hw
  have hhalts : s.overcurrent ch = w.changedTo .halted (.fault .overcurrent) := by
    rw [State.overcurrent, if_pos hd, State.fault_of_halting rfl, ← hf, hhalt, hfseq]
  have hkeeps : s.keeps (w.changedTo .halted (.fault .overcurrent)) [.free, .seq, .drv, .line, .ret, .ctr] := by
    intro p hp
    cases p <;> simp_all [State.same, State.changedTo]
  have hwait : s.addsNoWait (w.changedTo .halted (.fault .overcurrent)) :=
    State.addsNoWait.of_comp (by simp [hw, hf, State.changedTo])
  obtain ⟨hret, hctr⟩ := State.changedTo_reports (s := w) (t := f) rfl rfl .halted (.fault .overcurrent)
  refine ⟨_, ⟨exec_of_quiet (f := fun s => s.overcurrent ch) (fun _ => rfl) hq hhalts hwait, ?_, ?_, ?_, ?_,
    State.keeps.ends hkeeps (by decide) (by decide)⟩, ?_⟩
  · simp [hw]
  · simpa using hret
  · simpa using hctr
  · simp [hw]
  · simp [hw, State.changedTo]

/-- Nothing of homing is abandoned with an order in flight (R87). -/
theorem State.abandon_order {q : Sequencer} {l : LineRecord} {n : Nat}
    (h : s.abandonFlight = { s with free := n, line := l, seq := q }) (hh : q.homing = none) :
    s.abandonFlight.abandonHoming.stopLift = { s with free := n, line := l, seq := { q.liftStopped with homing := none } } := by
  rw [h, State.abandonHoming_of_none hh, State.stopLift_eq, ← hh]
  rfl

/-- No order is abandoned while the mechanism homes (R87). -/
theorem State.abandon_homing {h : Homing} (hf : s.seq.flight = none) (hh : s.seq.homing = some h) : ∃ c p n,
    s.abandonFlight.abandonHoming.stopLift = { s with free := n, seq := { s.seq.liftStopped with
      flight := none, coverStop := false, homing := none, carriage := c, petal := p } } ∧
    (h ≠ .home → (∀ x, h ≠ .ret x) → c = s.seq.carriage) ∧ (h ≠ .index → (∀ l, h ≠ .ident l) → p = s.seq.petal) := by
  have hflight := State.abandonFlight_of_none hf
  obtain ⟨c, p, n, hspec, hc, hp⟩ := State.abandonHoming_spec (s := s.abandonFlight) (h := h) (by rw [hflight]; exact hh)
  rw [hflight] at hc hp
  refine ⟨c, p, n, ?_, hc, hp⟩
  rw [hspec, State.stopLift_eq, hflight]
  rfl

/-- A homing whose motion has nothing known to stop is abandoned where it stands. -/
theorem State.abandonHoming_of_unknown (h : s.seq.homing = some .home ∧ s.seq.carriage = none ∨
    s.seq.homing = some .index ∧ s.seq.petal = none) :
    s.abandonHoming = { s with seq := { s.seq.liftStopped with homing := none } } := by
  rcases h with ⟨hh, hc⟩ | ⟨hh, hp⟩
  · rw [State.abandonHoming_eq hh, State.homingStopped, State.stopCarriage, hc, State.stopLift_eq]
    rfl
  · rw [State.abandonHoming_eq hh, State.homingStopped, State.stopTurning, hp, State.stopLift_eq]
    rfl

/-- A fault that ends homing, with the part that it concerns already unknown (R87, R147). -/
theorem State.homingFault_eq {k : FaultKind} {ch : Channel} (hst : s.seq.state = .homing) (hf : s.seq.flight = none)
    (hc : s.seq.coverStop = false) (hh : s.seq.homing = some .home ∧ s.seq.carriage = none ∨
      s.seq.homing = some .index ∧ s.seq.petal = none) :
    let f := s.raiseFault k ch
    s.homingFault k ch = if s.halting k then State.changedTo { f with seq := { f.seq with
          homing := none, lift := if s.seq.liftTarget = none then s.seq.lift else none, liftTarget := none } }
          .halted (.fault k)
      else State.changedTo { f with seq := { f.seq with homing := none } } .unhomed .none := by
  intro f
  have hfseq : f.seq = s.seq := State.raiseFault_seq _ _ _
  rw [State.homingFault]
  split
  case isTrue hhalt =>
    rw [State.fault_of_halting hhalt]
    have habandon : f.abandonFlight.abandonHoming.stopLift = { f with
        free := f.free, line := f.line, seq := { f.seq.liftStopped with homing := none } } := by
      rw [State.abandonFlight_of_resting (hfseq ▸ hf) (hfseq ▸ hc), State.abandonHoming_of_unknown (hfseq ▸ hh),
        State.stopLift_eq]
      rfl
    have hkept : f.seq.pauseKept = f.seq.pauseReq := if_neg fun hp => by
      rw [hfseq, hst] at hp
      exact absurd hp.1 (by decide)
    show f.halt k = _
    rw [State.halt_of_abandoned (s := f) (by rw [hfseq, hst]; decide) habandon ⟨rfl, rfl, rfl⟩ k, hkept, ← hfseq]
    rfl
  case isFalse hhalt =>
    rw [State.fault_of_not_halting (Bool.eq_false_iff.mpr hhalt)]
    exact State.enter_of_ne (s := { f with seq := { f.seq with homing := none } }) (by
      show f.seq.state ≠ _
      rw [hfseq, hst]; decide) _

/-- Settles O50: a fault by its record, and what it stops by what is driven. -/
theorem faultsAreListedAndStopTheMechanism : Obligations.FaultsAreListedAndStopTheMechanism := by
  refine ⟨fun s k ch => ⟨fun r hr => State.raiseFault_of_listed hr, fun hno => ⟨fun hroom => ?_, fun hfull => ?_⟩⟩,
    fun s hq => ?_⟩
  · rw [State.raiseFault_of_unlisted hno, if_pos hroom]
  · rw [State.raiseFault_of_unlisted hno, if_neg hfull.not_gt]
    rfl
  intro lift
  refine ⟨fun hst hf hc => ⟨fun hh => ?_, fun hh => ?_⟩, ?_, ?_⟩
  · intro f
    have hlost : s.homeLost = State.homingFault { s with seq := { s.seq with carriage := none } } .homeNotFound .carriage :=
      if_pos hh
    have hends := State.homingFault_eq (s := { s with seq := { s.seq with carriage := none } }) (k := .homeNotFound)
      (ch := .carriage) hst hf hc (.inl ⟨hh, rfl⟩)
    refine ⟨fun hmask => ?_, fun hmask => ?_⟩
    · refine exec_of_quiet (fun _ => rfl) hq (hlost.trans (hends.trans (if_pos ?_)))
        (State.addsNoWait.of_comp (by simp [State.changedTo, f]))
      exact decide_eq_true hmask
    · refine exec_of_quiet (fun _ => rfl) hq (hlost.trans (hends.trans (if_neg ?_)))
        (State.addsNoWait.of_comp (by simp [State.changedTo, f]))
      exact fun hhalt => absurd (hmask.symm.trans (of_decide_eq_true hhalt)) (by decide)
  · intro f
    have hlost : s.indexLost = State.homingFault { s with seq := { s.seq with petal := none } } .wheelIndexLost .wheel :=
      if_pos hh
    have hends := State.homingFault_eq (s := { s with seq := { s.seq with petal := none } }) (k := .wheelIndexLost)
      (ch := .wheel) hst hf hc (.inr ⟨hh, rfl⟩)
    refine ⟨fun hmask => ?_, fun hmask => ?_⟩
    · refine exec_of_quiet (fun _ => rfl) hq (hlost.trans (hends.trans (if_pos ?_)))
        (State.addsNoWait.of_comp (by simp [State.changedTo, f]))
      exact decide_eq_true hmask
    · refine exec_of_quiet (fun _ => rfl) hq (hlost.trans (hends.trans (if_neg ?_)))
        (State.addsNoWait.of_comp (by simp [State.changedTo, f]))
      exact fun hhalt => absurd (hmask.symm.trans (of_decide_eq_true hhalt)) (by decide)
  · intro ch hd
    have hstill : s.overcurrent ch = s := if_neg fun h => hd ((s.driveState_driving ch).mpr h)
    exact exec_of_quiet (f := fun s => s.overcurrent ch) (fun _ => rfl) hq hstill (State.addsNoWait.of_comp rfl)
  · intro cuts q between
    have hlift : lift = s.seq.liftStopped.lift := rfl
    refine ⟨fun hst hh o rest hqueue => ?_, fun hst hf h ch hh hd => ?_, fun hne hhalt hf hh hl => ?_⟩
    · intro back
      have hcuts {ch : Channel} {q' : Sequencer} {l : LineRecord} {n : Nat} (hd : s.seq.driving ch = true)
          (ha : (s.raiseFault .overcurrent ch).abandonFlight =
            { s.raiseFault .overcurrent ch with free := n, line := l, seq := q' })
          (hsame : q'.state = s.seq.state ∧ q'.reason = s.seq.reason ∧ q'.pauseReq = s.seq.pauseReq)
          (hnone : q'.homing = none) :
          ∃ t, cuts ch { q'.liftStopped with homing := none } t ∧ t.line = l :=
        exec_overcurrent hq hd (by rw [hst]; decide) (State.abandon_order ha hnone) hsame
      have hback {t : State} (ht : t.line = s.lineBack o) : back t :=
        ⟨fun code p role ref num ho => ht.trans (s.lineBack_strike o code p role ref num ho),
          fun ho => ht.trans (s.lineBack_other o ho)⟩
      have hdrivenLift (hl : s.seq.liftTarget.isSome) : s.seq.driving .lift = true := hl
      have hfault (ch : Channel) : (s.raiseFault .overcurrent ch).seq = s.seq ∧
          (s.raiseFault .overcurrent ch).line = s.line ∧ (s.raiseFault .overcurrent ch).set = s.set := by simp
      have hqueues (ch : Channel) : (s.raiseFault .overcurrent ch).seq.queue = o :: rest := by rw [(hfault ch).1, hqueue]
      have hflies {f : Flight} (hf : s.seq.flight = some f) (ch : Channel) :
          (s.raiseFault .overcurrent ch).seq.flight = some f := by rw [(hfault ch).1, hf]
      have hlines (ch : Channel) : (s.raiseFault .overcurrent ch).lineBack o = s.lineBack o :=
        State.lineBack_congr (hfault ch).2.1 o
      refine ⟨fun petal level us hf => ?_, fun petal level us ch hf hd => ?_, fun us p ch hf ho hd => ?_,
        fun k us ch hf hd => ?_⟩
      · have ha := State.abandonFlight_still (hqueues .hammer) (hflies hf .hammer) (.inl ⟨_, _, _, rfl⟩)
        rw [(hfault .hammer).1, hlines] at ha
        obtain ⟨t, ht, hl⟩ := hcuts (by rw [Sequencer.driving, hf]) ha ⟨rfl, rfl, rfl⟩ hh
        exact ⟨t, ht, hback hl⟩
      · obtain ⟨c, p, n, ha, hway⟩ := State.abandonFlight_position (hqueues ch) (hflies hf ch)
        rw [(hfault ch).1, hlines] at ha
        rw [(hfault ch).1] at hway
        have hdriven : s.seq.driving ch = true := by
          rcases hd with ⟨rfl, hc⟩ | ⟨rfl, hp⟩ | ⟨rfl, hl⟩
          · simpa [Sequencer.driving, hf, Sequencer.headPos, hqueue] using .inl hc
          · simpa [Sequencer.driving, hf] using .inl hp
          · exact hl
        obtain ⟨t, ht, hl⟩ := hcuts hdriven ha ⟨rfl, rfl, rfl⟩ hh
        exact ⟨t, c, p, ht, hback hl, hway⟩
      · obtain ⟨c, n, ha, hway⟩ := State.abandonFlight_moving (hqueues ch) (hflies hf ch)
        rw [(hfault ch).1, hlines] at ha
        rw [(hfault ch).1, ho] at hway
        have hdriven : s.seq.driving ch = true := by
          rcases hd with rfl | ⟨rfl, hl⟩
          · simp [Sequencer.driving, hf]
          · exact hl
        obtain ⟨t, ht, hl⟩ := hcuts hdriven ha ⟨rfl, rfl, rfl⟩ hh
        exact ⟨t, c, ht, hl.trans (s.lineBack_other o (by rw [ho]; exact nofun)), hway⟩
      · have hdriven : s.seq.driving ch = true := by
          rcases hd with rfl | ⟨rfl, hl⟩
          · simp [Sequencer.driving, hf]
          · exact hl
        obtain ⟨hfseq, hfline, hfset⟩ := hfault ch
        refine ⟨fun c ho hk hc => ?_, fun ho hk => ?_⟩
        · obtain ⟨m, n, hm, hmk, ha⟩ := State.abandonFlight_index (s := s.raiseFault .overcurrent ch) (ho ▸ hqueues ch)
            (hflies hf ch) (by omega) hc
          rw [hfseq] at ha
          obtain ⟨t, ht, hl⟩ := hcuts hdriven ha ⟨rfl, rfl, rfl⟩ hh
          rw [hfset] at ht
          exact ⟨t, m, hm, hmk, hl.trans hfline, ht⟩
        · obtain ⟨m, n, hm, hmk, ha⟩ := State.abandonFlight_page (s := s.raiseFault .overcurrent ch) (ho ▸ hqueues ch)
            (hflies hf ch) hk
          rw [hfseq] at ha
          obtain ⟨t, ht, hl⟩ := hcuts hdriven ha ⟨rfl, rfl, rfl⟩ hh
          rw [hfset] at ht
          exact ⟨t, m, hm, hmk, hl.trans hfline, ht⟩
    · have hfseq : (s.raiseFault .overcurrent ch).seq = s.seq := State.raiseFault_seq _ _ _
      have hdriven : s.seq.driving ch = true := by
        rcases hd with ⟨rfl, rfl | ⟨x, rfl⟩⟩ | ⟨rfl, rfl | ⟨l, rfl⟩⟩ | ⟨rfl, hl⟩
        · simp [Sequencer.driving, hh]
        · simp [Sequencer.driving, hh]
        · simp [Sequencer.driving, hh]
        · simp [Sequencer.driving, hh]
        · exact hl
      obtain ⟨c, p, n, ha, hc, hp⟩ := State.abandon_homing (s := s.raiseFault .overcurrent ch) (hfseq ▸ hf) (hfseq ▸ hh)
      rw [hfseq] at ha hc hp
      obtain ⟨t, ht, hl⟩ := exec_overcurrent (l := (s.raiseFault .overcurrent ch).line) hq hdriven (by rw [hst]; decide) ha
        ⟨rfl, rfl, rfl⟩
      exact ⟨t, c, p, ht, hl.trans (by simp), hc, hp⟩
    · have hfseq : (s.raiseFault .overcurrent .lift).seq = s.seq := State.raiseFault_seq _ _ _
      have ha := State.abandon_order (s := s.raiseFault .overcurrent .lift)
        (State.abandonFlight_of_none (hfseq ▸ hf)) (by rw [hfseq]; exact hh)
      rw [hfseq] at ha
      obtain ⟨t, ht, hl⟩ := exec_overcurrent hq (show s.seq.driving .lift = true from hl) hhalt ha ⟨rfl, rfl, rfl⟩
      exact ⟨t, ht, hl.trans (by simp)⟩

end Sys2Proof.Machine
end

section
/-! PROOF of O48. The cover: what its opening stops, what runs on through it, and what its closing starts. -/

namespace Sys2Proof.Machine

variable {s t u : State}

/-! ### An order that runs on through the opening (R85)

That it does so is noted in `coverStop`, which neither the Correction Unit nor the Spelling Unit reads. -/

/-- The state with the note that an order runs on through the opening of the cover. -/
abbrev State.stopping (s : State) (b : Bool) : State := { s with seq := { s.seq with coverStop := b } }

section Stopping

variable (b : Bool)

theorem State.setRefs_stopping (s : State) (refs : List (Word × List Nat)) :
    (s.stopping b).setRefs refs = (s.setRefs refs).stopping b := by
  unfold State.setRefs
  dsimp only
  cases s.comp.modeInEffect <;> rfl

theorem State.dropOldest_stopping (s : State) : (s.stopping b).dropOldest = s.dropOldest.stopping b := by
  unfold State.dropOldest
  dsimp only
  cases hq : s.spell.checkq with
  | nil => rfl
  | cons e rest =>
    dsimp only
    split <;> rfl

theorem State.pumpEngine_stopping (s : State) : (s.stopping b).pumpEngine = s.pumpEngine.stopping b := by
  unfold State.pumpEngine
  dsimp only
  cases s.spell.engine <;> rfl

theorem State.appendCheck_stopping (s : State) (n : Word) : (s.stopping b).appendCheck n = (s.appendCheck n).stopping b := by
  unfold State.appendCheck
  dsimp only
  rw [State.dropOldest_stopping]
  cases findWord s.dropOldest.spell.words n with
  | none => rfl
  | some w => exact State.pumpEngine_stopping b { s.dropOldest with spell := { s.dropOldest.spell with
      words := changeWord s.dropOldest.spell.words n (fun w => { w with verdict := .pending })
      checkq := s.dropOldest.spell.checkq ++ [(n, w.gen)] } }

theorem State.enterQueue_stopping (s : State) (n : Word) : (s.stopping b).enterQueue n = (s.enterQueue n).stopping b := by
  unfold State.enterQueue
  rw [State.appendCheck_stopping]
  dsimp only
  split <;> rfl

theorem State.checkWord_stopping (s : State) (n : Word) : (s.stopping b).checkWord n = (s.checkWord n).stopping b := by
  have hstep (w : SpellWord) : (s.stopping b).checkStep w = s.checkStep w := rfl
  unfold State.checkWord
  simp only [hstep]
  cases findWord s.spell.words n with
  | none => rfl
  | some w =>
    dsimp only
    cases s.checkStep w with
    | enqueue => exact State.enterQueue_stopping b s n
    | _ => rfl

theorem State.checkWords_stopping (l : List Word) : ∀ s : State,
    l.foldl State.checkWord (s.stopping b) = (l.foldl State.checkWord s).stopping b := by
  induction l with
  | nil => exact fun s => rfl
  | cons n l ih => exact fun s => by rw [List.foldl_cons, State.checkWord_stopping, ih, List.foldl_cons]

theorem State.runSweep_stopping (k : Nat) : ∀ s : State, State.runSweep k (s.stopping b) = (State.runSweep k s).stopping b := by
  induction k with
  | zero => exact fun s => rfl
  | succ k ih =>
    intro s
    have hstep (w : SpellWord) : (s.stopping b).checkStep w = s.checkStep w := rfl
    have hgo (t : State) (n : Word) :
        State.runSweep k { t.stopping b with spell := { t.spell with sweep := recordAfter n t.spell.words } } =
          (State.runSweep k { t with spell := { t.spell with sweep := recordAfter n t.spell.words } }).stopping b :=
      ih { t with spell := { t.spell with sweep := recordAfter n t.spell.words } }
    unfold State.runSweep
    simp only [hstep, State.checkWord_stopping]
    cases s.spell.sweep with
    | none => rfl
    | some n =>
      dsimp only
      cases findWord s.spell.words n with
      | none => rfl
      | some w =>
        dsimp only
        split_ifs
        case pos => rfl
        case pos => exact hgo (s.checkWord n) n
        case neg => exact hgo s n

theorem State.spellOn_stopping (s : State) : (s.stopping b).spellOn = s.spellOn.stopping b := by
  unfold State.spellOn
  rw [State.pumpEngine_stopping]
  exact State.runSweep_stopping b _ _

theorem State.respell_stopping (s : State) : (s.stopping b).respell = s.respell.stopping b := by
  unfold State.respell
  dsimp only
  rw [← State.spellOn_stopping, ← State.checkWords_stopping, ← State.setRefs_stopping]
  rfl

theorem State.reachBoundary_stopping (s : State) : (s.stopping b).reachBoundary = s.reachBoundary.stopping b := by
  unfold State.reachBoundary
  dsimp only
  split
  case isTrue => exact State.respell_stopping b { s with
    comp := s.comp.applyPending s.set.justify, disp := { s.disp with window := 0 } }
  case isFalse => rfl

theorem State.textChanged_stopping (was : Bool) (s : State) :
    State.textChanged was (s.stopping b) = (State.textChanged was s).stopping b := by
  have hfollow : (s.stopping b).followText = s.followText.stopping b := by
    unfold State.followText
    rw [show (s.stopping b).trimMarks = s.trimMarks.stopping b from rfl, State.respell_stopping]
    rfl
  have hbound : (s.followText.stopping b).atBoundary = s.followText.atBoundary := rfl
  unfold State.textChanged State.boundaryAfter
  rw [hfollow, hbound]
  split
  case isTrue => exact State.reachBoundary_stopping b s.followText
  case isFalse => rfl

theorem State.reportLift_stopping (ref : Option Word) (skipped : Bool) (s : State) :
    (s.stopping b).reportLift ref skipped = (s.reportLift ref skipped).stopping b := by
  unfold State.reportLift
  dsimp only
  cases ref.bind s.line.find with
  | none => rfl
  | some e =>
    dsimp only
    split_ifs
    case pos => rfl
    case pos => rfl
    case pos => exact State.textChanged_stopping b s.atBoundary { s with
      line := s.line.change e.seqNum (fun _ => { e.liftDone skipped with liftSkipped := false }) }
    case neg => exact State.textChanged_stopping b s.atBoundary (s.removeEntry e.seqNum)

theorem State.finishOrder_stopping (petal level : Nat) (s : State) :
    (s.stopping b).finishOrder petal level = (s.finishOrder petal level).stopping b := by
  unfold State.finishOrder
  dsimp only
  cases hq : s.seq.queue with
  | nil => rfl
  | cons o rest =>
    cases o with
    | strike code p role ref num => cases ref <;> rfl
    | lift pt w p l ref => exact State.reportLift_stopping b ref false s.popOrder
    | _ => rfl

end Stopping

/-! ### The order completed, with the cover open (R77, R85) -/

theorem State.finishOrder_strike {code p role ref num rest} (h : s.seq.queue = .strike code p role ref num :: rest)
    (petal level : Nat) : s.finishOrder petal level = { s with
      seq := s.seq.popped
      line := { s.line with
        entries := Machine.strikeSet s.line.entries ref num (fun _ => .printed petal s.seq.wheelCode level) } } :=
  (State.finishOrder_eq h petal level).trans (State.reportStrike_eq _ _ _ _)

theorem State.finishOrder_lift {pt w p l ref rest} (h : s.seq.queue = .lift pt w p l ref :: rest) (petal level : Nat) :
    s.finishOrder petal level = State.reportLift { s with seq := s.seq.popped } ref false :=
  State.finishOrder_eq h petal level

theorem State.finishOrder_addsNoWait {o : Order} {rest : List Order} (h : s.seq.queue = o :: rest) (petal level : Nat) :
    s.addsNoWait (s.finishOrder petal level) := by
  rw [State.finishOrder_eq h]
  exact State.addsNoWait.trans (State.addsNoWait.of_comp rfl) (State.reportDone_addsNoWait _ _ _ _ _)

/-! ### The cover opens (R85) -/

theorem State.enterCover_eq (h : s.seq.state ≠ .coverOpen) : s.enterCover = State.changedTo { s with
    seq := { s.seq.liftStopped with pauseReq := s.seq.pauseKept } } .coverOpen .none := by
  unfold State.enterCover
  dsimp only
  rw [State.stopLift_eq, Sequencer.pauseToRequest_kept]
  exact State.enter_of_ne (s := { s with seq := { s.seq.liftStopped with pauseReq := s.seq.pauseKept } }) h _

theorem State.enterCover_of_not_paused (h : s.seq.state ≠ .coverOpen) (hp : s.seq.state ≠ .paused) :
    s.enterCover = State.changedTo { s with seq := s.seq.liftStopped } .coverOpen .none := by
  rw [State.enterCover_eq h, show s.seq.pauseKept = s.seq.pauseReq from if_neg fun hpaused => hp hpaused.1]
  rfl

theorem State.endCoverStop_of_open (hc : s.coverOpen = true) :
    s.endCoverStop = (s.stopping false).enterCover := by
  unfold State.endCoverStop
  exact if_pos (by simpa using hc)

theorem exec_coverOpen (hq : s.quiet) (ht : s.openCover = t) (hw : s.addsNoWait t) :
    exec .coverOpen s = .next t.formImage := by
  obtain ⟨hkey, htext⟩ := hw.quiet hq
  refine (congrArg _ (if_neg (Bool.eq_false_iff.mp hq.1))).trans ?_
  rw [ht, State.settle_of_quiet hkey htext]

theorem exec_coverClose (hq : s.quiet) (ht : s.closeCover = t) (hw : s.addsNoWait t) :
    exec .coverClose s = .next t.formImage := by
  obtain ⟨hkey, htext⟩ := hw.quiet hq
  refine (congrArg _ (if_neg (Bool.eq_false_iff.mp hq.1))).trans ?_
  rw [ht, State.settle_of_quiet hkey htext]

/-- The cover opens over a mechanism whose motions are stopped with what they had reached. -/
theorem exec_coverOpen_stops {q : Sequencer} {l : LineRecord} {n : Nat} (hq : s.quiet)
    (hopen : s.openCover = State.enterCover { s with coverOpen := true, free := n, line := l, seq := q })
    (hst : q.state ≠ .coverOpen) (hp : q.state ≠ .paused) :
    ∃ t, (exec .coverOpen s = .next t ∧ t.seq = { q.liftStopped with state := .coverOpen, reason := .none } ∧
        t.ret = (s.event (.mechState .coverOpen .none)).ret ∧ t.ctr = (s.event (.mechState .coverOpen .none)).ctr ∧
        t.drv = { s.drv with rotTest := none } ∧ t.coverOpen = true ∧
        s.keeps t [.coverOpen, .free, .seq, .drv, .line, .ret, .ctr, .image] ∧ s.imageFollows t) ∧ t.line = l := by
  have hstops := hopen.trans (State.enterCover_of_not_paused
    (s := { s with coverOpen := true, free := n, line := l, seq := q }) hst hp)
  set w : State := { s with coverOpen := true, free := n, line := l, seq := q.liftStopped } with hw
  have hkeeps : s.keeps (w.changedTo .coverOpen .none) [.coverOpen, .free, .seq, .drv, .line, .ret, .ctr] := by
    intro p hp
    cases p <;> simp_all [State.same, State.changedTo]
  obtain ⟨hret, hctr⟩ := State.changedTo_reports (s := w) (t := s) rfl rfl .coverOpen .none
  refine ⟨_, ⟨exec_coverOpen hq hstops (State.addsNoWait.of_comp (by simp [hw, State.changedTo])), ?_, ?_, ?_, ?_, ?_,
    State.keeps.ends hkeeps (by decide) (by decide)⟩, ?_⟩
  · simp [hw]
  · simpa using hret
  · simpa using hctr
  · simp [hw]
  · simp [hw, State.changedTo]
  · simp [hw, State.changedTo]

/-! The cover opens by the state of the mechanism. -/

section Opens

variable (hc : s.coverOpen = false)
include hc

theorem State.openCover_resting (h : s.seq.state = .halted ∨ s.seq.state = .coverOpen) :
    s.openCover = { s with coverOpen := true } := by
  rw [State.openCover, if_neg (Bool.eq_false_iff.mp hc)]
  rcases h with h | h <;> simp only [h]

theorem State.openCover_waiting (h : s.seq.state ∈ [.idle, .paused, .wheelWait, .unhomed] ∨
      s.seq.state = .running ∧ s.seq.flight = none) :
    s.openCover = State.enterCover { s with coverOpen := true } := by
  rw [State.openCover, if_neg (Bool.eq_false_iff.mp hc)]
  rcases h with h | ⟨h, hf⟩
  · simp only [List.mem_cons, List.not_mem_nil, or_false] at h
    rcases h with h | h | h | h <;> simp only [h]
  · simp only [h, hf]

theorem State.openCover_homing (h : s.seq.state = .homing) :
    s.openCover = State.enterCover (State.abandonHoming { s with coverOpen := true }) := by
  rw [State.openCover, if_neg (Bool.eq_false_iff.mp hc)]
  simp only [h]

theorem State.openCover_pulse {petal level us : Nat} (h : s.seq.state = .running)
    (hf : s.seq.flight = some (.pulse petal level us)) :
    s.openCover = State.stopping { s with coverOpen := true } true := by
  rw [State.openCover, if_neg (Bool.eq_false_iff.mp hc)]
  simp only [h, hf]
  rw [← h, ← hf]

theorem State.openCover_recover {petal level us : Nat} (h : s.seq.state = .running)
    (hf : s.seq.flight = some (.recover petal level us)) :
    s.openCover = State.enterCover (State.finishOrder { s with coverOpen := true } petal level) := by
  rw [State.openCover, if_neg (Bool.eq_false_iff.mp hc)]
  simp only [h, hf]

theorem State.openCover_flying {f : Flight} (h : s.seq.state = .running) (hf : s.seq.flight = some f)
    (hp : ∀ petal level us, f ≠ .pulse petal level us) (hr : ∀ petal level us, f ≠ .recover petal level us) :
    s.openCover = State.enterCover (State.abandonFlight { s with coverOpen := true }) := by
  rw [State.openCover, if_neg (Bool.eq_false_iff.mp hc)]
  dsimp only
  rw [h]
  dsimp only
  rw [hf]
  cases f with
  | pulse petal level us => exact absurd rfl (hp _ _ _)
  | recover petal level us => exact absurd rfl (hr _ _ _)
  | _ => rfl

end Opens

/-- Settles O48: the opening by the state of the mechanism and the phase of its order, and the closing. -/
theorem theCoverStopsAndHomes : Obligations.TheCoverStopsAndHomes := by
  intro s hq opened lift enters completes stopped
  have henters {u : State} (hst : u.seq.state ≠ .coverOpen) (hp : u.seq.state ≠ .paused)
      (hl : u.seq.lift = s.seq.lift ∧ u.seq.liftTarget = s.seq.liftTarget) : u.enterCover = enters u := by
    rw [State.enterCover_of_not_paused hst hp]
    simp only [enters, lift, Sequencer.liftStopped, hl.1, hl.2]
  have hcompletes {c : Instr} {phase : Nat → Nat → Nat → Flight} {stop : Bool} {u : Order → State}
      (hrun : s.seq.state = .running) (hu : ∀ o, (u o).line = s.line ∧ (u o).comp = s.comp)
      (hexec : ∀ petal level us o rest t, s.seq.queue = o :: rest → s.seq.flight = some (phase petal level us) →
        State.finishOrder { u o with seq := { s.seq with coverStop := stop } } petal level = t →
        s.addsNoWait t → exec c s = .next (State.formImage t.enterCover)) : completes c phase stop u := by
    intro petal level us o rest hqueue hf out
    set v : State := { u o with seq := { s.seq with coverStop := stop } } with hv
    have hvq : v.seq.queue = o :: rest := hqueue
    obtain ⟨hline, hcomp⟩ := hu o
    have hends {t : State}
        (hfin : v.finishOrder petal level = t)
        (hseq : t.seq.state = .running ∧ t.seq.lift = s.seq.lift ∧ t.seq.liftTarget = s.seq.liftTarget) :
        exec c s = .next (State.formImage (enters t)) := by
      obtain ⟨hst, hl⟩ := hseq
      rw [← henters (by rw [hst]; decide) (by rw [hst]; decide) hl]
      refine hexec petal level us o rest t hqueue hf hfin ?_
      rw [← hfin]
      exact State.addsNoWait.trans (t := v) (State.addsNoWait.of_comp hcomp) (State.finishOrder_addsNoWait hvq petal level)
    have hseq : out.seq.state = .running ∧ out.seq.lift = s.seq.lift ∧ out.seq.liftTarget = s.seq.liftTarget :=
      ⟨hrun, rfl, rfl⟩
    have hlift (pt w p l ref) (ho : o = .lift pt w p l ref) :
        v.finishOrder petal level = out.reportLift ref false :=
      State.finishOrder_lift (s := v) (rest := rest) (hvq.trans (by rw [ho])) petal level
    refine ⟨fun code p role ref num ho => ?_, fun pt w p l ho => ?_, fun pt w p l n e ho he => ?_⟩
    · refine hends ((State.finishOrder_strike (s := v) (rest := rest) (hvq.trans (by rw [ho])) petal level).trans ?_) hseq
      rw [show v.line = s.line from hline]
      rfl
    · exact hends (hlift pt w p l none ho) hseq
    · intro change
      have hfind : out.line.entries.find? (fun d => d.seqNum = n) = some e := hline ▸ he
      have hbound : out.atBoundary = s.atBoundary := by simp only [State.atBoundary, out, hline, hcomp]
      have hfalse : (e.liftSkipped || false) = e.liftSkipped := Bool.or_false _
      refine ⟨fun hmore => hends ((hlift _ _ _ _ _ ho).trans ((State.reportLift_of_more hfind false hmore).trans ?_)) hseq,
        fun hlast hskip => hends ((hlift _ _ _ _ _ ho).trans
          ((State.reportLift_of_last_skipped hfind false hlast (hfalse.trans hskip)).trans ?_)) ?_,
        fun hlast hskip => hends ((hlift _ _ _ _ _ ho).trans
          ((State.reportLift_of_last hfind false hlast (hfalse.trans hskip)).trans ?_)) ?_⟩
      · rw [Entry.liftDone, hfalse, show out.line = s.line from hline]
      · rw [hbound, show out.line = s.line from hline]
      · simpa using hseq
      · rw [hbound, show out.line = s.line from hline, show out.seq.queue = rest from State.popped_queue hqueue]
      · simpa using hseq
  refine ⟨fun hopen => ?_, fun hclosed => ⟨fun hst => ?_, fun hst => ?_, fun hst h hh => ?_,
    fun hst o rest hqueue => ?_, fun hst => ?_⟩, fun hopen hst hstop => ?_, fun hst => ?_, fun hst hh => ?_⟩
  · exact exec_coverOpen hq (if_pos hopen) (State.addsNoWait.of_comp rfl)
  · exact exec_coverOpen hq (State.openCover_resting hclosed hst) (State.addsNoWait.of_comp rfl)
  · have hne : s.seq.state ≠ .coverOpen := by
      rcases hst with h | ⟨h, -⟩
      · rintro he
        rw [he] at h
        exact absurd h (by decide)
      · rw [h]
        decide
    exact exec_coverOpen hq ((State.openCover_waiting hclosed hst).trans (State.enterCover_eq (s := opened) hne))
      (State.addsNoWait.of_comp (by simp [State.changedTo, opened, enters]))
  · obtain ⟨c, p, n, ha, hcar, hpet⟩ := State.abandonHoming_spec (s := opened) hh
    have hopens := State.openCover_homing hclosed hst
    rw [show State.abandonHoming { s with coverOpen := true } = _ from ha] at hopens
    obtain ⟨t, ht, hl⟩ := exec_coverOpen_stops (l := s.line) hq hopens (by rw [show Sequencer.state _ = _ from hst]; decide)
      (by rw [show Sequencer.state _ = _ from hst]; decide)
    exact ⟨t, c, p, ht, hl, hcar, hpet⟩
  · intro q back
    have hback {t : State} (ht : t.line = opened.lineBack o) : back t :=
      ⟨fun code p role ref num ho => ht.trans (opened.lineBack_strike o code p role ref num ho),
        fun ho => ht.trans (opened.lineBack_other o ho)⟩
    have hstops {f : Flight} {q' : Sequencer} {l : LineRecord} {n : Nat} (hf : s.seq.flight = some f)
        (hp : ∀ petal level us, f ≠ .pulse petal level us) (hr : ∀ petal level us, f ≠ .recover petal level us)
        (ha : opened.abandonFlight = { opened with free := n, line := l, seq := q' }) (hsame : q'.state = s.seq.state) :
        ∃ t, stopped { q'.liftStopped with state := .coverOpen } t ∧ t.line = l :=
      exec_coverOpen_stops (q := q') hq ((State.openCover_flying hclosed hst hf hp hr).trans (congrArg _ ha))
        (by rw [hsame, hst]; decide) (by rw [hsame, hst]; decide)
    refine ⟨fun petal level us hf => ?_, fun petal level hf => ?_, fun us p hf ho => ?_, fun k us c hf ho hk hc => ?_,
      fun k us hf ho hk => ?_, fun petal level us hf => ?_⟩
    · obtain ⟨c, p, n, ha, hway⟩ := State.abandonFlight_position (s := opened) hqueue hf
      obtain ⟨t, ht, hl⟩ := hstops hf nofun nofun ha rfl
      exact ⟨t, c, p, ht, hback hl, hway.2⟩
    · obtain ⟨t, ht, hl⟩ := hstops hf nofun nofun
        (State.abandonFlight_still (s := opened) hqueue hf (.inr ⟨_, _, rfl⟩)) rfl
      exact ⟨t, ht, hback hl⟩
    · obtain ⟨c, n, ha, hway⟩ := State.abandonFlight_moving (s := opened) hqueue hf
      obtain ⟨t, ht, hl⟩ := hstops hf nofun nofun ha rfl
      rw [ho] at hway
      exact ⟨t, c, ht, hl.trans (opened.lineBack_other o (by rw [ho]; exact nofun)), hway.2⟩
    · obtain ⟨m, n, hm, hmk, ha⟩ := State.abandonFlight_index (s := opened) (ho ▸ hqueue) hf (by omega) hc
      obtain ⟨t, ht, hl⟩ := hstops hf nofun nofun ha rfl
      exact ⟨t, m, hm, hmk, hl, ht⟩
    · obtain ⟨m, n, hm, hmk, ha⟩ := State.abandonFlight_page (s := opened) (ho ▸ hqueue) hf hk
      obtain ⟨t, ht, hl⟩ := hstops hf nofun nofun ha rfl
      exact ⟨t, m, hm, hmk, hl, ht⟩
    · exact exec_coverOpen hq (State.openCover_pulse hclosed hst hf) (State.addsNoWait.of_comp rfl)
  · refine hcompletes hst (fun _ => ⟨rfl, rfl⟩) fun petal level us o rest t hqueue hf hfin hw => ?_
    rw [show ({ opened with seq := { s.seq with coverStop := s.seq.coverStop } } : State) = opened from rfl] at hfin
    exact exec_coverOpen hq ((State.openCover_recover hclosed hst hf).trans (by rw [← hfin]))
      (hw.trans (State.addsNoWait.of_comp (by simp)))
  · refine hcompletes hst (fun _ => ⟨rfl, rfl⟩) fun petal level us o rest t hqueue hf hfin hw => ?_
    refine exec_of_quiet (f := State.pulseComplete) (fun _ => rfl) hq ?_ (hw.trans (State.addsNoWait.of_comp (by simp)))
    rw [State.pulseComplete, hf]
    dsimp only
    rw [State.countPulse_eq hqueue]
    refine (if_pos hstop).trans ?_
    rw [State.endCoverStop_of_open (by simpa using hopen), ← State.finishOrder_stopping]
    exact congrArg State.enterCover hfin
  · exact exec_coverClose hq (if_neg hst) (State.addsNoWait.of_comp rfl)
  · refine exec_coverClose hq ((if_pos hst).trans ?_) (State.addsNoWait.of_comp (by simp [State.changedTo]))
    rw [State.startHoming, State.abandonHoming_of_none (s := { s with coverOpen := false }) hh]
    dsimp only
    rw [Sequencer.pauseToRequest_of_ne (by rw [hst]; decide), if_neg (by decide), Sequencer.askLift_eq]
    exact State.enter_of_ne (s := { s with coverOpen := false, seq := { s.seq with
      homing := some .home
      liftTarget := if s.seq.liftTarget.isSome then s.seq.liftTarget
        else if s.seq.lift = some .rest then none else some .rest } })
      (by rw [show Sequencer.state _ = _ from hst]; decide) _

end Sys2Proof.Machine
end

section
/-! PROOF of O26, O27, O28 and O29. The restarts of the text, of the mechanism, of the tables and of all. -/

namespace Sys2Proof.Machine

variable {s t u : State}

/-! ### A text that is empty (R47, R111) -/

/-- With no text and no words the Spelling Unit has nothing to do (R112). -/
theorem State.respell_of_empty (hrecs : s.comp.recs = []) (hline : s.line.entries = [])
    (hspell : s.spell = s.spell.emptied) : s.respell = s := by
  have htext : s.wordText = [] := by
    rw [State.wordText, hrecs, LineRecord.shown, hline]
    cases s.comp.modeInEffect <;> rfl
  have hsegments : s.segments = [] := by
    rw [State.segments, htext, segmentFrom]
    split <;> rfl
  have hkept : s.spell.keepWords (fun w => w.detached || ([] : List Word).contains w.num) = s.spell := by
    rw [hspell]
    rfl
  have hrefs : s.setRefs [] = s := by
    unfold State.setRefs
    cases hmode : s.comp.modeInEffect with
    | direct =>
      dsimp only
      rw [hline, List.map_nil, ← hline]
    | line =>
      dsimp only
      rw [hrecs, List.zipIdx_nil, List.map_nil, ← hrecs]
  have hpump : s.pumpEngine = s := by
    have hengine : s.spell.engine = none := by rw [hspell]; rfl
    have hqueue : s.spell.checkq = [] := by rw [hspell]; rfl
    rw [State.pumpEngine, hengine, hqueue, takeLookup]
    dsimp only
    rw [← hengine, ← hqueue]
  have hsweep : s.spell.sweep = none := by rw [hspell]; rfl
  rw [State.respell, hsegments]
  dsimp only [List.foldl_nil]
  rw [hkept, show ({ s with spell := s.spell } : State) = s from rfl, hrefs, State.spellOn, hpump, State.runSweep, hsweep]

theorem Composer.applyPending_recs_of_nil {c : Composer} (h : c.recs = []) (j : Justify) :
    (c.applyPending j).recs = [] := by
  unfold Composer.applyPending
  dsimp only
  split_ifs <;> split <;> first | rfl | exact h

theorem Composer.applyPending_cursor_zero {c : Composer} (h : c.cursor = 0) (j : Justify) :
    (c.applyPending j).cursor = 0 := by
  unfold Composer.applyPending
  dsimp only
  split_ifs <;> split <;> first | rfl | exact h

/-- A line boundary reached with no text (R26). -/
theorem State.reachBoundary_of_empty (hrecs : s.comp.recs = []) (hline : s.line.entries = [])
    (hspell : s.spell = s.spell.emptied) : s.reachBoundary = { s with
      comp := s.comp.applyPending s.set.justify, disp := { s.disp with window := 0 } } := by
  unfold State.reachBoundary
  dsimp only
  split
  case isTrue => exact State.respell_of_empty (s := { s with
    comp := s.comp.applyPending s.set.justify, disp := { s.disp with window := 0 } }) (Composer.applyPending_recs_of_nil hrecs _) hline hspell
  case isFalse => rfl

/-! ### RESTART TEXT (R22, R47) -/

theorem State.moveWindow_of_empty (hc : s.comp.cursor = 0) (hline : s.line.entries = []) (hw : s.disp.window = 0) :
    s.moveWindow = s := by
  have hindex : s.cursorIndex = 0 := by
    rw [State.cursorIndex, LineRecord.shown, hline, hc]
    cases s.comp.modeInEffect <;> rfl
  rw [State.moveWindow, hindex, hw, show windowFor 0 0 = 0 from rfl, ← hw]

theorem State.cursorPosition_of_empty (h : s.comp.recs = []) : s.cursorPosition = s.comp.left := by
  rw [State.cursorPosition, State.natural, h, naturalFrom]
  rfl

theorem Composer.modeInEffect_line_iff (c : Composer) : c.modeInEffect = .line ↔ c.source = .localKeys ∧ c.mode = .line :=
  ⟨Composer.modeInEffect_line, fun ⟨hs, hm⟩ => (Composer.modeInEffect_local hs).trans hm⟩

/-- The Composer as RESTART TEXT leaves it before the boundary (R22, R47). -/
def State.textlessComp (s : State) : Composer := { s.comp.emptied s.set.justify with
  logical := if s.comp.source = .localKeys ∧ s.comp.mode = .line then s.comp.left else s.comp.logical }

/-- The state that RESTART TEXT leaves, its image not yet formed. -/
def State.textless (s : State) : State := { s with
  keyq := .powerOn
  txt := { s.txt with queue := [], unsent := s.txt.unsent + s.txt.queue.length }
  intake := { s.intake with offered := none, timer := none, pendingRepeat := none }
  comp := s.textlessComp.applyPending s.set.justify
  seq := { s.seq with queue := s.seq.queue.map Order.dropRef }
  line := { s.line with entries := [], dropped := 0, run := none }
  spell := s.spell.emptied
  disp := { s.disp with window := 0 } }

/-- RESTART TEXT empties the text and reaches a line boundary without one (R22, R47). -/
theorem State.clearText_eq (s : State) : s.clearText = s.textless := by
  have hsync (v : State) (hr : v.comp.recs = []) : v.syncCursor = { v with comp := { v.comp with
      logical := if v.comp.source = .localKeys ∧ v.comp.mode = .line then v.comp.left else v.comp.logical } } := by
    rw [State.syncCursor_eq, State.followed, State.cursorPosition_of_empty hr]
    simp only [Composer.modeInEffect_line_iff]
  unfold State.clearText
  dsimp only
  rw [hsync _ rfl]
  exact State.reachBoundary_of_empty rfl rfl rfl

/-- Settles O26: the text is empty when the boundary is reached, so only its settings change there. -/
theorem restartTextEmptiesTheText : Obligations.RestartTextEmptiesTheText := by
  intro s h
  have hexec := exec_restart (i := .restartText) h rfl nofun rfl
  have hclear : s.reserve.restartText = s.reserve.restartAnswer.textless := by
    rw [State.restartText, State.clearText_eq]
    exact State.moveWindow_of_empty (Composer.applyPending_cursor_zero rfl _) rfl rfl
  have hwaits := s.textlessComp.applyPending_waits s.set.justify
  have hsettle : s.reserve.restart .text = s.reserve.restartAnswer.textless.formImage := by
    show s.reserve.restartText.settle s.reserve = _
    rw [hclear]
    exact State.settle_of_quiet (s := s.reserve.restartAnswer.textless) (hwaits.1.trans rfl) (hwaits.2 rfl) false
  have hkeeps : s.keeps s.reserve.restartAnswer.textless
      [.keyq, .txt, .intake, .comp, .seq, .line, .spell, .ret, .window] := by
    intro p hp
    cases p <;> simp_all [State.same, State.textless, State.restartAnswer, State.reserve]
  have hret : s.reserve.restartAnswer.textless.formImage.ret = s.ret.answered 0x11 .done [] := by
    simp [State.textless, State.restartAnswer, State.answer, State.reserve, ReturnLine.answered]
  have hsame (p : Part) (hp : p ≠ .image) := State.formImage_same s.reserve.restartAnswer.textless p hp
  exact ⟨_, hexec.trans (congrArg _ hsettle), hsame .keyq nofun, hsame .txt nofun, hsame .intake nofun,
    hsame .comp nofun, hsame .window nofun, hsame .seq nofun, hsame .line nofun, hsame .spell nofun, hret,
    State.keeps.ends hkeeps (by decide) (by decide)⟩

end Sys2Proof.Machine
end

section
/-! PROOF of O28, O30 and O31. The readers of the directory: the Spelling Unit when its lexicon changes, and the mechanism
that judges its wheel again. -/

namespace Sys2Proof.Machine

variable {s t u : State}

/-! ### What the Spelling Unit leaves of the text (R111, R112) -/

/-- The Spelling Unit has gone on: of the text only the word references follow. -/
structure State.respells (s t : State) : Prop where
  entries : plain t.line.entries = plain s.line.entries
  recs : plainRecs t.comp.recs = plainRecs s.comp.recs
  line : t.line = { s.line with entries := t.line.entries }
  comp : t.comp = { s.comp with recs := t.comp.recs }
  users : t.spell.users = s.spell.users
  marks : t.spell.marks = s.spell.marks
  get : ∀ k, k ≠ Counter.checksDropped → t.ctr.get k = s.ctr.get k
  keeps : s.keeps t [.spell, .line, .comp, .ctr]

theorem State.respells.refl (s : State) : s.respells s :=
  ⟨rfl, rfl, rfl, rfl, rfl, rfl, fun _ _ => rfl, fun p _ => by cases p <;> simp [State.same]⟩

theorem State.respells.trans (h : s.respells t) (k : t.respells u) : s.respells u where
  entries := k.entries.trans h.entries
  recs := k.recs.trans h.recs
  line := by rw [k.line, h.line]
  comp := by rw [k.comp, h.comp]
  users := k.users.trans h.users
  marks := k.marks.trans h.marks
  get c hc := (k.get c hc).trans (h.get c hc)
  keeps := State.keeps_trans h.keeps k.keeps

theorem State.respells.addsNoWait (h : s.respells t) : s.addsNoWait t := by
  rw [State.addsNoWait, h.comp]
  exact ⟨rfl, id⟩

/-- Only the Spelling Unit itself has changed. -/
theorem State.respells_spell {p : Spelling} (hu : p.users = s.spell.users) (hm : p.marks = s.spell.marks) :
    s.respells { s with spell := p } :=
  ⟨rfl, rfl, rfl, rfl, hu, hm, fun _ _ => rfl, fun q hq => by cases q <;> simp_all [State.same]⟩

/-- Matching moves records and gives up queue places; the lists and the engine stand (R112). -/
structure Spelling.matches (p q : Spelling) : Prop where
  users : q.users = p.users
  marks : q.marks = p.marks
  engine : q.engine = p.engine
  checkq : p.checkq = [] → q.checkq = []

theorem Spelling.matches.refl (p : Spelling) : p.matches p := ⟨rfl, rfl, rfl, id⟩

theorem Spelling.matches.trans {p q r : Spelling} (h : p.matches q) (k : q.matches r) : p.matches r :=
  ⟨k.users.trans h.users, k.marks.trans h.marks, k.engine.trans h.engine, k.checkq ∘ h.checkq⟩

theorem Spelling.matches_keepWords (p : Spelling) (keep : SpellWord → Bool) : p.matches (p.keepWords keep) :=
  ⟨rfl, rfl, rfl, fun h => by simp [Spelling.keepWords, h]⟩

theorem Spelling.matches_makeRoom (p : Spelling) : p.matches p.makeRoom := by
  unfold Spelling.makeRoom
  split
  · exact p.matches_keepWords _
  · exact .refl p

theorem Spelling.matches_endRequest (p : Spelling) (w : SpellWord) (g : Segment) : p.matches (p.endRequest w g) := by
  unfold Spelling.endRequest
  split <;> exact ⟨rfl, rfl, rfl, id⟩

theorem matchSegment_matches (m : MatchPass) (g : Segment) : m.spell.matches (matchSegment m g).spell := by
  unfold matchSegment
  dsimp only
  split
  case h_1 n hn =>
    split
    case h_1 w hw =>
      obtain ⟨hu, hm, he, hc⟩ := m.spell.matches_endRequest w g
      dsimp only
      split
      · exact ⟨hu, hm, he, fun h => by simp [Spelling.giveUp, hc h]⟩
      · exact ⟨hu, hm, he, hc⟩
    case h_2 => exact .refl _
  case h_2 =>
    split
    · exact .refl _
    · obtain ⟨hu, hm, he, hc⟩ := m.spell.matches_makeRoom
      exact ⟨hu, hm, he, hc⟩

theorem foldl_matchSegment_matches (l : List Segment) (m : MatchPass) : m.spell.matches (l.foldl matchSegment m).spell := by
  induction l generalizing m with
  | nil => exact .refl _
  | cons g l ih => exact (matchSegment_matches m g).trans (ih _)

/-- The spelling after the matching of a new segmentation, before the checks (R112). -/
def State.matched (s : State) : State :=
  let m := s.segments.foldl matchSegment ⟨s.spell, [], [], [], []⟩
  State.setRefs { s with spell := m.spell.keepWords (fun w => w.detached || m.taken.contains w.num) } m.refs

theorem State.respell_eq (s : State) : ∃ l : List Word, s.respell = (l.foldl State.checkWord s.matched).spellOn :=
  ⟨_, rfl⟩

theorem State.matched_matches (s : State) : s.spell.matches s.matched.spell := by
  have h := foldl_matchSegment_matches s.segments ⟨s.spell, [], [], [], []⟩
  simp only [State.matched, State.setRefs_frame]
  exact h.trans (Spelling.matches_keepWords _ _)

theorem State.foldl_checkWord_lists (l : List Word) (s : State) :
    (l.foldl State.checkWord s).spell.users = s.spell.users ∧ (l.foldl State.checkWord s).spell.marks = s.spell.marks := by
  induction l generalizing s with
  | nil => exact ⟨rfl, rfl⟩
  | cons n l ih => simp [ih]

theorem State.respell_respells (s : State) : s.respells s.respell := by
  have hkeeps : s.keeps s.respell [.spell, .line, .comp, .ctr] := fun p hp => by cases p <;> simp_all [State.same]
  obtain ⟨hentries, hrecs, hline, hcomp⟩ := s.respell_text
  obtain ⟨l, hl⟩ := s.respell_eq
  obtain ⟨hu, hm⟩ := State.foldl_checkWord_lists l s.matched
  refine ⟨hentries, hrecs, hline, hcomp, ?_, ?_, fun k hk => s.respell_get hk, hkeeps⟩
  · rw [hl]
    simpa [hu] using s.matched_matches.users
  · rw [hl]
    simpa [hm] using s.matched_matches.marks

theorem State.startSweep_respells (s : State) : s.respells s.startSweep :=
  ⟨by simp [State.startSweep], by simp [State.startSweep], by simp [State.startSweep], by simp [State.startSweep],
    by simp [State.startSweep], by simp [State.startSweep], fun k hk => State.spellOn_get _ hk,
    fun p hp => by cases p <;> simp_all [State.same]⟩

theorem State.lexiconChanged_respells (s : State) : s.respells s.lexiconChanged := by
  have hspell (p : Spelling) (hu : p.users = s.spell.users) (hm : p.marks = s.spell.marks) :
      s.respells (State.respell { s with spell := p }) :=
    (State.respells_spell hu hm).trans (State.respell_respells _)
  unfold State.lexiconChanged
  dsimp only
  split_ifs
  · refine (hspell _ ?_ ?_).trans (State.startSweep_respells _) <;> rfl
  · refine hspell _ ?_ ?_ <;> rfl

/-! ### Without a lexicon nothing is looked up (R116, R121, R123) -/

/-- Nothing is looked up and nothing waits to be. -/
def Spelling.idle (p : Spelling) : Prop := p.engine = none ∧ p.checkq = []

theorem Spelling.matches.idle {p q : Spelling} (h : p.matches q) (hp : p.idle) : q.idle :=
  ⟨h.engine.trans hp.1, h.checkq hp.2⟩

theorem State.setVerdict_idle (h : s.spell.idle) (n : Word) (v : Verdict) : (s.setVerdict n v).spell.idle :=
  ⟨h.1, by simp [State.setVerdict, Spelling.purge, Spelling.keepWords, h.2]⟩

theorem State.checkStep_ne_enqueue (h : s.active .lexicon = none) (w : SpellWord) : s.checkStep w ≠ .enqueue := by
  unfold State.checkStep
  rw [h]
  split_ifs <;> simp_all

theorem State.checkWord_idle (hl : s.active .lexicon = none) (h : s.spell.idle) (n : Word) : (s.checkWord n).spell.idle := by
  unfold State.checkWord
  split
  case h_1 => exact h
  case h_2 w hw =>
    cases hstep : s.checkStep w with
    | stay => exact h
    | verdict v => exact State.setVerdict_idle h n v
    | enqueue => exact absurd hstep (State.checkStep_ne_enqueue hl w)

theorem State.checkWord_active (s : State) (n : Word) (k : TableKind) : (s.checkWord n).active k = s.active k := by
  simp [State.active, State.selection]

theorem State.foldl_checkWord_idle (l : List Word) : ∀ {s : State}, s.active .lexicon = none → s.spell.idle →
    (l.foldl State.checkWord s).spell.idle := by
  induction l with
  | nil => exact fun _ h => h
  | cons n l ih => exact fun hl h => ih ((State.checkWord_active _ _ _).trans hl) (State.checkWord_idle hl h n)

theorem State.pumpEngine_of_idle (h : s.spell.idle) : s.pumpEngine = s := by
  obtain ⟨he, hc⟩ := h
  rw [State.pumpEngine, he, hc, takeLookup]
  dsimp only
  rw [← he, ← hc]

theorem State.runSweep_idle (k : Nat) : ∀ {s : State}, s.active .lexicon = none → s.spell.idle →
    (State.runSweep k s).spell.idle := by
  induction k with
  | zero => exact fun _ h => h
  | succ k ih =>
    intro s hl h
    unfold State.runSweep
    dsimp only
    split
    · exact h
    · split
      · exact h
      · split_ifs
        · exact h
        · exact ih (s := { s.checkWord _ with spell := { (s.checkWord _).spell with sweep := _ } })
            ((State.checkWord_active _ _ _).trans hl) (State.checkWord_idle hl h _)
        · exact ih (s := { s with spell := { s.spell with sweep := _ } }) hl h

theorem State.spellOn_idle (hl : s.active .lexicon = none) (h : s.spell.idle) : s.spellOn.spell.idle := by
  rw [State.spellOn, State.pumpEngine_of_idle h]
  exact State.runSweep_idle _ hl h

theorem State.respell_idle (hl : s.active .lexicon = none) (h : s.spell.idle) : s.respell.spell.idle := by
  obtain ⟨l, hr⟩ := s.respell_eq
  have hactive : s.matched.active .lexicon = none := by
    simpa [State.active, State.selection, State.matched] using hl
  have hfold (l : List Word) : (l.foldl State.checkWord s.matched).active .lexicon = none := by
    simpa [State.active, State.selection] using hactive
  rw [hr]
  exact State.spellOn_idle (hfold l) (State.foldl_checkWord_idle l hactive (s.matched_matches.idle h))

theorem State.lexiconChanged_idle (h : s.active .lexicon = none) : s.lexiconChanged.spell.idle := by
  unfold State.lexiconChanged
  dsimp only
  rw [h, if_neg (by decide)]
  exact State.respell_idle h ⟨rfl, rfl⟩

/-! ### The readers of the directory (R158, R163) -/

/-- The readers but the mechanism: a new key map ends the repeat, a new lexicon is followed by the Spelling Unit. -/
def State.readersFollow (pre s : State) : State :=
  let v := { s with intake := if s.active .keyMap = pre.active .keyMap then s.intake else { s.intake with timer := none } }
  if s.active .lexicon = pre.active .lexicon then v else v.lexiconChanged

theorem State.readersAct_eq (pre s : State) : pre.readersAct s = State.readersFollow pre s.rejudge := by
  unfold State.readersAct State.readersFollow
  dsimp only
  split
  case isTrue h => rfl
  case isFalse h => rfl

theorem State.readersAct_of_not_waiting {pre : State} (h : s.seq.state ≠ .wheelWait) :
    pre.readersAct s = State.readersFollow pre s := by
  rw [State.readersAct_eq, show s.rejudge = s from if_neg h]

/-- The readers change the intake by the key map, and the text as the Spelling Unit does. -/
theorem State.readersFollow_respells (pre s : State) :
    ({ s with intake := if s.active .keyMap = pre.active .keyMap then s.intake else { s.intake with timer := none } }
      : State).respells (State.readersFollow pre s) := by
  unfold State.readersFollow
  dsimp only
  split_ifs
  any_goals exact State.respells.refl _
  all_goals exact State.lexiconChanged_respells _

theorem State.active_noSlots (s : State) (k : TableKind) : (s.withSlots noSlots).active k = none := by
  simp only [State.active, State.withSlots, noSlots, slotCount]
  rfl

/-- Settles O28: with no slot in use nothing is active, and the readers follow that. -/
theorem restartTablesEmptiesTheDirectory : Obligations.RestartTablesEmptiesTheDirectory := by
  intro s h hq hw
  set a := s.reserve.restartAnswer with ha
  set u := a.withSlots noSlots with hu
  have hnone (k : TableKind) : u.active k = none := State.active_noSlots a k
  have hacts : s.reserve.restartTables = State.readersFollow a u := State.readersAct_of_not_waiting hw
  have hexec := exec_restart (i := .restartTables) h rfl nofun rfl
  have hfollow := State.readersFollow_respells a u
  set r := State.readersFollow a u with hr
  set v : State := { u with
    intake := if u.active .keyMap = a.active .keyMap then u.intake else { u.intake with timer := none } } with hv
  obtain ⟨hkey, htext⟩ := (State.addsNoWait.trans (t := v) (State.addsNoWait.of_comp rfl) hfollow.addsNoWait).quiet hq
  have hsettle : s.reserve.restart .tables = r.formImage := by
    show s.reserve.restartTables.settle s.reserve = _
    rw [hacts, State.settle_of_quiet hkey htext]
  have hkeeps : s.keeps r [.slots, .ret, .intake, .spell, .line, .comp, .ctr] := by
    have hsv : s.keeps v [.slots, .ret, .intake, .spell, .line, .comp, .ctr] := by
      intro p hp
      cases p <;> simp_all [State.same, State.withSlots, State.restartAnswer, State.reserve]
    exact State.keeps_trans hsv (State.keeps_mono hfollow.keeps (by decide))
  have hends : v.keeps r.formImage [.spell, .line, .comp, .ctr, .image] :=
    State.keeps_trans (State.keeps_mono hfollow.keeps (by decide)) (State.keeps_mono r.keeps_formImage (by decide))
  refine ⟨_, hexec.trans (congrArg _ hsettle), hends .slots (by decide), hends .ret (by decide), ?_, fun hlex => ?_,
    fun hlex => ?_, State.keeps.ends hkeeps (by decide) (by decide)⟩
  · refine (hends .intake (by decide)).trans ?_
    show (if u.active .keyMap = s.active .keyMap then s.intake else { s.intake with timer := none }) = _
    simp only [hnone, Option.isNone_iff_eq_none, eq_comm (a := none)]
  · have hstands : r = v := if_pos (by rw [hnone]; exact (Option.isNone_iff_eq_none.mp hlex).symm)
    rw [hstands]
    have hv (p : Part) (hp : p ≠ .image) := State.formImage_same v p hp
    exact ⟨hv .spell nofun, hv .line nofun, hv .comp nofun, hv .ctr nofun⟩
  · have hchanged : r = v.lexiconChanged := if_neg (by
      rw [hnone]
      exact fun he => absurd (Option.isSome_iff_ne_none.mp hlex) (not_not.mpr he.symm))
    have hidle := State.lexiconChanged_idle (s := v) (hnone .lexicon)
    rw [← hchanged] at hidle
    simpa [Spelling.idle] using hidle

end Sys2Proof.Machine
end

section
/-! PROOF of O27 and O29. The restarts that start homing. -/

namespace Sys2Proof.Machine

variable {s t u : State}

/-! ### Homing started by a restart (R68, R88) -/

/-- An EVENT concerns the report queue alone, so what the sequencer is set to beside it may be set first. -/
theorem State.event_with_seq (s : State) (e : Event) (q : Sequencer) :
    ({ s.event e with seq := q } : State) = State.event { s with seq := q } e := by
  unfold State.event
  split <;> rfl

/-- Homing started by a restart (R70): the lift is sent to REST unless it stands there. -/
theorem State.rehome_eq (hh : s.seq.homing = none) (hc : s.coverOpen = false) (hst : s.seq.state ≠ .homing) :
    s.rehome = State.changedTo { s with seq := { s.seq with
      homing := some .home, pauseReq := none
      liftTarget := if s.seq.liftTarget.isSome then s.seq.liftTarget
        else if s.seq.lift = some .rest then none else some .rest } } .homing .none := by
  set q : Sequencer := { s.seq with
    homing := some .home, pauseReq := s.seq.pauseKept, liftTarget := s.seq.askLift .rest } with hq
  have hstart : s.startHoming = State.changedTo { s with seq := q } .homing .none := by
    unfold State.startHoming
    dsimp only
    rw [State.abandonHoming_of_none hh, Sequencer.pauseToRequest_kept, if_neg (by rw [hc]; decide)]
    exact State.enter_of_ne (s := { s with seq := q }) hst _
  rw [State.rehome, hstart]
  dsimp only
  rw [State.changedTo_seq, State.changedTo, State.event_with_seq, hq, Sequencer.askLift_eq]
  rfl

/-- With nothing in flight and no homing, a restart only stops the lift (R88). -/
theorem State.settled_of_resting (hf : s.seq.flight = none) (hh : s.seq.homing = none) :
    s.settleFlight.abandonHoming.stopLift = { s with seq := { s.seq.liftStopped with flight := none, coverStop := false } } := by
  have hsettle : s.settleFlight = { s with seq := { s.seq with flight := none, coverStop := false } } := by
    rw [State.settleFlight, hf]
    exact State.abandonFlight_of_none hf
  rw [hsettle, State.abandonHoming_of_none (s := { s with seq := { s.seq with flight := none, coverStop := false } }) hh,
    State.stopLift_eq]
  rfl

/-! ### RESTART ALL (R186) -/

/-- The state that RESTART ALL leaves (R186). -/
def State.startedAfresh (s : State) : State := { State.reset with
  pending := s.pending
  free := s.free
  rx := { s.rx with sync := .hunt }
  tab := { TableStore.powerOn with mem := s.tab.mem }
  ret := { ReturnLine.powerOn with
    reports := .answer 0x11 .done [] :: (if s.rx.sync = .locked then [.event .linkLost false] else [])
      ++ [.event (.mechState .homing .none) false]
    sending := s.ret.sending }
  seq := { Sequencer.firstHoming with
    carriage := s.seq.carriage
    petal := s.seq.petal
    heat := s.seq.heat
    lift := (if s.seq.liftTarget = none then s.seq.lift else none)
    liftTarget := (if s.seq.liftTarget = none ∧ s.seq.lift = some .rest then none else some .rest) } }

theorem State.startedAfresh_image (s : State) : s.startedAfresh.image = Image.first := by
  have hface : s.startedAfresh.face = State.reset.face := rfl
  rw [State.image_congr hface]
  rfl

/-- The state in which RESTART ALL starts homing, with the end of the link told (R186). -/
def State.stripped (s : State) : State := { State.held s.pending s.coverOpen s.free with
  resetHeld := false
  rx := { s.rx with sync := .hunt }
  ret := { ReturnLine.powerOn with
    reports := .answer 0x11 .done [] :: (if s.rx.sync = .locked then [.event .linkLost false] else [])
    sending := s.ret.sending }
  tab := { TableStore.powerOn with mem := s.tab.mem }
  seq := s.seq.liftStopped.afterAll }

theorem State.restartAll_of_resting (hf : s.seq.flight = none) (hh : s.seq.homing = none) :
    s.restartAll = State.freshImage s.stripped.rehome := by
  have hafresh : s.allAfresh = { s.stripped with
      ret := { ReturnLine.powerOn with reports := [.answer 0x11 .done []], sending := s.ret.sending } } := by
    rw [State.allAfresh, State.settled_of_resting hf hh]
    rfl
  have htold : (if s.rx.sync = .locked then s.allAfresh.event .linkLost else s.allAfresh) = s.stripped := by
    rw [hafresh, State.stripped]
    split
    case isTrue => exact State.event_of_takes rfl
    case isFalse => rfl
  rw [State.restartAll_eq, htold]

theorem State.formImage_of_on {im : Image} (h : s.set.display = true) (hi : s.image = im) : s.formImage = { s with
    disp := { s.disp with current := some im, slot := if s.disp.lastSent = some im then none else some im } } := by
  rw [State.formImage, if_pos h, hi]

/-- Settles O29: the image started afresh is that of reset, of which it reads nothing else. -/
theorem restartAllStartsThePartAfresh : Obligations.RestartAllStartsThePartAfresh := by
  intro s h hf hh hst hc
  have hexec := exec_restart (i := .restartAll) h rfl nofun rfl
  refine ⟨_, hexec, ?_⟩
  have hhome : s.stripped.rehome =
      { s.startedAfresh with disp := { Display.powerOn with current := none, slot := none } } := by
    rw [State.rehome_eq (s := s.stripped) rfl hc hst, State.changedTo, State.event_of_takes]
    · rw [State.stripped, State.startedAfresh, hc]
      by_cases hl : s.seq.liftTarget = none
      · simp only [Sequencer.afterAll, Sequencer.liftStopped, hl, true_and, if_true]
        rfl
      · simp only [Sequencer.afterAll, Sequencer.liftStopped, hl, false_and, if_false]
        rfl
    · by_cases hl : s.rx.sync = .locked
      · simp only [State.stripped, hl]
        rfl
      · simp only [State.stripped, hl]
        rfl
  show s.reserve.restartAll = s.startedAfresh
  rw [State.restartAll_of_resting (s := s.reserve) hf hh, show s.reserve.stripped = s.stripped from rfl, hhome]
  refine (State.formImage_of_on (im := Image.first) rfl ?_).trans rfl
  exact s.startedAfresh_image

/-! ### The text followed, with no line setting pending (R25, R112, R133) -/

/-- The Spelling Unit and the Display Unit have followed a change of the text. -/
structure State.retexts (s t : State) : Prop where
  entries : plain t.line.entries = plain s.line.entries
  recs : plainRecs t.comp.recs = plainRecs s.comp.recs
  line : t.line = { s.line with entries := t.line.entries }
  comp : t.comp = { s.comp with recs := t.comp.recs }
  users : t.spell.users = s.spell.users
  get : ∀ k, k ≠ Counter.checksDropped → t.ctr.get k = s.ctr.get k
  keeps : s.keeps t [.spell, .line, .comp, .ctr, .window]

theorem State.followText_retexts (s : State) : s.retexts s.followText := by
  have hr := s.trimMarks.respell_respells
  have hkeeps : s.keeps s.trimMarks [.spell, .line, .comp, .ctr] := fun p hp => by
    cases p <;> simp_all [State.same, State.trimMarks]
  have hwindow : s.trimMarks.respell.keeps s.followText [.window] := fun p hp => by
    cases p <;> simp_all [State.same, State.followText, State.moveWindow]
  exact ⟨hr.entries, hr.recs, hr.line, hr.comp, hr.users, hr.get,
    State.keeps_trans (State.keeps_mono (State.keeps_trans hkeeps hr.keeps) (by decide)) (State.keeps_mono hwindow (by decide))⟩

theorem plainRecs_length (l : List CompRec) : (plainRecs l).length = l.length := by simp [plainRecs]

theorem isEmpty_of_length {α : Type} {l m : List α} (h : l.length = m.length) : l.isEmpty = m.isEmpty := by
  rw [Bool.eq_iff_iff, List.isEmpty_iff_length_eq_zero, List.isEmpty_iff_length_eq_zero, h]

theorem State.retexts.atBoundary (h : s.retexts t) : t.atBoundary = s.atBoundary := by
  have hentries : t.line.entries.isEmpty = s.line.entries.isEmpty :=
    isEmpty_of_length (by rw [← plain_length, h.entries, plain_length])
  have hrecs : t.comp.recs.isEmpty = s.comp.recs.isEmpty :=
    isEmpty_of_length (by rw [← plainRecs_length, h.recs, plainRecs_length])
  have hmode : t.comp.modeInEffect = s.comp.modeInEffect := by rw [h.comp]; rfl
  have hout : t.comp.outgoing = s.comp.outgoing := by rw [h.comp]
  unfold State.atBoundary
  rw [hmode, hout, hentries, hrecs]

/-- Where nothing is pending a boundary changes the Composer in LINE alone (R26). -/
theorem Composer.applyPending_of_none {c : Composer} (hl : c.later = .none) (ht : c.textWait = none) (j : Justify) :
    c.applyPending j = { c with logical := if c.modeInEffect = .line then c.left else c.logical } := by
  obtain ⟨source, mode, pitch, left, right, later⟩ := c
  subst hl ht
  cases source <;> cases mode <;> rfl

theorem State.reachBoundary_of_none (hl : s.comp.later = .none) (ht : s.comp.textWait = none) :
    s.reachBoundary = { s with
      comp := { s.comp with logical := if s.comp.modeInEffect = .line then s.comp.left else s.comp.logical }
      disp := { s.disp with window := 0 } } := by
  unfold State.reachBoundary
  dsimp only
  rw [Composer.applyPending_of_none hl ht, if_neg]
  simp [Composer.modeInEffect]

theorem State.retexts.trans (h : s.retexts t) (k : t.retexts u) : s.retexts u where
  entries := k.entries.trans h.entries
  recs := k.recs.trans h.recs
  line := by rw [k.line, h.line]
  comp := by rw [k.comp, h.comp]
  users := k.users.trans h.users
  get c hc := (k.get c hc).trans (h.get c hc)
  keeps := State.keeps_trans h.keeps k.keeps

/-- In DIRECT with nothing pending a boundary reached moves the window alone (R26, R133). -/
theorem State.textChanged_direct (hm : s.comp.modeInEffect = .direct) (hl : s.comp.later = .none)
    (ht : s.comp.textWait = none) (was : Bool) :
    s.retexts (s.textChanged was) ∧ (s.textChanged was).comp = s.comp := by
  have hfollow := s.followText_retexts
  have hcomp : s.followText.comp = s.comp := by
    have hdirect := s.trimMarks.respell_other.1 hm
    simpa [State.followText, State.moveWindow] using hdirect
  unfold State.textChanged State.boundaryAfter
  split
  case isFalse => exact ⟨hfollow, hcomp⟩
  case isTrue =>
    have hreach : s.followText.reachBoundary = { s.followText with disp := { s.followText.disp with window := 0 } } := by
      have hnone := State.reachBoundary_of_none (s := s.followText) (by rw [hcomp, hl]) (by rw [hcomp, ht])
      rw [hnone, hcomp, if_neg (by rw [hm]; decide), ← hcomp]
    rw [hreach]
    refine ⟨hfollow.trans ⟨rfl, rfl, rfl, rfl, rfl, fun _ _ => rfl, fun p hp => ?_⟩, hcomp⟩
    cases p <;> simp_all [State.same]

/-! ### RESTART MECH (R88, R107) -/

theorem lastWhere_map {α β : Type} (f : α → β) {p : α → Bool} {q : β → Bool} (h : ∀ a, q (f a) = p a) (l : List α) :
    lastWhere q (l.map f) = (lastWhere p l).map f := by
  induction l with
  | nil => rfl
  | cons a l ih =>
    rw [List.map_cons, lastWhere, lastWhere, ih]
    cases lastWhere p l with
    | some b => rfl
    | none =>
      rw [Option.map_none, h a]
      cases p a <;> rfl

/-- Where the text ends, of which the word references are no part (R88). -/
theorem restartPosition_of_plain {l m : List Entry} (h : plain l = plain m) :
    (lastWhere (fun e => e.state = .inked) l).map (fun e => e.pos + e.adv) =
      (lastWhere (fun e => e.state = .inked) m).map (fun e => e.pos + e.adv) := by
  have hplain (l : List Entry) : (lastWhere (fun e => e.state = .inked) (plain l)).map (fun e => e.pos + e.adv) =
      (lastWhere (fun e => e.state = .inked) l).map (fun e => e.pos + e.adv) := by
    have hmap := lastWhere_map (fun e : Entry => { e with word := none }) (p := fun e => decide (e.state = .inked))
      (q := fun e => decide (e.state = .inked)) (fun e => rfl) l
    rw [plain, hmap, Option.map_map]
    rfl
  rw [← hplain l, h, hplain]

theorem State.restartPosition_eq (s : State) : s.restartPosition =
    ((lastWhere (fun e => e.state = .inked) s.line.entries).map (fun e => e.pos + e.adv)).getD s.comp.left := by
  unfold State.restartPosition
  split
  case h_1 e he => rw [he]; rfl
  case h_2 he => rw [he]; rfl

/-- The entries that stay at a restart of the mechanism (R107). -/
def LineRecord.kept (l : LineRecord) : List Entry := (l.entries.filter Entry.stays).map Entry.restarted

/-- The state without the orders, before the text follows (R88, R107). -/
def State.orderless (s : State) : State := { s with
  seq := { s.seq with queue := [], heatCounted := false }
  line := { s.line with entries := s.line.kept }
  comp := { s.comp with outgoing := none } }

theorem State.clearOrders_direct (hm : s.comp.modeInEffect = .direct) (hl : s.comp.later = .none)
    (ht : s.comp.textWait = none) : s.clearOrders = { s.orderless.textChanged s.atBoundary with comp := { s.comp with
      outgoing := none
      logical := ((lastWhere (fun e => e.state = .inked) s.line.kept).map (fun e => e.pos + e.adv)).getD s.comp.left } } := by
  obtain ⟨htext, hcomp⟩ := State.textChanged_direct (s := s.orderless) hm hl ht s.atBoundary
  set x := s.orderless.textChanged s.atBoundary with hx
  have hclears : s.clearOrders = if x.comp.modeInEffect = .direct
      then { x with comp := { x.comp with logical := x.restartPosition } } else x.syncCursor := by
    unfold State.clearOrders
    dsimp only
    split
    case h_1 h => exact (if_pos h).symm
    case h_2 h => exact (if_neg (by rw [show x.comp.modeInEffect = .line from h]; decide)).symm
  rw [hclears, hcomp, if_pos (show s.orderless.comp.modeInEffect = .direct from hm), State.restartPosition_eq,
    restartPosition_of_plain htext.entries, hcomp]
  rfl

/-- The mechanism at rest after the answer, its orders not yet cleared (R88, step 1). -/
def State.restedMech (s : State) : State := { s.restartAnswer with
  seq := { s.seq.liftStopped with flight := none, coverStop := false }, drv := { s.drv with rotTest := none } }

/-- The sequencer once homing has started afresh (R70, R88). -/
def Sequencer.rehomed (q : Sequencer) : Sequencer := { q with
  queue := [], flight := none, state := .homing, reason := .none, homing := some .home, pauseReq := none
  lift := (if q.liftTarget = none then q.lift else none)
  liftTarget := (if q.liftTarget = none ∧ q.lift = some .rest then none else some .rest)
  heatCounted := false, coverStop := false }

/-- The mechanism restarted in DIRECT with nothing in flight (R88). -/
theorem State.restartMech_direct (hf : s.seq.flight = none) (hh : s.seq.homing = none) (hst : s.seq.state ≠ .homing)
    (hc : s.coverOpen = false) (hm : s.comp.modeInEffect = .direct) (hl : s.comp.later = .none)
    (ht : s.comp.textWait = none) : s.restartMech = State.changedTo
      { s.restedMech.orderless.textChanged s.restedMech.atBoundary with
        seq := s.seq.rehomed
        comp := { s.comp with
          outgoing := none
          logical := ((lastWhere (fun e => e.state = .inked) s.line.kept).map (fun e => e.pos + e.adv)).getD s.comp.left } }
        .homing .none := by
  have hmech : s.restartMech = s.restedMech.clearOrders.rehome := by
    unfold State.restartMech
    rw [State.settled_of_resting (s := s.restartAnswer) hf hh]
    rfl
  have hclear := State.clearOrders_direct (s := s.restedMech) hm hl ht
  obtain ⟨htext, -⟩ := State.textChanged_direct (s := s.restedMech.orderless) hm hl ht s.restedMech.atBoundary
  have hseq : s.restedMech.clearOrders.seq = s.restedMech.orderless.seq := by
    rw [hclear]
    exact htext.keeps .seq (by decide)
  have hcover : s.restedMech.clearOrders.coverOpen = s.coverOpen := by
    rw [hclear]
    exact htext.keeps .coverOpen (by decide)
  rw [hmech, State.rehome_eq (by rw [hseq]; exact hh) (by rw [hcover, hc]) (by rw [hseq]; exact hst), hseq, hclear]
  have hlift : (if s.restedMech.orderless.seq.liftTarget.isSome then s.restedMech.orderless.seq.liftTarget
      else if s.restedMech.orderless.seq.lift = some .rest then none else some .rest) = s.seq.rehomed.liftTarget := by
    by_cases hl : s.seq.liftTarget = none
    · simp only [State.orderless, State.restedMech, Sequencer.liftStopped, Sequencer.rehomed, hl, true_and, if_true]
      rfl
    · simp only [State.orderless, State.restedMech, Sequencer.liftStopped, Sequencer.rehomed, hl, false_and, if_false]
      rfl
  rw [hlift]
  rfl

/-- What an EVENT makes of the return line depends on the return line alone (R177). -/
theorem State.event_ret_congr (h : s.ret = t.ret) (e : Event) : (s.event e).ret = (t.event e).ret := by
  unfold State.event
  rw [h]
  split <;> rfl

/-- Settles O27: the text follows the clearing of the orders, and then homing starts. -/
theorem restartMechClearsTheOrdersAndHomes : Obligations.RestartMechClearsTheOrdersAndHomes := by
  intro s h hq hf hh hst hc hm hl entries v
  have hexec := exec_restart (i := .restartMech) h rfl nofun rfl
  have hmech := State.restartMech_direct (s := s.reserve) hf hh hst hc hm hl hq.2.2
  obtain ⟨htext, -⟩ := State.textChanged_direct (s := s.reserve.restedMech.orderless) hm hl hq.2.2
    s.reserve.restedMech.atBoundary
  set x := s.reserve.restedMech.orderless.textChanged s.reserve.restedMech.atBoundary
  set y : State := { x with
    seq := s.seq.rehomed
    comp := { s.comp with
      outgoing := none
      logical := ((lastWhere (fun e => e.state = .inked) s.line.kept).map (fun e => e.pos + e.adv)).getD s.comp.left } }
  have hmech : s.reserve.restartMech = y.changedTo .homing .none := hmech
  have hsettle : s.reserve.restart .mech = (y.changedTo .homing .none).formImage := by
    show s.reserve.restartMech.settle s.reserve true = _
    rw [hmech]
    exact State.settle_of_quiet (s := y.changedTo .homing .none) (by simpa [State.changedTo] using hq.2.1)
      (by simpa [State.changedTo] using hq.2.2) true
  have hkeeps : s.keeps (y.changedTo .homing .none) [.seq, .comp, .line, .spell, .drv, .ctr, .ret, .window] := by
    have hrest : s.keeps s.reserve.restedMech.orderless [.seq, .comp, .line, .drv, .ret] := fun p hp => by
      cases p <;> simp_all [State.same, State.orderless, State.restedMech, State.restartAnswer, State.reserve]
    have hy : x.keeps y [.seq, .comp] := fun p hp => by cases p <;> simp_all [State.same, y]
    have hends : s.keeps x [.seq, .comp, .line, .spell, .drv, .ctr, .ret, .window] := State.keeps_trans (State.keeps_mono hrest (by decide)) (State.keeps_mono htext.keeps (by decide))
    exact State.keeps_trans (State.keeps_trans hends (State.keeps_mono hy (by decide)))
      (State.keeps_mono (y.keeps_changedTo .homing .none) (by decide))
  refine ⟨_, hexec.trans (congrArg _ hsettle), ?_, ?_, ?_, ?_, ?_, ?_, ?_, State.keeps.ends hkeeps (by decide) (by decide)⟩
  · simp [y, Sequencer.rehomed]
  · simp [y, State.changedTo]
    rfl
  · rw [State.formImage_same _ .line nofun]
    simp only [State.changedTo, State.event_frame]
    exact htext.entries
  · rw [State.formImage_same _ .line nofun]
    simp only [State.changedTo, State.event_frame]
    rw [show y.line = x.line from rfl, htext.line]
    rfl
  · rw [State.formImage_same _ .line nofun]
    simp only [State.changedTo, State.event_frame]
    rw [show y.line = x.line from rfl, htext.line]
    rfl
  · have hdrv : x.drv = { s.drv with rotTest := none } := htext.keeps .drv (by decide)
    simp [y, hdrv]
  · have hret : y.ret = s.ret.answered 0x11 .done [] := (htext.keeps .ret (by decide)).trans (by
      simp [State.orderless, State.restedMech, State.restartAnswer, State.reserve, State.answer, ReturnLine.answered])
    rw [State.formImage_same _ .ret nofun]
    exact State.event_ret_congr hret _

end Sys2Proof.Machine
end

section
/-! PROOF of O30. The settings that act when they are set. -/

namespace Sys2Proof.Machine

variable {s t u : State}

/-! ### No check is dropped by the sweep (R117, R125) -/

/-- No word of the table has lost its check. -/
def Spelling.noneDropped (p : Spelling) : Prop := ∀ w ∈ p.words, w.verdict ≠ .skipped .dropped

theorem Spelling.noneDropped.keepWords {p : Spelling} (h : p.noneDropped) (keep : SpellWord → Bool) :
    (p.keepWords keep).noneDropped := fun w hw => h w (List.mem_of_mem_filter hw)

theorem noneDropped_changeWord {p q : Spelling} (h : p.noneDropped) {n : Word} {v : Verdict} (hv : v ≠ .skipped .dropped)
    (hq : q.words = changeWord p.words n (fun w => { w with verdict := v })) : q.noneDropped := by
  intro w hw
  rw [hq] at hw
  obtain ⟨d, hd, rfl⟩ := List.mem_map.mp hw
  split
  · exact hv
  · exact h d hd

theorem State.setVerdict_noneDropped (h : s.spell.noneDropped) (n : Word) {v : Verdict} (hv : v ≠ .skipped .dropped) :
    (s.setVerdict n v).spell.noneDropped :=
  Spelling.noneDropped.keepWords (noneDropped_changeWord h hv rfl) _

theorem State.pumpEngine_words (s : State) : s.pumpEngine.spell.words = s.spell.words := by
  unfold State.pumpEngine
  split <;> rfl

theorem State.enterQueue_noneDropped (h : s.spell.noneDropped) (hroom : s.spell.checkq.length < checkPlaces) (n : Word) :
    (s.enterQueue n).spell.noneDropped := by
  have hdrop : s.dropOldest = s := by
    unfold State.dropOldest
    split
    · exact if_neg (Nat.not_le_of_lt hroom)
    · rfl
  unfold State.enterQueue State.appendCheck
  dsimp only
  rw [hdrop]
  split
  · exact noneDropped_changeWord (p := s.spell) h (by decide) rfl
  · split
    · exact h
    · intro w hw
      rw [State.pumpEngine_words] at hw
      exact noneDropped_changeWord (p := s.spell) (q := { s.spell with words := _ }) h (by decide) rfl w hw

theorem CheckStep.verdict_ne_dropped {w : SpellWord} {v : Verdict} (h : s.checkStep w = .verdict v) :
    v ≠ .skipped .dropped := by
  unfold State.checkStep at h
  split_ifs at h <;> cases h <;> decide

theorem State.checkWord_noneDropped (h : s.spell.noneDropped) {n : Word} {w : SpellWord}
    (hw : findWord s.spell.words n = some w) (hroom : s.checkStep w = .enqueue → s.spell.checkq.length < checkPlaces) :
    (s.checkWord n).spell.noneDropped := by
  unfold State.checkWord
  rw [hw]
  dsimp only
  cases hstep : s.checkStep w with
  | stay => exact h
  | verdict v => exact State.setVerdict_noneDropped h n (CheckStep.verdict_ne_dropped hstep)
  | enqueue => exact State.enterQueue_noneDropped h (hroom hstep) n

theorem State.runSweep_noneDropped (k : Nat) : ∀ {s : State}, s.spell.noneDropped →
    (State.runSweep k s).spell.noneDropped := by
  induction k with
  | zero => exact id
  | succ k ih =>
    intro s h
    unfold State.runSweep
    split
    case h_1 => exact h
    case h_2 n hn =>
      split
      case h_1 => exact h
      case h_2 w hw =>
        dsimp only
        split_ifs with hfull hdue
        · exact h
        · refine ih (s := { s.checkWord n with spell := { (s.checkWord n).spell with sweep := _ } })
            (State.checkWord_noneDropped h hw fun hstep => ?_)
          simpa [hdue, hstep] using hfull
        · exact ih (s := { s with spell := { s.spell with sweep := _ } }) h

theorem State.startSweep_noneDropped (h : s.spell.noneDropped) : s.startSweep.spell.noneDropped := by
  unfold State.startSweep State.spellOn
  refine State.runSweep_noneDropped _ ?_
  intro w hw
  rw [State.pumpEngine_words] at hw
  exact h w hw

theorem SpellWord.undropped_ne (w : SpellWord) : w.verdict.undropped ≠ .skipped .dropped := by
  unfold Verdict.undropped
  split
  · decide
  · assumption

/-! ### The wheel judged again (R10) -/

/-- WHEEL_WAIT entered again under the other failing condition changes its reason (R9). -/
theorem State.enter_again {st : MechState} {r : Reason} (h : s.seq.state = st) (hr : s.seq.reason ≠ r) :
    s.enter st r = State.event { s with seq := { s.seq with reason := r } } (.mechState st r) := by
  subst h
  rw [State.enter, if_neg (fun h => hr h.2), if_pos rfl]

section Judged

variable (hm : ¬(s.set.expectedWheel ≠ 0 ∧ s.set.expectedWheel ≠ s.seq.wheelCode))

theorem State.judged_of_mismatch (h : s.set.expectedWheel ≠ 0 ∧ s.set.expectedWheel ≠ s.seq.wheelCode) :
    s.judged = if s.seq.reason = .mismatch then s else State.event (State.event
      { s with seq := { s.seq with reason := .mismatch } } (.mechState .wheelWait .mismatch))
      (.wheelMismatch s.set.expectedWheel s.seq.wheelCode) := if_pos h

include hm

theorem State.judged_of_noMap (hno : s.active .wheelMap = none) :
    s.judged = if s.seq.reason = .noMap then s else State.event (State.event
      { s with seq := { s.seq with reason := .noMap } } (.mechState .wheelWait .noMap)) (.wheelNoMap s.seq.wheelCode) :=
  (if_neg hm).trans (if_pos hno)

variable (hmap : s.active .wheelMap ≠ none)
include hmap

theorem State.judged_of_pause {r : PauseReason} (hr : s.seq.pauseReq = some r) : s.judged = State.changedTo
    { s with seq := { s.seq with pauseReq := none } } .paused (if r = .key then .key else .command) := by
  rw [State.judged, if_neg hm, if_neg hmap, hr]

theorem State.judged_of_empty (hr : s.seq.pauseReq = none) (hq : s.seq.queue = []) :
    s.judged = s.changedTo .idle .none := by
  rw [State.judged, if_neg hm, if_neg hmap, hr]
  exact if_pos hq

theorem State.judged_of_orders (hr : s.seq.pauseReq = none) (hq : s.seq.queue ≠ []) :
    s.judged = (s.changedTo .running .none).runQueue := by
  rw [State.judged, if_neg hm, if_neg hmap, hr]
  exact if_neg hq

end Judged

theorem State.rejudge_of_waiting (h : s.seq.state = .wheelWait) : s.rejudge = s.judged := by
  rw [State.rejudge, if_pos h]
  by_cases hm : s.set.expectedWheel ≠ 0 ∧ s.set.expectedWheel ≠ s.seq.wheelCode
  · rw [State.wheelCondition_mismatch hm, State.judged_of_mismatch hm]
    dsimp only
    by_cases hr : s.seq.reason = .mismatch
    · rw [if_pos hr, if_pos hr]
    · rw [if_neg hr, if_neg hr, State.enterWheelWait, State.enter_again h hr]
  · by_cases hno : s.active .wheelMap = none
    · rw [State.wheelCondition_noMap hm hno, State.judged_of_noMap hm hno]
      dsimp only
      by_cases hr : s.seq.reason = .noMap
      · rw [if_pos hr, if_pos hr]
      · rw [if_neg hr, if_neg hr, State.enterWheelWait, State.enter_again h hr]
    · rw [State.wheelCondition_ready hm hno]
      cases hr : s.seq.pauseReq with
      | some r =>
        rw [State.judged_of_pause hm hno hr, State.enterReady, hr, ← PauseReason.reason_eq]
        exact State.enter_of_ne (s := { s with seq := { s.seq with pauseReq := none } })
          (by rw [show Sequencer.state _ = _ from h]; decide) _
      | none =>
        by_cases hq : s.seq.queue = []
        · rw [State.judged_of_empty hm hno hr hq]
          exact State.enterReady_idle hr hq (by rw [h]; decide)
        · rw [State.judged_of_orders hm hno hr hq]
          exact State.enterReady_running hr hq (by rw [h]; decide)

theorem State.judged_addsNoWait (s : State) : s.addsNoWait s.judged := by
  by_cases hm : s.set.expectedWheel ≠ 0 ∧ s.set.expectedWheel ≠ s.seq.wheelCode
  · rw [State.judged_of_mismatch hm]
    split <;> exact State.addsNoWait.of_comp (by simp)
  · by_cases hno : s.active .wheelMap = none
    · rw [State.judged_of_noMap hm hno]
      split <;> exact State.addsNoWait.of_comp (by simp)
    · cases hr : s.seq.pauseReq with
      | some r =>
        rw [State.judged_of_pause hm hno hr]
        exact State.addsNoWait.of_comp (by simp [State.changedTo])
      | none =>
        by_cases hq : s.seq.queue = []
        · rw [State.judged_of_empty hm hno hr hq]
          exact State.addsNoWait.of_comp (by simp [State.changedTo])
        · rw [State.judged_of_orders hm hno hr hq]
          exact State.addsNoWait.trans (State.addsNoWait.of_comp (by simp [State.changedTo])) (State.runQueue_addsNoWait _)

theorem State.rejudge_addsNoWait (s : State) : s.addsNoWait s.rejudge := by
  by_cases h : s.seq.state = .wheelWait
  · rw [State.rejudge_of_waiting h]
    exact s.judged_addsNoWait
  · rw [State.rejudge, if_neg h]
    exact State.addsNoWait.of_comp rfl

/-! ### The settings -/

/-- The words when SPELL goes off: no check is due (R124). -/
def Spelling.off (p : Spelling) : Spelling := Spelling.purge { p.abort with
  sweep := none
  words := p.words.map (fun (w : SpellWord) => if w.verdict = Verdict.pending then { w with verdict := .unchecked } else w) }

/-- The words when SPELL goes on: those whose check was dropped are due again (R117, R124). -/
def Spelling.on (p : Spelling) : Spelling := Spelling.purge { p with
  words := p.words.map (fun (w : SpellWord) => { w with verdict := w.verdict.undropped }) }

theorem State.setSpell_off (h : s.set.spell = true) :
    s.setSpell false = { s with set := { s.set with spell := false }, spell := s.spell.off } :=
  if_neg (by rw [h]; decide)

theorem State.setSpell_on (h : s.set.spell = false) : s.setSpell true = State.startSweep
    { s with set := { s.set with spell := true }, spell := s.spell.on } :=
  if_neg (by rw [h]; decide)

theorem Spelling.off_idle (p : Spelling) : p.off.idle ∧ p.off.sweep = none ∧ ∀ w ∈ p.off.words, w.verdict ≠ .pending := by
  refine ⟨⟨rfl, rfl⟩, rfl, fun w hw => ?_⟩
  obtain ⟨d, -, rfl⟩ := List.mem_map.mp (List.mem_of_mem_filter hw)
  split
  · exact (by decide : Verdict.unchecked ≠ Verdict.pending)
  · assumption

theorem Spelling.on_noneDropped (p : Spelling) : p.on.noneDropped := by
  intro w hw
  obtain ⟨d, -, rfl⟩ := List.mem_map.mp (List.mem_of_mem_filter hw)
  exact d.undropped_ne

/-- What SPELL leaves when it changes (R117, R124). -/
structure State.switchesSpell (s t : State) (v : Bool) : Prop where
  set : t.set = { s.set with spell := v }
  users : t.spell.users = s.spell.users
  nextWord : t.spell.nextWord = s.spell.nextWord
  marks : t.spell.marks = s.spell.marks
  off : v = false → t.spell.idle ∧ t.spell.sweep = none ∧ t.ctr = s.ctr ∧ ∀ w ∈ t.spell.words, w.verdict ≠ .pending
  on : v = true → t.spell.noneDropped
  get : ∀ k, k ≠ Counter.checksDropped → t.ctr.get k = s.ctr.get k
  keeps : s.keeps t [.set, .spell, .ctr]

theorem State.setSpell_switches {v : Bool} (h : s.set.spell ≠ v) : s.switchesSpell (s.setSpell v) v := by
  have hkeeps : s.keeps (s.setSpell v) [.set, .spell, .ctr] := fun p hp => by cases p <;> simp_all [State.same]
  cases v with
  | false =>
    rw [State.setSpell_off (by simpa using h)] at hkeeps ⊢
    obtain ⟨hidle, hsweep, hpending⟩ := s.spell.off_idle
    exact ⟨rfl, rfl, rfl, rfl, fun _ => ⟨hidle, hsweep, rfl, hpending⟩, nofun, fun _ _ => rfl, hkeeps⟩
  | true =>
    have hon := State.setSpell_on (s := s) (by simpa using h)
    rw [hon] at hkeeps ⊢
    refine ⟨by simp, by simp [State.startSweep]; rfl, by simp [State.startSweep]; rfl, by simp [State.startSweep]; rfl, nofun,
      fun _ => State.startSweep_noneDropped s.spell.on_noneDropped, fun k hk => State.spellOn_get _ hk, hkeeps⟩


theorem Setting.clamp_low {k : Setting} {n : Nat} (h : k.range = (0, n)) (v : Nat) : k.clamp v = min n v := by
  rw [Setting.clamp, h, Nat.zero_max]

theorem State.keeps_tellActive (s : State) (k : TableKind) : s.keeps (s.tellActive k) [.ret, .ctr] := by
  intro p hp
  cases p <;> simp_all [State.same]

theorem State.tellActive_tab (s : State) (k : TableKind) : (s.tellActive k).tab = s.tab := by simp

/-- An image started afresh is formed again with what the answer leaves. -/
theorem State.formImage_afresh {r r' : ReturnLine} (h : s.set.display = true) (hr : r = r') :
    State.formImage { s.freshImage with ret := r } =
      State.formImage { s with ret := r', disp := { s.disp with lastSent := none } } := by
  subst hr
  have hfresh := State.formImage_of_on (s := { s with disp := { s.disp with lastSent := none, slot := none } }) h rfl
  rw [State.freshImage, hfresh]
  have hends := State.formImage_of_on (s := { s with ret := r, disp := { s.disp with lastSent := none } })
    (im := s.image) h rfl
  refine (State.formImage_of_on (im := s.image) ?_ ?_).trans hends.symm
  exacts [h, rfl]

/-- Settles O30. -/
theorem settingsActWhenTheyAreSet : Obligations.SettingsActWhenTheyAreSet := by
  intro s hi lo h hq v held replied gives
  have hgives {id : Byte} {k : Setting} {n : Nat} {u : State} (hk : Setting.ofId id.toNat = some k) (hr : k.range = (0, n))
      (hu : s.reserve.applySetting (min n v) k = .done u) (hw : s.reserve.addsNoWait u) : gives id (min n v) u := by
    obtain ⟨hkey, htext⟩ := hw.quiet hq
    have hclamp := Setting.clamp_low hr (ofTwoBytes hi lo)
    have hset := exec_set_done (u := u) h hk (by rw [hclamp]; exact hu) hkey htext
    rw [hclamp] at hset
    exact hset
  refine ⟨?_, ?_, ?_, ?_, ?_⟩
  · intro x u
    have hnew (hx : s.set.keyboard ≠ x) : s.reserve.setKeyboard x = u.tellActive .keyMap := if_neg hx
    refine ⟨fun hx => ?_, fun hx hmap => ?_, fun i hx hmap => ?_⟩
    · refine hgives (k := .keyboard) rfl rfl (congrArg Applied.done ((if_pos hx).trans ?_)) (State.addsNoWait.of_comp rfl)
      show s.reserve = held s.set
      rfl
    · refine hgives (k := .keyboard) rfl rfl (congrArg Applied.done ((hnew hx).trans ?_)) (State.addsNoWait.of_comp rfl)
      rw [State.tellActive, hmap]
    · refine hgives (k := .keyboard) rfl rfl (congrArg Applied.done ((hnew hx).trans ?_)) (State.addsNoWait.of_comp (by simp [u, held]))
      rw [State.tellActive, hmap]
      rfl
  · intro x u mismatch ready
    have hset : s.reserve.withSet (fun c => { c with expectedWheel := x }) = u := rfl
    have hexpected {w : State} (hw : u.rejudge = w) : gives 12 x w :=
      hgives (k := .expectedWheel) rfl rfl (congrArg Applied.done hw)
        (hw ▸ State.addsNoWait.trans (t := u) (State.addsNoWait.of_comp rfl) u.rejudge_addsNoWait)
    refine ⟨fun hst => hexpected (if_neg hst), fun hst => ?_⟩
    have hjudged {w : State} (hw : u.judged = w) : gives 12 x w :=
      hexpected ((State.rejudge_of_waiting (s := u) hst).trans hw)
    exact ⟨fun hm hr => hjudged ((State.judged_of_mismatch (s := u) hm).trans (if_pos hr)),
      fun hm hr => hjudged ((State.judged_of_mismatch (s := u) hm).trans (if_neg (by rw [show u.seq.reason = _ from hr]; decide))),
      fun hm hmap hr => hjudged ((State.judged_of_noMap (s := u) hm hmap).trans (if_pos hr)),
      fun hm hmap hr => hjudged ((State.judged_of_noMap (s := u) hm hmap).trans
        (if_neg (by rw [show u.seq.reason = _ from hr]; decide))),
      fun r hm hr => hjudged (State.judged_of_pause (s := u) hm.1 hm.2 hr),
      fun hm hr hqueue => hjudged (State.judged_of_empty (s := u) hm.1 hm.2 hr hqueue),
      fun hm hr hqueue => hjudged (State.judged_of_orders (s := u) hm.1 hm.2 hr hqueue)⟩
  · intro x
    have hset (b : Bool) : s.reserve.withSet (fun c => { c with display := b }) = held { s.set with display := b } := rfl
    refine ⟨fun hx => ?_, fun hd hx => ?_, fun hd hx => ?_, ?_⟩
    · exact hgives (id := 18) (k := .display) rfl rfl (congrArg Applied.done (if_pos hx)) (State.addsNoWait.of_comp rfl)
    · refine hgives (id := 18) (k := .display) rfl rfl (congrArg Applied.done ?_) (State.addsNoWait.of_comp rfl)
      rw [State.setDisplay, show min 1 v = 0 from hx]
      exact if_neg (by rw [show s.reserve.set.display = true from hd]; decide)
    · have hfresh : s.reserve.setDisplay (min 1 v = 1 : Bool) = State.freshImage (held { s.set with display := true }) := by
        rw [State.setDisplay, show min 1 v = 1 from hx]
        exact if_neg (by rw [show s.reserve.set.display = false from hd]; decide)
      have hends := hgives (id := 18) (k := .display) rfl rfl (congrArg Applied.done hfresh)
        (State.addsNoWait.of_comp (by simp [State.freshImage, held]))
      refine hends.trans (congrArg _ ?_)
      exact State.formImage_afresh (s := held { s.set with display := true }) rfl rfl
    · refine hgives (id := 19) (k := .beeper) rfl rfl (congrArg Applied.done ?_) (State.addsNoWait.of_comp rfl)
      unfold State.setBeeper
      by_cases hx : min 1 v = 1
      · simp only [hx, decide_true, if_true, x]
        rfl
      · simp only [hx, decide_false, if_false, x]
        rfl
  · intro x
    refine ⟨fun hx => ?_, fun hx => ?_⟩
    · exact hgives (k := .spell) rfl rfl (congrArg Applied.done (if_pos hx)) (State.addsNoWait.of_comp rfl)
    · have hp := State.setSpell_switches (s := s.reserve) (v := (x = 1 : Bool)) hx
      set p := s.reserve.setSpell (x = 1 : Bool)
      have hexec := hgives (id := 8) (k := .spell) (u := p) rfl rfl rfl (State.addsNoWait.of_comp (hp.keeps .comp (by decide)))
      obtain ⟨hset, husers, hnext, hmarks, hoff, hon, hget, hkeeps⟩ := hp
      refine ⟨_, hexec, by simpa using hset, State.reserve_ret_answered (u := p) (hkeeps .ret (by decide)) 0x01 _ _,
        by simpa using husers, by simpa using hnext, by simpa using hmarks, fun hx0 => ?_, fun hx1 => ?_, fun k hk => ?_,
        State.answered_ends hkeeps (by decide) (by decide) 0x01 _ _⟩
      · obtain ⟨⟨he, hc⟩, hs, hctr, hw⟩ := hoff (by rw [hx0]; rfl)
        simpa using ⟨he, hc, hs, hctr, hw⟩
      · simpa [Spelling.noneDropped] using hon (by rw [hx1]; rfl)
      · simpa using hget k hk
  · intro x u
    have hsel : u.active .lexicon = s.active .lexicon → s.reserve.setLanguage x = u := fun hx => if_pos hx
    refine ⟨fun hx => hgives (k := .language) rfl rfl (congrArg Applied.done (hsel hx)) (State.addsNoWait.of_comp rfl), fun hx => ?_⟩
    intro w
    have htold : u.tellActive .lexicon = w := by
      unfold State.tellActive
      split
      case h_1 i hi =>
        rw [show w = _ from if_neg (by rw [hi]; exact nofun), hi]
        rfl
      case h_2 hnone => exact (if_pos hnone).symm
    have hlang : s.reserve.setLanguage x = w.lexiconChanged := by
      rw [← htold]
      exact if_neg hx
    have hresp := w.lexiconChanged_respells
    have hwu : u.keeps w [.ret, .ctr] := htold ▸ u.keeps_tellActive .lexicon
    have hu : s.keeps u [.set, .ret] := fun p hp => by cases p <;> simp_all [State.same, u, held]
    have hw : s.keeps w [.set, .ctr, .ret] := State.keeps_trans (State.keeps_mono hu (by decide)) (State.keeps_mono hwu (by decide))
    have hcomp : w.comp = s.comp := hw .comp (by decide)
    have hline : w.line = s.line := hw .line (by decide)
    have hspell : w.spell = s.spell := hw .spell (by decide)
    have hactive : w.active .lexicon = u.active .lexicon := by
      have htab : w.tab = u.tab := htold ▸ u.tellActive_tab .lexicon
      have hset : w.set = u.set := hwu .set (by decide)
      simp only [State.active, State.selection, htab, hset]
    have hexec := hgives (id := 10) (k := .language) rfl rfl (congrArg Applied.done hlang)
      (State.addsNoWait.trans (State.addsNoWait.of_comp hcomp) hresp.addsNoWait)
    have hkeeps : s.keeps w.lexiconChanged [.set, .spell, .line, .comp, .ctr, .ret] :=
      State.keeps_trans (State.keeps_mono hw (by decide)) (State.keeps_mono hresp.keeps (by decide))
    set z : State := { w.lexiconChanged with ret := replied x w.lexiconChanged.ret } with hz
    have hzkeeps : s.keeps z [.set, .spell, .line, .comp, .ctr, .ret] := State.keeps_trans hkeeps
      (State.keeps_mono (w.lexiconChanged.keeps_answer 0x01 (if x = v then .done else .doneClamped) (twoBytes x ++ [0]))
        (by decide))
    have hends (p : Part) (hp : p ≠ .image) := State.formImage_same z p hp
    have hline' : z.formImage.line = w.lexiconChanged.line := hends .line nofun
    have hcomp' : z.formImage.comp = w.lexiconChanged.comp := hends .comp nofun
    have hspell' : z.formImage.spell = w.lexiconChanged.spell := hends .spell nofun
    have hctr' : z.formImage.ctr = w.lexiconChanged.ctr := hends .ctr nofun
    refine ⟨z.formImage, hexec, ?_, ?_, ?_, ?_, fun hnone => ?_, ?_, ?_, ?_, fun k hk => ?_,
      State.keeps.ends hzkeeps (by decide) (by decide)⟩
    · exact (hends .set nofun).trans ((hresp.keeps .set (by decide)).trans (hwu .set (by decide)))
    · exact (hends .ret nofun).trans (congrArg (replied x) (hresp.keeps .ret (by decide)))
    · rw [hspell', hresp.users, hspell]
    · rw [hspell', hresp.marks, hspell]
    · rw [hspell']
      exact State.lexiconChanged_idle (hactive.trans hnone)
    · rw [hline', hresp.entries, hline]
    · rw [hcomp', hresp.recs, hcomp]
    · rw [hcomp', hresp.comp, hcomp]
    · rw [hctr', hresp.get k hk]

end Sys2Proof.Machine
end

section
/-! PROOF of O31. The readers follow a table that becomes active or goes, and the mechanism judges its wheel again. -/

namespace Sys2Proof.Machine

variable {s t u : State}

/-! ### What the start of the queue leaves of the text (R72, R101) -/

/-- The sequencer has gone on: of the text the strikes and the word references follow. -/
structure State.runs (s t : State) : Prop where
  recs : plainRecs t.comp.recs = plainRecs s.comp.recs
  line : t.line = { s.line with entries := t.line.entries }
  comp : t.comp = { s.comp with recs := t.comp.recs }
  users : t.spell.users = s.spell.users
  keeps : s.keeps t [.spell, .line, .comp, .seq, .drv, .ret, .ctr, .window]

theorem State.runs.trans (h : s.runs t) (k : t.runs u) : s.runs u where
  recs := k.recs.trans h.recs
  line := by rw [k.line, h.line]
  comp := by rw [k.comp, h.comp]
  users := k.users.trans h.users
  keeps := State.keeps_trans h.keeps k.keeps

/-- The text stands. -/
theorem State.runs_of_text (hc : t.comp = s.comp) (hl : t.line = { s.line with entries := t.line.entries })
    (hu : t.spell = s.spell) (hk : s.keeps t [.line, .seq, .drv, .ret, .ctr]) : s.runs t :=
  ⟨by rw [hc], hl, by rw [hc], by rw [hu], State.keeps_mono hk (by decide)⟩

theorem State.runs.refl (s : State) : s.runs s :=
  State.runs_of_text rfl rfl rfl fun p _ => by cases p <;> simp [State.same]

theorem State.retexts.runs (h : s.retexts t) : s.runs t :=
  ⟨h.recs, h.line, h.comp, h.users, State.keeps_mono h.keeps (by decide)⟩

theorem State.event_runs (s : State) (e : Event) : s.runs (s.event e) :=
  State.runs_of_text (by simp) (by simp) (by simp) fun p hp => by cases p <;> simp_all [State.same]

theorem State.enter_runs (s : State) (st : MechState) (r : Reason) : s.runs (s.enter st r) :=
  State.runs_of_text (by simp) (by simp) (by simp) fun p hp => by cases p <;> simp_all [State.same]

theorem State.runs_seq (s : State) (q : Sequencer) : s.runs { s with seq := q } :=
  State.runs_of_text rfl rfl rfl fun p hp => by cases p <;> simp_all [State.same]

theorem State.runs_entries (s : State) (l : List Entry) : s.runs { s with line := { s.line with entries := l } } :=
  State.runs_of_text rfl rfl rfl fun p hp => by cases p <;> simp_all [State.same]

theorem State.reportStrike_runs (s : State) (ref : Option Word) (num : Word) (f : StrikeStatus → StrikeStatus) :
    s.runs (s.reportStrike ref num f) := by
  rw [State.reportStrike_eq]
  exact s.runs_entries _

/-- An entry that is changed and stays reaches no line boundary (R25). -/
theorem State.changeEntry_textChanged (s : State) (n : Word) (f : Entry → Entry) :
    State.textChanged s.atBoundary { s with line := s.line.change n f } =
      State.followText { s with line := s.line.change n f } := by
  set v : State := { s with line := s.line.change n f } with hv
  have hbound : v.atBoundary = s.atBoundary := by
    have hentries : v.line.entries.isEmpty = s.line.entries.isEmpty :=
      isEmpty_of_length (by simp [hv, LineRecord.change])
    simp only [State.atBoundary, hentries]
    rfl
  unfold State.textChanged State.boundaryAfter
  rw [v.followText_retexts.atBoundary, hbound]
  exact if_neg (by cases s.atBoundary <;> decide)

theorem State.changeEntry_runs (s : State) (n : Word) (f : Entry → Entry) :
    s.runs (State.textChanged s.atBoundary { s with line := s.line.change n f }) := by
  rw [State.changeEntry_textChanged]
  exact (s.runs_entries _).trans (State.followText_retexts _).runs

/-- A LIFT that is skipped removes no entry, so that no line boundary is reached (R101). -/
theorem State.reportLift_skipped_runs (s : State) (ref : Option Word) : s.runs (s.reportLift ref true) := by
  have hchange (f : Entry → Entry) (n : Word) : s.runs { s with line := s.line.change n f } := s.runs_entries _
  unfold State.reportLift
  split
  case h_1 => exact .refl s
  case h_2 e he =>
    have hskipped : (e.liftDone true).liftSkipped = true := Bool.or_true _
    dsimp only
    rw [hskipped]
    split_ifs
    · exact .refl s
    · exact hchange _ _
    · exact s.changeEntry_runs _ _
    case neg h => exact absurd rfl h

theorem State.skipOrder_runs (s : State) (o : Order) : s.runs (s.skipOrder o) := by
  have hpop := s.runs_seq s.popOrder.seq
  have hraise : s.runs (s.popOrder.raise .unprintable) :=
    hpop.trans (State.runs_of_text rfl rfl rfl fun p hp => by cases p <;> simp_all [State.same, State.popOrder])
  cases o with
  | strike code p role ref num => exact hraise.trans (State.reportStrike_runs _ _ _ _)
  | lift pt w p l ref => exact (hpop.trans (State.event_runs _ _)).trans (State.reportLift_skipped_runs _ _)
  | move p => exact hraise
  | index c => exact hraise
  | indexPage => exact hraise

theorem State.startPosition_runs (s : State) (o : Order) (petal level : Nat) : s.runs (s.startPosition o petal level) := by
  have hseq (q : Sequencer) : s.runs { s with seq := q } := s.runs_seq q
  unfold State.startPosition State.reportInFlight
  split
  · exact (hseq _).trans (State.reportStrike_runs _ _ _ _)
  · exact hseq _

theorem State.enterWheelWait_runs (s : State) (c : WheelCondition) : s.runs (s.enterWheelWait c) := by
  cases c with
  | ready => exact .refl s
  | mismatch => exact (s.enter_runs _ _).trans (State.event_runs _ _)
  | noMap => exact (s.enter_runs _ _).trans (State.event_runs _ _)

theorem State.runOrders_runs (n : Nat) : ∀ s : State, s.runs (State.runOrders n s) := by
  induction n with
  | zero => exact fun s => .refl s
  | succ n ih =>
    intro s
    unfold State.runOrders
    split
    · exact (s.runs_seq _).trans (State.enter_runs _ _ _)
    · split
      · exact s.enter_runs _ _
      · split
        · exact s.startPosition_runs _ _ _
        · exact (s.skipOrder_runs _).trans (ih _)
        · exact s.enterWheelWait_runs _
        · exact (s.runs_seq _).trans (ih _)
        · exact s.runs_seq _
        · exact s.runs_seq _

theorem State.runQueue_runs (s : State) : s.runs s.runQueue := State.runOrders_runs _ s

theorem State.changedTo_runs (s : State) (st : MechState) (r : Reason) : s.runs (s.changedTo st r) :=
  State.runs_of_text (by simp [State.changedTo]) (by simp [State.changedTo]) (by simp [State.changedTo])
    fun p hp => by cases p <;> simp_all [State.same, State.changedTo]

theorem State.judged_runs (s : State) : s.runs s.judged := by
  by_cases hm : s.set.expectedWheel ≠ 0 ∧ s.set.expectedWheel ≠ s.seq.wheelCode
  · rw [State.judged_of_mismatch hm]
    split
    · exact .refl s
    · exact ((s.runs_seq _).trans (State.event_runs _ _)).trans (State.event_runs _ _)
  · by_cases hno : s.active .wheelMap = none
    · rw [State.judged_of_noMap hm hno]
      split
      · exact .refl s
      · exact ((s.runs_seq _).trans (State.event_runs _ _)).trans (State.event_runs _ _)
    · cases hr : s.seq.pauseReq with
      | some r =>
        rw [State.judged_of_pause hm hno hr]
        exact (s.runs_seq _).trans (State.changedTo_runs _ _ _)
      | none =>
        by_cases hq : s.seq.queue = []
        · rw [State.judged_of_empty hm hno hr hq]
          exact s.changedTo_runs _ _
        · rw [State.judged_of_orders hm hno hr hq]
          exact (s.changedTo_runs _ _).trans (State.runQueue_runs _)

/-! ### The wheel judged again after a change of the directory (R10, R158, R163) -/

/-- What a change of the directory leaves that makes the mechanism in WHEEL_WAIT judge again, but for the answer. -/
structure State.rejudges (s u t : State) : Prop where
  tab : t.tab = u.tab
  seq : t.seq = u.judged.seq
  drv : t.drv = u.judged.drv
  get : ∀ k, k ≠ Counter.checksDropped → t.ctr.get k = u.judged.ctr.get k
  window : t.disp.window = u.judged.disp.window
  intake : t.intake = (if t.active .keyMap = s.active .keyMap then s.intake else { s.intake with timer := none })
  entries : plain t.line.entries = plain u.judged.line.entries
  line : t.line = { s.line with entries := t.line.entries }
  recs : plainRecs t.comp.recs = plainRecs s.comp.recs
  comp : t.comp = { s.comp with recs := t.comp.recs }
  users : t.spell.users = s.spell.users
  keeps : s.keeps t [.slots, .sealing, .intake, .spell, .line, .comp, .seq, .drv, .ret, .ctr, .window, .image]

theorem State.active_congr (ht : t.tab = s.tab) (hs : t.set = s.set) (hq : t.seq.wheelCode = s.seq.wheelCode) (k : TableKind) :
    t.active k = s.active k := by
  simp only [State.active, State.selection, ht, hs, hq]

theorem State.active_keyMap_congr (ht : t.tab = s.tab) (hs : t.set = s.set) : t.active .keyMap = s.active .keyMap := by
  simp only [State.active, State.selection, ht, hs]

theorem State.keeps.tab {l : List Part} (h : s.keeps t l) (hm : .mem ∉ l) (hs : .slots ∉ l) (he : .sealing ∉ l) :
    t.tab = s.tab := by
  have hmem : t.tab.mem = s.tab.mem := h .mem hm
  have hslots : t.tab.slots = s.tab.slots := h .slots hs
  have hseal : t.tab.sealing = s.tab.sealing := h .sealing he
  calc t.tab = ⟨t.tab.mem, t.tab.slots, t.tab.sealing⟩ := rfl
    _ = s.tab := by rw [hmem, hslots, hseal]

/-- The readers act on a directory that is left in WHEEL_WAIT. -/
theorem State.readersAct_rejudges {pre : State} (hu : u.seq.state = .wheelWait)
    (hk : pre.active .keyMap = s.active .keyMap) (hs : s.keeps u [.slots, .sealing, .ret, .ctr])
    (ht : (pre.readersAct u).keeps t [.ret, .image]) : s.rejudges u t := by
  have hact : pre.readersAct u = State.readersFollow pre u.judged := by
    rw [State.readersAct_eq, State.rejudge_of_waiting hu]
  set j := u.judged with hj
  have hjudged := u.judged_runs
  have hfollow := State.readersFollow_respells pre j
  rw [hact] at ht
  set r := State.readersFollow pre j
  have hintake : j.intake = s.intake := (hjudged.keeps .intake (by decide)).trans (hs .intake (by decide))
  have hjtab : j.tab = u.tab := hjudged.keeps.tab (by decide) (by decide) (by decide)
  set v : State := { j with
    intake := if j.active .keyMap = pre.active .keyMap then j.intake else { j.intake with timer := none } } with hv
  have hends : v.keeps t [.spell, .line, .comp, .ctr, .ret, .image] :=
    State.keeps_trans (State.keeps_mono hfollow.keeps (by decide)) (State.keeps_mono ht (by decide))
  have htab : t.tab = j.tab := hends.tab (by decide) (by decide) (by decide)
  have hset : t.set = j.set := hends .set (by decide)
  have hline : t.line = r.line := ht .line (by decide)
  have hcomp : t.comp = r.comp := ht .comp (by decide)
  have hspell : t.spell = r.spell := ht .spell (by decide)
  have hctr : t.ctr = r.ctr := ht .ctr (by decide)
  have hulines : u.line = s.line := hs .line (by decide)
  have hucomp : u.comp = s.comp := hs .comp (by decide)
  have huspell : u.spell = s.spell := hs .spell (by decide)
  refine ⟨htab.trans hjtab, hends .seq (by decide), hends .drv (by decide), fun k hk => ?_, hends .window (by decide),
    ?_, ?_, ?_, ?_, ?_, ?_, ?_⟩
  · rw [hctr, hfollow.get k hk]
  · have hactive : t.active .keyMap = j.active .keyMap := State.active_keyMap_congr htab hset
    rw [hactive, ← hk, ← hintake]
    exact hends .intake (by decide)
  · rw [hline, hfollow.entries]
  · rw [hline, hfollow.line, show v.line = j.line from rfl, hjudged.line, hulines]
  · rw [hcomp, hfollow.recs, show v.comp = j.comp from rfl, hjudged.recs, hucomp]
  · rw [hcomp, hfollow.comp, show v.comp = j.comp from rfl, hjudged.comp, hucomp]
  · rw [hspell, hfollow.users, show v.spell = j.spell from rfl, hjudged.users, huspell]
  · have hsj : s.keeps j [.slots, .sealing, .intake, .spell, .line, .comp, .seq, .drv, .ret, .ctr, .window, .image] :=
      State.keeps_trans (State.keeps_mono hs (by decide)) (State.keeps_mono hjudged.keeps (by decide))
    have hjv : j.keeps v [.intake] := fun p hp => by cases p <;> simp_all [State.same]
    exact State.keeps_trans (State.keeps_trans hsj (State.keeps_mono hjv (by decide))) (State.keeps_mono hends (by decide))

theorem State.readersAct_addsNoWait (pre u : State) : u.addsNoWait (pre.readersAct u) := by
  rw [State.readersAct_eq]
  exact (u.rejudge_addsNoWait.trans (State.addsNoWait.of_comp rfl)).trans
    (State.readersFollow_respells pre u.rejudge).addsNoWait

theorem State.readersAct_ret {pre : State} (hu : u.seq.state = .wheelWait) : (pre.readersAct u).ret = u.judged.ret := by
  rw [State.readersAct_eq, State.rejudge_of_waiting hu]
  exact (State.readersFollow_respells pre u.judged).keeps .ret (by decide)

theorem State.readersAct_image (pre u : State) : u.same (pre.readersAct u) .image := by
  have hjudge : u.same u.rejudge .image := by
    by_cases hu : u.seq.state = .wheelWait
    · rw [State.rejudge_of_waiting hu]
      exact u.judged_runs.keeps .image (by decide)
    · rw [show u.rejudge = u from if_neg hu]
      exact ⟨rfl, rfl⟩
  have hfollow : u.rejudge.same (pre.readersAct u) .image := by
    rw [State.readersAct_eq]
    exact (State.readersFollow_respells pre u.rejudge).keeps .image (by decide)
  exact ⟨hfollow.1.trans hjudge.1, hfollow.2.trans hjudge.2⟩

/-- A command that changes the directory in WHEEL_WAIT, its answer last. -/
theorem exec_rejudges {c : Instr} {pre : State} {code : Byte} {o : CmdOutcome} {data : List Byte} (hq : s.quiet)
    (hu : u.seq.state = .wheelWait) (hk : pre.active .keyMap = s.active .keyMap)
    (hs : s.keeps u [.slots, .sealing, .ret, .ctr])
    (hexec : exec c s = .next (((pre.readersAct u).settle pre).answer code o data)) :
    ∃ t, exec c s = .next t ∧ s.rejudges u t ∧ t.ret = { u.judged.ret with
      reports := u.judged.ret.reports ++ [.answer code o data], reserved := u.judged.ret.reserved - 1 } ∧
      s.imageFollows t := by
  have hsu : s.addsNoWait u := State.addsNoWait.of_comp (hs .comp (by decide))
  obtain ⟨hkey, htext⟩ := (hsu.trans (State.readersAct_addsNoWait pre u)).quiet hq
  set z := (pre.readersAct u).answer code o data with hz
  have hends : (pre.readersAct u).keeps z.formImage [.ret, .image] :=
    State.keeps_trans (State.keeps_mono (State.keeps_answer _ code o data) (by decide))
      (State.keeps_mono z.keeps_formImage (by decide))
  obtain ⟨hcurrent, hslot⟩ := pre.readersAct_image u
  obtain ⟨hcurrent', hslot'⟩ := hs .image (by decide)
  refine ⟨z.formImage, hexec.trans (congrArg _ (State.settle_answer hkey htext _ _ _)),
    State.readersAct_rejudges hu hk hs hends, ?_, State.imageFollows_formImage (hcurrent.trans hcurrent') (hslot.trans hslot')⟩
  rw [← State.readersAct_ret (pre := pre) hu]
  exact State.formImage_same z .ret nofun

/-! ### The tables that are active (R163, R166) -/

theorem indexWhere_eq_findIdx? {α : Type} (p : α → Bool) (l : List α) : indexWhere p l = l.findIdx? p := by
  induction l with
  | nil => rfl
  | cons a l ih =>
    rw [indexWhere, List.findIdx?_cons, ih]

/-- A slot that is SEALED of a kind and key. -/
def Slot.holds (d : Slot) (k : TableKind) (key : Nat) : Prop := d.state = .sealed ∧ d.kind = k ∧ d.key = key

theorem findSealed_eq_some {l : List Slot} {k : TableKind} {key i : Nat} (hi : i < l.length)
    (h : ∀ j (hj : j < l.length), (l[j]).holds k key ↔ j = i) : findSealed l k key = some i := by
  rw [findSealed, indexWhere_eq_findIdx?, List.findIdx?_eq_some_iff_getElem]
  refine ⟨hi, ?_, fun j hj => ?_⟩
  · simpa [Slot.holds, and_assoc] using (h i hi).mpr rfl
  · have hne := mt (h j (hj.trans hi)).mp hj.ne
    simpa [Slot.holds, and_assoc] using hne

theorem findSealed_eq_none {l : List Slot} {k : TableKind} {key : Nat} (h : ∀ d ∈ l, ¬d.holds k key) :
    findSealed l k key = none := by
  rw [findSealed, indexWhere_eq_findIdx?, List.findIdx?_eq_none_iff]
  intro d hd
  simpa [Slot.holds, and_assoc] using h d hd

theorem findSealed_holds {l : List Slot} {k : TableKind} {key i : Nat} (h : findSealed l k key = some i) :
    (slotAt l i).holds k key := by
  rw [findSealed, indexWhere_eq_findIdx?, List.findIdx?_eq_some_iff_getElem] at h
  obtain ⟨hi, hp, -⟩ := h
  rw [slotAt_of_lt hi]
  simpa [Slot.holds, and_assoc] using hp

theorem findSealed_isSome {l : List Slot} {k : TableKind} {key i : Nat} (h : (slotAt l i).holds k key) :
    findSealed l k key ≠ none := by
  have hi : i < l.length := slotAt_lt (by rw [h.1]; decide)
  rw [findSealed, indexWhere_eq_findIdx?, ne_eq, List.findIdx?_eq_none_iff]
  intro hall
  have hp := hall _ (List.getElem_mem hi)
  rw [slotAt_of_lt hi] at h
  simp [h.1, h.2.1, h.2.2] at hp

/-- The one table of a kind and key goes (R162). -/
theorem findSealed_gone {l : List Slot} {k : TableKind} {key i : Nat} {v : Slot} (h : (slotAt l i).holds k key)
    (hone : l.Pairwise (fun d e => ¬(d.state = .sealed ∧ e.state = .sealed ∧ d.kind = e.kind ∧ d.key = e.key)))
    (hv : v.state ≠ .sealed) : findSealed (setAt l i v) k key = none := by
  have hi : i < l.length := slotAt_lt (by rw [h.1]; decide)
  rw [slotAt_of_lt hi] at h
  refine findSealed_eq_none fun d hd hholds => ?_
  rw [setAt_eq_set] at hd
  obtain ⟨j, hj, rfl⟩ := List.getElem_of_mem hd
  rw [List.getElem_set] at hholds
  split at hholds
  · exact hv hholds.1
  case isFalse hne =>
    rw [List.length_set] at hj
    obtain ⟨hst, hkind, hkey⟩ := h
    obtain ⟨hst', hkind', hkey'⟩ := hholds
    have hpair := List.pairwise_iff_getElem.mp hone
    rcases Nat.lt_or_gt_of_ne hne with hlt | hgt
    · exact hpair i j hi hj hlt ⟨hst, hst', hkind.trans hkind'.symm, hkey.trans hkey'.symm⟩
    · exact hpair j i hj hi hgt ⟨hst', hst, hkind'.trans hkind.symm, hkey'.trans hkey.symm⟩

/-- The table just sealed is the one of its kind and key (R162). -/
theorem findSealed_sealed {l : List Slot} {i : Nat} (hi : i < l.length) (check : Word) (guarded : Bool) :
    findSealed (sealSlots l i check guarded) (slotAt l i).kind (slotAt l i).key = some i := by
  unfold sealSlots
  rw [setAt_eq_set]
  refine findSealed_eq_some (by simpa using hi) fun j hj => ?_
  rw [List.getElem_set]
  split
  case isTrue hij =>
    subst hij
    exact ⟨fun _ => rfl, fun _ => ⟨rfl, rfl, rfl⟩⟩
  case isFalse hne =>
    refine ⟨fun h => ?_, fun h => absurd h.symm hne⟩
    rw [List.getElem_map] at h
    split at h
    · exact absurd h.1 (by decide)
    case isFalse hno => exact absurd h hno

/-! ### The readers outside WHEEL_WAIT (R158, R163) -/

section Follow

variable {pre : State} (hw : u.seq.state ≠ .wheelWait) {k : TableKind} (hk : u.active k ≠ pre.active k)
  (hother : ∀ k', k' ≠ k → u.active k' = pre.active k')
include hw hk hother

theorem State.readersAct_wheelMap (h : k = .wheelMap) : pre.readersAct u = u := by
  subst h
  exact State.readersAct_of_same hw (hother .keyMap (by decide)) (hother .lexicon (by decide))

theorem State.readersAct_keyMap (h : k = .keyMap) :
    pre.readersAct u = { u with intake := { u.intake with timer := none } } := by
  subst h
  rw [State.readersAct_of_not_waiting hw, State.readersFollow, if_pos (hother .lexicon (by decide)), if_neg hk]

theorem State.readersAct_lexicon (h : k = .lexicon) : pre.readersAct u = u.lexiconChanged := by
  subst h
  rw [State.readersAct_of_not_waiting hw, State.readersFollow, if_neg hk, if_pos (hother .keyMap (by decide))]

end Follow

/-- What the readers of a kind leave once its active table has changed (R158, R163). -/
structure State.followsKind (s u t : State) (k : TableKind) : Prop where
  tab : t.tab = u.tab
  get : ∀ c, c ≠ Counter.checksDropped → t.ctr.get c = u.ctr.get c
  active : ∀ k', t.active k' = u.active k'
  wheelMap : k = .wheelMap → s.keeps t [.slots, .sealing, .ret, .ctr, .image]
  keyMap : k = .keyMap → t.intake = { s.intake with timer := none } ∧
    s.keeps t [.slots, .sealing, .intake, .ret, .ctr, .image]
  lexicon : k = .lexicon → t.spell.users = s.spell.users ∧ t.spell.marks = s.spell.marks ∧
    plain t.line.entries = plain s.line.entries ∧ plainRecs t.comp.recs = plainRecs s.comp.recs ∧
    s.keeps t [.slots, .sealing, .spell, .line, .comp, .ret, .ctr, .image]
  idle : k = .lexicon → u.active .lexicon = none → t.spell.idle

theorem State.readersAct_follows {pre : State} {k : TableKind} (hw : u.seq.state ≠ .wheelWait)
    (hk : u.active k ≠ pre.active k) (hother : ∀ k', k' ≠ k → u.active k' = pre.active k')
    (hs : s.keeps u [.slots, .sealing, .ret, .ctr]) (ht : (pre.readersAct u).keeps t [.ret, .image]) :
    s.followsKind u t k := by
  have htab {x : State} (hx : pre.readersAct u = x) (hxu : x.tab = u.tab) (hset : x.set = u.set) (hseq : x.seq = u.seq) :
      t.tab = u.tab ∧ ∀ k', t.active k' = u.active k' := by
    subst hx
    have htab := (ht.tab (by decide) (by decide) (by decide)).trans hxu
    have hts : t.set = u.set := (ht .set (by decide)).trans hset
    have htq : t.seq = u.seq := (ht .seq (by decide)).trans hseq
    exact ⟨htab, State.active_congr htab hts (by rw [htq])⟩
  cases k with
  | wheelMap =>
    have hact := State.readersAct_wheelMap hw hk hother rfl
    obtain ⟨htabs, hactive⟩ := htab hact rfl rfl rfl
    rw [hact] at ht
    refine ⟨htabs, fun c _ => ?_, hactive, fun _ => State.keeps_trans (State.keeps_mono hs (by decide))
      (State.keeps_mono ht (by decide)), nofun, nofun, nofun⟩
    rw [show t.ctr = u.ctr from ht .ctr (by decide)]
  | keyMap =>
    have hact := State.readersAct_keyMap hw hk hother rfl
    obtain ⟨htabs, hactive⟩ := htab hact rfl rfl rfl
    rw [hact] at ht
    have huv : u.keeps { u with intake := { u.intake with timer := none } } [.intake] :=
      fun p hp => by cases p <;> simp_all [State.same]
    have hkeeps : s.keeps t [.slots, .sealing, .intake, .ret, .ctr, .image] :=
      State.keeps_trans (State.keeps_trans (State.keeps_mono hs (by decide)) (State.keeps_mono huv (by decide)))
        (State.keeps_mono ht (by decide))
    have hintake : u.intake = s.intake := hs .intake (by decide)
    refine ⟨htabs, fun c _ => ?_, hactive, nofun, fun _ => ⟨?_, hkeeps⟩, nofun, nofun⟩
    · rw [show t.ctr = u.ctr from ht .ctr (by decide)]
    · rw [← hintake]
      exact ht .intake (by decide)
  | lexicon =>
    have hact := State.readersAct_lexicon hw hk hother rfl
    obtain ⟨htabs, hactive⟩ := htab hact (by simp) (by simp) (by simp)
    rw [hact] at ht
    have hresp := u.lexiconChanged_respells
    have hkeeps : s.keeps t [.slots, .sealing, .spell, .line, .comp, .ret, .ctr, .image] :=
      State.keeps_trans (State.keeps_trans (State.keeps_mono hs (by decide)) (State.keeps_mono hresp.keeps (by decide)))
        (State.keeps_mono ht (by decide))
    have hspell : t.spell = u.lexiconChanged.spell := ht .spell (by decide)
    refine ⟨htabs, fun c hc => ?_, hactive, nofun, nofun, fun _ => ⟨?_, ?_, ?_, ?_, hkeeps⟩, fun _ hnone => ?_⟩
    · rw [show t.ctr = u.lexiconChanged.ctr from ht .ctr (by decide), hresp.get c hc]
    · rw [hspell, hresp.users, show u.spell = s.spell from hs .spell (by decide)]
    · rw [hspell, hresp.marks, show u.spell = s.spell from hs .spell (by decide)]
    · rw [show t.line = u.lexiconChanged.line from ht .line (by decide), hresp.entries,
        show u.line = s.line from hs .line (by decide)]
    · rw [show t.comp = u.lexiconChanged.comp from ht .comp (by decide), hresp.recs,
        show u.comp = s.comp from hs .comp (by decide)]
    · rw [hspell]
      exact State.lexiconChanged_idle hnone

/-- A command that changes the active table of a kind outside WHEEL_WAIT. -/
theorem exec_follows {c : Instr} {pre : State} {k : TableKind} {code : Byte} {o : CmdOutcome} {data : List Byte}
    (hq : s.quiet) (hw : u.seq.state ≠ .wheelWait) (hk : u.active k ≠ pre.active k)
    (hother : ∀ k', k' ≠ k → u.active k' = pre.active k') (hs : s.keeps u [.slots, .sealing, .ret, .ctr])
    (hexec : exec c s = .next (((pre.readersAct u).settle pre).answer code o data)) :
    ∃ t, exec c s = .next t ∧ s.followsKind u t k ∧ t.ret = { u.ret with
      reports := u.ret.reports ++ [.answer code o data], reserved := u.ret.reserved - 1 } ∧ s.imageFollows t := by
  have hsu : s.addsNoWait u := State.addsNoWait.of_comp (hs .comp (by decide))
  obtain ⟨hkey, htext⟩ := (hsu.trans (State.readersAct_addsNoWait pre u)).quiet hq
  set z := (pre.readersAct u).answer code o data with hz
  have hends : (pre.readersAct u).keeps z.formImage [.ret, .image] :=
    State.keeps_trans (State.keeps_mono (State.keeps_answer _ code o data) (by decide))
      (State.keeps_mono z.keeps_formImage (by decide))
  obtain ⟨hcurrent, hslot⟩ := pre.readersAct_image u
  obtain ⟨hcurrent', hslot'⟩ := hs .image (by decide)
  have hret : (pre.readersAct u).ret = u.ret := by
    rw [State.readersAct_of_not_waiting hw]
    exact (State.readersFollow_respells pre u).keeps .ret (by decide)
  refine ⟨z.formImage, hexec.trans (congrArg _ (State.settle_answer hkey htext _ _ _)),
    State.readersAct_follows hw hk hother hs hends, ?_,
    State.imageFollows_formImage (hcurrent.trans hcurrent') (hslot.trans hslot')⟩
  rw [← hret]
  exact State.formImage_same z .ret nofun


/-! ### The commands that change the directory -/

/-- The state of a seal that succeeds, before its readers act (R162, R163). -/
def State.sealed (s : State) (e : Seal) : State :=
  let d := slotAt s.tab.slots e.slot
  let p := { s with tab := { s.tab with slots := sealSlots s.tab.slots e.slot e.check e.guarded, sealing := none } }
  if d.key = s.selection d.kind then p.event (.tableActive d.kind d.key e.slot) else p

theorem State.sealed_tab (s : State) (e : Seal) : (s.sealed e).tab =
    { s.tab with slots := sealSlots s.tab.slots e.slot e.check e.guarded, sealing := none } := by
  unfold State.sealed
  dsimp only
  split <;> simp

/-- A table that its readers select is told by TABLE_ACTIVE (R163). -/
theorem State.sealed_told {e : Seal} (hsel : (slotAt s.tab.slots e.slot).key = s.selection (slotAt s.tab.slots e.slot).kind) :
    let w := s.event (.tableActive (slotAt s.tab.slots e.slot).kind (slotAt s.tab.slots e.slot).key e.slot)
    (s.sealed e).ret = w.ret ∧ (s.sealed e).ctr = w.ctr ∧ w.ret.reserved = s.ret.reserved := by
  intro w
  simp only [State.sealed, if_pos hsel, w]
  unfold State.event
  split <;> exact ⟨rfl, rfl, rfl⟩

theorem State.sealed_keeps (s : State) (e : Seal) : s.keeps (s.sealed e) [.slots, .sealing, .ret, .ctr] := by
  unfold State.sealed
  dsimp only
  split
  · exact fun p hp => by cases p <;> simp_all [State.same]
  · exact fun p hp => by cases p <;> simp_all [State.same]

theorem exec_seals {e : Seal} (hq : s.quiet) (hr : runsInside s.tab.slots = true) (hfollows : s.sealFollows)
    (he : s.tab.sealing = some e) (heq : tableCheck (slotBytes s.tab.mem (slotAt s.tab.slots e.slot)) = e.check)
    (hv : validateTable s.tab.mem (slotAt s.tab.slots e.slot) = none) :
    let p := { s with tab := { s.tab with sealing := none } }
    exec .sealComplete s =
      .next (((p.readersAct (s.sealed e)).settle p).answer 0x05 .done (twoBytes e.check.toNat)) := by
  intro p
  have hcheck : e.tableCheck s.tab.mem (slotAt s.tab.slots e.slot) = e.check := (Seal.tableCheck_eq hfollows he).trans heq
  rw [exec_sealComplete hq.1 hr, State.sealDone_of_valid he hcheck hv, hcheck]
  rfl

theorem exec_drops {slot : Byte} (h : s.commandReady) (hi : slot.toNat < 12) :
    exec (.tableDrop [slot]) s = .next (((s.reserve.readersAct
      (s.reserve.withSlots (setAt s.tab.slots slot.toNat Slot.emptySlot))).settle s.reserve).answer 0x06 .done
        [byteOf (slotAt s.tab.slots slot.toNat).state.num]) := by
  refine (exec_command (i := .tableDrop _) h (by decide) rfl nofun).trans (congrArg _ ?_)
  exact if_neg (show ¬slotCount ≤ slot.toNat from hi.not_ge)

theorem exec_opens {slot kind key hi lo : Byte} {k : TableKind} {first : Nat} (h : s.commandReady)
    (hi12 : slot.toNat < 12) (hno : ¬((slotAt s.tab.slots slot.toNat).state = .sealed ∧
      (slotAt s.tab.slots slot.toNat).guarded = true))
    (hk : kind.toNat = k.num) (hkey : key.toNat ≤ k.maxKey) (hpos : 0 < ofTwoBytes hi lo) (hmax : ofTwoBytes hi lo ≤ 4096)
    (hfit : lowestFit (occupied (setAt s.tab.slots slot.toNat Slot.emptySlot)) (ofTwoBytes hi lo) = some first) :
    exec (.tableOpen [slot, kind, key, hi, lo]) s = .next (((s.reserve.readersAct (s.reserve.withSlots
      (setAt s.tab.slots slot.toNat (Slot.opened k key.toNat first (ofTwoBytes hi lo))))).settle s.reserve).answer
        0x03 .done (twoBytes first)) := by
  refine (exec_command (i := .tableOpen _) h (by decide) rfl nofun).trans (congrArg _ ?_)
  exact (State.cmdTableOpen_legal (s := s.reserve) hi12 hk hkey hpos hmax).trans
    (State.openSlot_fits (s := s.reserve) hno hfit)

theorem State.withSlots_keeps (s : State) (l : List Slot) :
    s.keeps (s.reserve.withSlots l) [.slots, .sealing, .ret, .ctr] := fun p hp => by
  cases p <;> simp_all [State.same, State.withSlots, State.reserve]

/-- RESTART TABLES in WHEEL_WAIT, its answer first. -/
theorem exec_restartTables_rejudges (h : s.commandReady) (hq : s.quiet) (hw : s.seq.state = .wheelWait) :
    let u : State := { s with
      tab := { s.tab with slots := List.replicate 12 Slot.emptySlot }, ret := s.ret.answered 0x11 .done [] }
    ∃ t, exec .restartTables s = .next t ∧ s.rejudges u t ∧ t.ret = u.judged.ret ∧ s.imageFollows t := by
  intro u
  set pre := s.reserve.restartAnswer with hpre
  have hu : pre.withSlots noSlots = u := by
    simp [hpre, u, State.withSlots, State.restartAnswer, State.reserve, State.answer, ReturnLine.answered, noSlots, slotCount]
  have hs : s.keeps u [.slots, .sealing, .ret, .ctr] := fun p hp => by cases p <;> simp_all [State.same, u]
  have hsu : s.addsNoWait u := State.addsNoWait.of_comp rfl
  obtain ⟨hkey, htext⟩ := (hsu.trans (State.readersAct_addsNoWait pre u)).quiet hq
  have hrestart : s.reserve.restart .tables = (pre.readersAct u).formImage := by
    rw [← hu] at hkey htext ⊢
    exact State.settle_of_quiet hkey htext _
  obtain ⟨hcurrent, hslot⟩ := pre.readersAct_image u
  refine ⟨_, (exec_restart (i := .restartTables) h rfl nofun rfl).trans (congrArg _ hrestart),
    State.readersAct_rejudges hw rfl hs (State.keeps_mono (State.keeps_formImage _) (by decide)), ?_,
    State.imageFollows_formImage hcurrent hslot⟩
  rw [← State.readersAct_ret (pre := pre) (u := u) hw]
  exact State.formImage_same _ .ret nofun

/-- The table just sealed is active where its readers select it (R163). -/
theorem State.sealed_active {e : Seal} (hsel : (slotAt s.tab.slots e.slot).key = s.selection (slotAt s.tab.slots e.slot).kind)
    (ho : (slotAt s.tab.slots e.slot).state = .opened) :
    (s.sealed e).active (slotAt s.tab.slots e.slot).kind = some e.slot ∧
      s.active (slotAt s.tab.slots e.slot).kind ≠ some e.slot ∧
      ∀ k, k ≠ (slotAt s.tab.slots e.slot).kind → (s.sealed e).active k = s.active k := by
  set d := slotAt s.tab.slots e.slot with hd
  have hactive (k : TableKind) : (s.sealed e).active k =
      findSealed (sealSlots s.tab.slots e.slot e.check e.guarded) k (s.selection k) := by
    rw [State.active, State.sealed_tab]
    have hs := s.sealed_keeps e
    cases k with
    | wheelMap => rw [State.selection, show (s.sealed e).seq = s.seq from hs .seq (by decide)]; rfl
    | keyMap => rw [State.selection, show (s.sealed e).set = s.set from hs .set (by decide)]; rfl
    | lexicon => rw [State.selection, show (s.sealed e).set = s.set from hs .set (by decide)]; rfl
  refine ⟨?_, fun hpre => ?_, fun k hk => ?_⟩
  · rw [hactive, ← hsel]
    exact findSealed_sealed (slotAt_lt (by rw [← hd, ho]; decide)) _ _
  · have hst := (findSealed_holds hpre).1
    rw [← hd, ho] at hst
    cases hst
  · rw [hactive]
    exact findSealed_sealSlots ho (fun h => hk h.1.symm) _ _

/-- The only table of a selection goes, and with it the active table (R165). -/
theorem State.withSlots_active {i : Nat} {v : Slot} (hst : (slotAt s.tab.slots i).state = .sealed)
    (hsel : (slotAt s.tab.slots i).key = s.selection (slotAt s.tab.slots i).kind) (hone : s.sealedOnce)
    (hv : v.state ≠ .sealed) :
    let u := s.reserve.withSlots (setAt s.tab.slots i v)
    u.active (slotAt s.tab.slots i).kind = none ∧ s.active (slotAt s.tab.slots i).kind ≠ none ∧
      ∀ k, k ≠ (slotAt s.tab.slots i).kind → u.active k = s.active k := by
  refine ⟨?_, ?_, fun k hk => ?_⟩
  · exact findSealed_gone ⟨hst, rfl, hsel⟩ hone hv
  · exact findSealed_isSome ⟨hst, rfl, hsel⟩
  · exact findSealed_setAt (fun h => hv h.1) fun h => hk h.2.1.symm

/-- Settles O31: each command changes the slots, its readers act on what has become active or gone, and its answer is
last. -/
theorem readersFollowTheDirectory : Obligations.ReadersFollowTheDirectory := by
  intro s hq hone reply rejudges follows
  have rejudged {c : Instr} {u t : State} {answered : ReturnLine → ReturnLine} (hx : exec c s = .next t)
      (hr : s.rejudges u t) (hret : t.ret = answered u.judged.ret) (hi : s.imageFollows t) : rejudges c u answered :=
    ⟨t, hx, hr.tab, hr.seq, hr.drv, hret, hr.get, hr.window, hr.intake, hr.entries, hr.line, hr.recs, hr.comp, hr.users,
      hr.keeps, hi⟩
  have followed {u t : State} {k : TableKind} (hf : s.followsKind u t k) (hi : s.imageFollows t) : follows k t :=
    ⟨hi, hf.wheelMap, hf.keyMap, hf.lexicon⟩
  refine ⟨?_, ?_, ?_⟩
  · intro e hr hfollows he d check heq hv ho after p
    have hexec := exec_seals hq hr hfollows he heq hv
    have hu : (s.sealed e) = (if d.key = s.selection d.kind then p.event (.tableActive d.kind d.key e.slot) else p) := by
      unfold State.sealed
      rw [← heq]
      rfl
    have hs := s.sealed_keeps e
    have hseq : (s.sealed e).seq.state = s.seq.state := congrArg Sequencer.state (hs .seq (by decide))
    refine ⟨fun hw => ?_, fun hsel hw => ?_⟩
    · obtain ⟨t, hx, hr', hret, himg⟩ := exec_rejudges hq (hseq.trans hw) rfl hs hexec
      rw [← hu]
      rw [← heq] at hret
      exact rejudged hx hr' hret himg
    · obtain ⟨hnow, hbefore, hother⟩ := State.sealed_active hsel ho
      have hk : (s.sealed e).active d.kind ≠ s.active d.kind := fun hsame => hbefore (hsame.symm.trans hnow)
      obtain ⟨t, hx, hf, hret, himg⟩ := exec_follows (pre := { s with tab := { s.tab with sealing := none } }) hq
        (hseq ▸ hw) hk hother hs hexec
      obtain ⟨htold, hctr, hreserved⟩ := State.sealed_told hsel
      refine ⟨t, hx, (hf.active _).trans hnow, ?_, ?_, fun c hc => ?_, followed hf himg⟩
      · rw [hf.tab, State.sealed_tab]
      · rw [hret, htold, hreserved, ← heq]
      · rw [hf.get c hc, hctr]
  · intro h hw held
    refine ⟨?_, ?_⟩
    · obtain ⟨t, hx, hr', hret, himg⟩ := exec_restartTables_rejudges h hq hw
      exact rejudged (answered := fun r => r) hx hr' hret himg
    · intro slot i d made hi
      refine ⟨?_, fun hno kind key hi' lo k first hk hkey hpos hmax hfit => ?_⟩
      · obtain ⟨t, hx, hr', hret, himg⟩ := exec_rejudges (pre := s.reserve) (u := made Slot.emptySlot) hq hw rfl
          (s.withSlots_keeps _) (exec_drops h hi)
        exact rejudged hx hr' hret himg
      · obtain ⟨t, hx, hr', hret, himg⟩ := exec_rejudges (pre := s.reserve)
          (u := made (Slot.opened k key.toNat first (ofTwoBytes hi' lo))) hq hw rfl (s.withSlots_keeps _)
          (exec_opens h hi hno hk hkey hpos hmax hfit)
        exact rejudged hx hr' hret himg
  · intro h hw slot i d hi hst hsel leaves
    have hleaves {c : Instr} {v : Slot} {code : Byte} {o : CmdOutcome} {data : List Byte} (hv : v.state ≠ .sealed)
        (hexec : exec c s = .next (((s.reserve.readersAct (s.reserve.withSlots (setAt s.tab.slots i v))).settle
          s.reserve).answer code o data)) : leaves c v (s.ret.answered code o data) := by
      obtain ⟨hnow, hbefore, hother⟩ := State.withSlots_active hst hsel hone hv
      have hk : (s.reserve.withSlots (setAt s.tab.slots i v)).active d.kind ≠ s.active d.kind :=
        fun hsame => hbefore (hsame.symm.trans hnow)
      obtain ⟨t, hx, hf, hret, himg⟩ := exec_follows (pre := s.reserve)
        (u := s.reserve.withSlots (setAt s.tab.slots i v)) hq hw hk hother (s.withSlots_keeps _) hexec
      refine ⟨t, hx, ?_, (hf.active _).trans hnow, ?_, hf.get, followed hf himg, fun hlex => ?_⟩
      · rw [hf.tab]
        rfl
      · rw [hret]
        simp [State.withSlots, State.reserve, ReturnLine.answered]
      · have hidle := hf.idle hlex (hlex ▸ hnow)
        simpa [Spelling.idle] using hidle
    refine ⟨?_, fun hg kind key hi' lo k first hk hkey hpos hmax hfit => ?_⟩
    · have hexec := exec_drops h hi
      rw [show (slotAt s.tab.slots slot.toNat).state = .sealed from hst] at hexec
      exact hleaves (by decide) hexec
    · have hno : ¬(d.state = .sealed ∧ d.guarded = true) := fun hboth => by rw [hg] at hboth; exact absurd hboth.2 (by decide)
      exact hleaves (by simp) (exec_opens h hi hno hk hkey hpos hmax hfit)

end Sys2Proof.Machine
end

section
/-! PROOF of O38 and O39. How a key action is taken, refused or waits, and the keys of the settings, the tabs and the
toggles. -/

namespace Sys2Proof.Machine

variable {s t u : State}

/-! ### The rows of the key actions (R16, R23, R28) -/

/-- A step that changes nothing changes nothing that an item waits on (R28). -/
theorem State.fired_self (s : State) (c : WaitCause) : s.fired s c = false := by
  cases c with
  | room => simp [State.fired]
  | outgoing => cases h : s.comp.outgoing <;> simp [State.fired, h]
  | verdict =>
    simp only [State.fired, ne_eq, not_true, decide_false, Bool.false_or, List.any_eq_false]
    intro w hw
    rw [Bool.and_eq_true, decide_eq_true_eq, Bool.not_eq_true', List.any_eq_false]
    rintro ⟨hpending, hno⟩
    exact hno w hw (by simp [hpending])
  | wheelMap => simp [State.fired]
  | inFlight => cases h : s.seq.flight <;> simp [State.fired, h]

theorem State.settleKey_self (s : State) : s.settleKey s = s := by
  unfold State.settleKey
  split
  · exact if_neg fun h => by simp [State.fired_self] at h
  · rfl

/-- From a state in which nothing waits a step ends with its image alone. -/
theorem State.settle_from_quiet {pre : State} (h : pre.quiet) (s : State) : s.settle pre = s.formImage := by
  obtain ⟨-, hk, ht⟩ := h
  have hkey (x : State) : pre.settleKey x = x := by
    unfold State.settleKey
    split
    · exact if_neg fun hc => by simp [hk] at hc
    · rfl
  have htext (x y : State) : pre.settleText x y = y := by
    unfold State.settleText
    split
    · exact if_neg fun hc => by simp [ht] at hc
    · rfl
  simp only [State.settle, hkey, htext, State.settleKey_self]

/-- What the Composer takes is as Key Intake offered it, whatever the action has done meanwhile. -/
theorem State.dropSelected_congr (hq : u.keyq = s.keyq) (hi : u.intake = s.intake) :
    u.dropSelected.keyq = s.dropSelected.keyq ∧ u.dropSelected.intake = s.dropSelected.intake := by
  unfold State.dropSelected
  rw [hi]
  split
  · exact ⟨hq, rfl⟩
  · split
    · simp only [State.popKey, hq, and_self]
    · exact ⟨hq, hi⟩

/-- The Composer has taken a key action that leaves `u` (R16, R104, R129). -/
structure State.takes (u t : State) (a : KeyAction) : Prop where
  comp : t.comp = { u.comp with override := decide (a = .func .returnKey) && u.comp.override }
  line : t.line = { u.line with run := none }
  keeps : u.keeps t [.keyq, .intake, .comp, .line, .image]
  follows : u.imageFollows t

theorem State.takeKey_takes {a : KeyAction} (hk : u.comp.keyWait = none) : u.takes (u.takeKey a).formImage a where
  comp := by
    refine (State.formImage_same _ .comp nofun).trans ?_
    simp [State.takeKey, hk]
  line := by
    refine (State.formImage_same _ .line nofun).trans ?_
    simp [State.takeKey]
  keeps := by
    have hkeeps : u.keeps (u.takeKey a) [.keyq, .intake, .comp, .line] := fun p hp => by cases p <;> simp_all [State.same]
    exact State.keeps_trans (State.keeps_mono hkeeps (by decide)) (State.keeps_mono (State.keeps_formImage _) (by decide))
  follows := State.imageFollows_formImage (by simp) (by simp)

/-- The Composer takes the key action: what Key Intake and the run become (R16, R19, R104, R129). -/
theorem State.takes.took {a : KeyAction} (hq : u.keyq = s.keyq) (hi : u.intake = s.intake)
    (ht : u.comp.textWait = none) (ho : a = .func .returnKey → u.comp.override = s.comp.override) :
    s.tookKey (u.takeKey a).formImage a := by
  obtain ⟨hkeyq, hintake⟩ := State.dropSelected_congr hq hi
  set v : State := { u with
    comp := { u.comp with keyWait := none, override := a = .func .returnKey && u.comp.override }
    line := { u.line with run := none } } with hv
  obtain ⟨hkeyq', hintake'⟩ := State.dropSelected_congr (u := v) (s := u) rfl rfl
  refine ⟨?_, ?_, ?_, ?_, ?_, ?_⟩
  · exact (State.formImage_same _ .keyq nofun).trans (hkeyq'.trans hkeyq)
  · exact (State.formImage_same _ .intake nofun).trans (hintake'.trans hintake)
  · simp [State.takeKey]
  · simp [State.takeKey, ht]
  · simp [State.takeKey]
  · by_cases ha : a = .func .returnKey
    · simp [State.takeKey, ho ha]
    · simp [State.takeKey, ha]

/-- The evaluation of the key action whose turn it is. -/
theorem exec_keyRow {i : Instr} {a : KeyAction} {paper : Bool} {f : KeyAction → Bool} (h : s.turnOf a)
    (hi : exec i s = live s (fun s => s.keyRow f paper)) (hf : f a = true) :
    exec i s = .next ((s.evalKey paper a).finishKey a).formImage := by
  obtain ⟨hq, ha⟩ := h
  rw [hi, live_of_running hq.1]
  refine congrArg _ ?_
  unfold State.keyRow
  rw [ha]
  exact (if_pos ⟨hf, hq.2.1⟩).trans (State.settle_from_quiet hq _)

theorem exec_rowOf {i : Instr} {a : KeyAction} {paper : Bool} (h : s.turnOf a) (hi : rowOf paper a = some i) :
    exec i s = .next ((s.evalKey paper a).finishKey a).formImage := by
  have hfunc {f : Func} (ha : a = .func f) (hx : exec i s = live s (fun s => s.funcRow f)) (hp : f ≠ .pause) :
      exec i s = .next ((s.evalKey paper a).finishKey a).formImage := by
    subst ha
    have hsame : s.evalKey paper (.func f) = s.evalKey true (.func f) := by
      cases f
      case pause => exact absurd rfl hp
      all_goals rfl
    rw [hsame]
    exact exec_keyRow h hx (decide_eq_true rfl)
  cases a with
  | char c =>
    obtain rfl := Option.some.inj hi
    exact exec_keyRow (paper := true) h rfl rfl
  | dead c =>
    obtain rfl := Option.some.inj hi
    exact exec_keyRow (paper := true) h rfl rfl
  | func f =>
    cases f
    case shift | code | shiftLock => exact absurd hi nofun
    case pause =>
      obtain rfl := Option.some.inj hi
      exact exec_keyRow h rfl rfl
    case space =>
      obtain rfl := Option.some.inj hi
      exact exec_keyRow (paper := true) h rfl rfl
    all_goals
      obtain rfl := Option.some.inj hi
      exact hfunc rfl rfl nofun

theorem State.signal_addsNoWait (s : State) (g : Pattern) : s.addsNoWait (s.signal g) :=
  State.addsNoWait.of_comp (by simp)

section Evaluated

/-! What an evaluation comes to, by whichever row it is made. -/

variable {i : Instr} {a : KeyAction} {paper : Bool}
  (hx : exec i s = .next ((s.evalKey paper a).finishKey a).formImage)
include hx

/-- A key action that is carried out leaves `u` and is taken. -/
theorem takes_of_exec (hq : s.quiet) (he : s.evalKey paper a = .taken u) (hw : s.addsNoWait u)
    (ho : a = .func .returnKey → u.comp.override = s.comp.override) :
    ∃ t, exec i s = .next t ∧ s.tookKey t a ∧ u.takes t a := by
  have hframe := s.evalKey_frame paper a
  rw [he] at hframe
  obtain ⟨hk, ht⟩ := hw.quiet hq
  obtain ⟨-, -, -, -, -, hkeyq, -, -, hintake⟩ := hframe
  rw [he] at hx
  exact ⟨_, hx, State.takes.took hkeyq hintake ht ho, State.takeKey_takes hk⟩

/-- A key action that is refused is taken with its signal. -/
theorem refuses_of_exec (hq : s.quiet) (he : s.evalKey paper a = .refused s) :
    ∃ t, exec i s = .next t ∧ s.refusedKey t a := by
  obtain ⟨t, hx, htook, ht⟩ := takes_of_exec hx hq (u := s.signal .refused) he (s.signal_addsNoWait _) fun _ => by simp
  refine ⟨t, hx, htook, by simpa using ht.comp, by simpa using ht.line, ht.keeps .beeper (by decide), ?_, ?_⟩
  · have hsignal : s.keeps (s.signal .refused) [.beeper] := fun p hp => by cases p <;> simp_all [State.same]
    exact State.keeps_trans (State.keeps_mono hsignal (by decide)) (State.keeps_mono ht.keeps (by decide))
  · have hfollows := ht.follows
    simpa [State.imageFollows] using hfollows

/-- A key action that waits stays at the front. -/
theorem waits_of_exec {c : WaitCause} (he : s.evalKey paper a = .waits s c) : exec i s = .next (s.waitsKey c) := by
  rw [hx, he]
  rfl

end Evaluated

theorem exec_takes {i : Instr} {a : KeyAction} {paper : Bool} (h : s.turnOf a) (hi : rowOf paper a = some i)
    (he : s.evalKey paper a = .taken u) (hw : s.addsNoWait u)
    (ho : a = .func .returnKey → u.comp.override = s.comp.override) :
    ∃ t, exec i s = .next t ∧ s.tookKey t a ∧ u.takes t a :=
  takes_of_exec (exec_rowOf h hi) h.1 he hw ho

theorem exec_refuses {i : Instr} {a : KeyAction} {paper : Bool} (h : s.turnOf a) (hi : rowOf paper a = some i)
    (he : s.evalKey paper a = .refused s) : ∃ t, exec i s = .next t ∧ s.refusedKey t a :=
  refuses_of_exec (exec_rowOf h hi) h.1 he

theorem exec_waits {i : Instr} {a : KeyAction} {paper : Bool} {c : WaitCause} (h : s.turnOf a)
    (hi : rowOf paper a = some i) (he : s.evalKey paper a = .waits s c) : exec i s = .next (s.waitsKey c) :=
  waits_of_exec (exec_rowOf h hi) he

/-- In LOCAL source every function acts; in REMOTE source those that R23 leaves to the keys. -/
theorem State.evalKey_func {f : Func} {paper : Bool}
    (h : s.comp.source = .localKeys ∨ KeyAction.remoteAllowed (.func f) = true) :
    s.evalKey paper (.func f) = s.evalFunc paper f :=
  if_neg fun ⟨hr, hn⟩ => by
    rcases h with h | h
    · rw [h] at hr
      cases hr
    · rw [h] at hn
      exact absurd hn (by decide)

theorem State.takes.keepsAll {a : KeyAction} {l m : List Part} (h : u.takes t a) (hs : s.keeps u l)
    (hl : l ⊆ m) (hm : [Part.keyq, .intake, .comp, .line, .image] ⊆ m) : s.keeps t m :=
  State.keeps_trans (State.keeps_mono hs hl) (State.keeps_mono h.keeps hm)

/-- The image follows from the state before, whose image stood. -/
theorem State.takes.followsFrom {a : KeyAction} {l : List Part} (h : u.takes t a) (hs : s.keeps u l)
    (hi : .image ∉ l) : s.imageFollows t := by
  obtain ⟨hcurrent, hslot⟩ := hs .image hi
  have hf := h.follows
  rwa [State.imageFollows, hcurrent, hslot] at hf

/-- A function other than RETURN clears the override flag (R129). -/
theorem State.takes.func_comp {f : Func} (h : u.takes t (.func f)) (hf : f ≠ .returnKey) :
    t.comp = { u.comp with override := false } := by
  rw [h.comp, decide_eq_false fun hfunc => hf (KeyAction.func.inj hfunc), Bool.false_and]

/-! ### The keys of the line settings (R26, R27) -/

theorem State.setLine_addsNoWait (s : State) (v : LineValue) : s.addsNoWait (s.setLine v).1 := by
  unfold State.setLine
  split_ifs
  · exact State.addsNoWait.trans ⟨rfl, id⟩ (State.reachBoundary_addsNoWait _)
  · exact ⟨rfl, id⟩
  · exact ⟨rfl, id⟩

/-- Settles O38: every one of the keys is one value of a line setting, in force at once at a line boundary. -/
theorem lineSettingKeysWaitForTheBoundary : Obligations.LineSettingKeysWaitForTheBoundary := by
  intro s p x enters refuses
  have henters {i : Instr} {f : Func} {v : LineValue} {inForce : Prop} (hi : rowOf true (.func f) = some i)
      (he : s.evalFunc true f = .taken (s.setLine v).1) (hf : f ≠ .returnKey)
      (hremote : f = .sourceToggle → KeyAction.remoteAllowed (.func f) = true)
      (hv : v.inForce s.comp = true ↔ inForce) : enters i f inForce (p.enter v) (p.remove v) := by
    intro h hsource
    have hkey := State.evalKey_func (paper := true) (hsource.imp_right hremote)
    obtain ⟨t, hx, htook, ht⟩ := exec_takes h hi (hkey.trans he) (s.setLine_addsNoWait v) fun ha => absurd (KeyAction.func.inj ha) hf
    have hcomp := ht.func_comp hf
    refine ⟨t, hx, htook, ?_⟩
    cases hb : s.atBoundary with
    | true =>
      set w : State := { s with comp := { s.comp with later := p.enter v } } with hw
      have hset : (s.setLine v).1 = w.reachBoundary := by rw [State.setLine, if_pos hb]
      rw [hset] at ht hcomp
      obtain ⟨hentries, hget⟩ := w.reachBoundary_text
      have hsw : s.keeps w [.comp] := fun q hq => by cases q <;> simp_all [State.same]
      have hkeeps : s.keeps w.reachBoundary [.comp, .line, .ctr, .spell, .window] :=
        State.keeps_trans (State.keeps_mono hsw (by decide)) (State.keeps_mono w.keeps_reachBoundary (by decide))
      refine ⟨?_, fun _ => ⟨?_, ?_⟩, nofun, fun k hk => ?_, ht.keepsAll hkeeps (by decide) (by decide),
        ht.followsFrom hkeeps (by decide)⟩
      · rw [ht.line]
        exact hentries
      · rw [hcomp, w.reachBoundary_comp]
      · rw [show t.disp.window = w.reachBoundary.disp.window from ht.keeps .window (by decide), w.reachBoundary_window]
      · rw [show t.ctr = w.reachBoundary.ctr from ht.keeps .ctr (by decide)]
        exact hget k hk
    | false =>
      have hchange {l : PendingLine} (hu : (s.setLine v).1 = { s with comp := { s.comp with later := l } }) :
          plain t.line.entries = plain s.line.entries ∧ t.disp.window = s.disp.window ∧
            t.comp = { s.comp with later := l, override := false } ∧
            (∀ k, k ≠ Counter.checksDropped → t.ctr.get k = s.ctr.get k) ∧
            s.keeps t [.keyq, .intake, .comp, .line, .ctr, .spell, .window, .image] ∧ s.imageFollows t := by
        rw [hu] at ht hcomp
        have hkeeps : s.keeps { s with comp := { s.comp with later := l } } [.comp] :=
          fun q hq => by cases q <;> simp_all [State.same]
        refine ⟨?_, ht.keeps .window (by decide), hcomp, fun k _ => ?_, ht.keepsAll hkeeps (by decide) (by decide),
          ht.followsFrom hkeeps (by decide)⟩
        · rw [ht.line]
        · rw [show t.ctr = s.ctr from ht.keeps .ctr (by decide)]
      by_cases hforce : v.inForce s.comp = true
      · obtain ⟨hentries, hwindow, hnew, hrest⟩ := hchange (l := p.remove v) (by
          rw [State.setLine, if_neg (by rw [hb]; decide), if_pos hforce])
        exact ⟨hentries, nofun, fun _ => ⟨hwindow, fun _ => hnew, fun hno => absurd (hv.mp hforce) hno⟩, hrest⟩
      · obtain ⟨hentries, hwindow, hnew, hrest⟩ := hchange (l := p.enter v) (by
          rw [State.setLine, if_neg (by rw [hb]; decide), if_neg hforce])
        exact ⟨hentries, nofun, fun _ => ⟨hwindow, fun hyes => absurd (hv.mpr hyes) hforce, fun _ => hnew⟩, hrest⟩
  have hrefuses {i : Instr} {f : Func} (hi : rowOf true (.func f) = some i) (he : s.evalFunc true f = .refused s) :
      refuses i f := fun h hsource => exec_refuses h hi ((State.evalKey_func (.inl hsource)).trans he)
  refine ⟨fun hx hr => ?_, fun hbad => hrefuses rfl (if_neg ?_), fun hx hl => ?_, fun hbad => hrefuses rfl (if_neg ?_),
    fun v w hv hw => ?_, fun v w hv hne => ?_, fun v w hv hne => ?_⟩
  · exact henters (v := .left x) rfl (if_pos ⟨hx, decide_eq_true hr⟩) nofun nofun decide_eq_true_iff
  · rintro ⟨hx, hr⟩
    rcases hbad with hbad | hbad
    · exact absurd hx hbad.not_ge
    · exact absurd (of_decide_eq_true hr) hbad.not_ge
  · exact henters (v := .right x) rfl (if_pos ⟨hx, decide_eq_true hl⟩) nofun nofun decide_eq_true_iff
  · rintro ⟨hx, hl⟩
    rcases hbad with hbad | hbad
    · exact absurd hx hbad.not_ge
    · exact absurd (of_decide_eq_true hl) hbad.not_ge
  · have hnext : v.next = w := by
      cases v <;> cases w <;> simp_all [Pitch.next]
    subst hv hnext
    exact henters (v := .pitch _) rfl rfl nofun nofun decide_eq_true_iff
  · have hnext : v.toggle = w := by
      cases v <;> cases w <;> simp_all [Mode.toggle]
    subst hv hnext
    exact henters (v := .mode _) rfl rfl nofun nofun decide_eq_true_iff
  · have hnext : v.toggle = w := by
      cases v <;> cases w <;> simp_all [Source.toggle]
    subst hv hnext
    exact henters (v := .source _) rfl rfl nofun (fun _ => rfl) decide_eq_true_iff

/-! ### The tab stops, the toggles and the PAUSE key (R37, R38, R44, R83, R84) -/

theorem State.followed_local (h : s.comp.source = .localKeys) :
    s.followed = if s.comp.mode = .line then s.cursorPosition else s.comp.logical := by
  rw [State.followed, Composer.modeInEffect_local h]

/-- A key that changes the tab stops does so where the composition fits them (R44). -/
theorem exec_changesTabs (hsource : s.comp.source = .localKeys) {i : Instr} {f : Func} {tabs : List TabStop}
    (h : s.turnOf (.func f)) (hi : rowOf true (.func f) = some i) (hf : f ≠ .returnKey)
    (hsome : ∀ t, s.changeTabs tabs = some t → s.evalFunc true f = .taken t)
    (hnone : s.changeTabs tabs = none → s.evalFunc true f = .refused s) :
    let u : State := { s with comp := { s.comp with tabs := tabs } }
    (u.fits s.comp.recs = true → ∃ t, exec i s = .next t ∧ s.tookKey t (.func f) ∧
      t.comp = { s.comp with
        tabs := tabs, logical := if s.comp.mode = .line then u.cursorPosition else s.comp.logical, override := false } ∧
      s.keeps t [.keyq, .intake, .comp, .line, .image] ∧ s.imageFollows t) ∧
    (u.fits s.comp.recs = false → ∃ t, exec i s = .next t ∧ s.refusedKey t (.func f)) := by
  intro u
  have hkey := State.evalKey_func (s := s) (f := f) (paper := true) (.inl hsource)
  refine ⟨fun hfits => ?_, fun hno => ?_⟩
  · have hset := State.changeTabs_of_fits (s := s) (u := u) rfl hfits
    set v : State := { s with comp := { s.comp with tabs := tabs, logical := u.followed } } with hv
    obtain ⟨t, hx, htook, ht⟩ := exec_takes h hi (u := v) (hkey.trans (hsome v hset)) ⟨rfl, id⟩
      fun ha => absurd (KeyAction.func.inj ha) hf
    have hkeeps : s.keeps v [.comp] := fun q hq => by cases q <;> simp_all [State.same]
    refine ⟨t, hx, htook, ?_, ht.keepsAll hkeeps (by decide) (by decide), ht.followsFrom hkeeps (by decide)⟩
    rw [ht.func_comp hf, hv, State.followed_local (s := u) hsource]
  · exact exec_refuses h hi (hkey.trans (hnone (State.changeTabs_of_not_fits hno)))

/-- A key that changes no text. -/
theorem exec_takes_keeping {i : Instr} {f : Func} {paper : Bool} {l : List Part} (h : s.turnOf (.func f))
    (hi : rowOf paper (.func f) = some i)
    (hl : s.comp.source = .localKeys ∨ KeyAction.remoteAllowed (.func f) = true) (hf : f ≠ .returnKey)
    (he : s.evalFunc paper f = .taken u) (hw : s.addsNoWait u) (hs : s.keeps u l) (hm : .image ∉ l) :
    ∃ t, exec i s = .next t ∧ s.tookKey t (.func f) ∧ t.comp = { u.comp with override := false } ∧
      u.takes t (.func f) ∧ s.keeps t ([.keyq, .intake, .comp, .line, .image] ++ l) ∧ s.imageFollows t := by
  obtain ⟨t, hx, htook, ht⟩ := exec_takes h hi ((State.evalKey_func hl).trans he) hw fun ha => absurd (KeyAction.func.inj ha) hf
  exact ⟨t, hx, htook, ht.func_comp hf, ht, ht.keepsAll hs (List.subset_append_right _ _)
    (List.subset_append_left _ _), ht.followsFrom hs hm⟩

theorem State.keeps_seq (s : State) (q : Sequencer) : s.keeps { s with seq := q } [.seq] := fun p hp => by
  cases p <;> simp_all [State.same]

theorem State.evalPause_asks (h : s.seq.state ≠ .paused) (paper : Bool) : s.evalPause paper = .taken (s.askPause .key) :=
  if_neg h

theorem State.evalPause_resumes {paper : Bool} (h : s.seq.state = .paused) (hp : s.seq.reason = .paper → paper = true) :
    s.evalPause paper = .taken s.enterReady := by
  rw [State.evalPause, if_pos h, State.askResume_of_paper hp]

/-- Settles O39: the tab keys under the guard of the composition, the toggles, and the PAUSE key by the mechanism's
state. -/
theorem tabKeysTogglesAndThePauseKey : Obligations.TabKeysTogglesAndThePauseKey := by
  refine ⟨fun s hsource => ?_, fun s hq => ?_⟩
  · intro x moved refuses changes
    have hrefuses {i : Instr} {f : Func} (h : s.turnOf (.func f)) (hi : rowOf true (.func f) = some i)
        (he : s.evalFunc true f = .refused s) : refuses i f :=
      exec_refuses h hi ((State.evalKey_func (.inl hsource)).trans he)
    refine ⟨?_, fun h => ⟨fun hbad => hrefuses h rfl (if_pos ?_), fun hx hstop => ?_⟩⟩
    · intro i f dec hcase h
      have hrow : rowOf true (.func f) = some i ∧ f ≠ .returnKey ∧ s.evalFunc true f = s.evalTabSet dec := by
        obtain ⟨rfl, rfl, rfl⟩ | ⟨rfl, rfl, rfl⟩ := hcase
        · exact ⟨rfl, nofun, rfl⟩
        · exact ⟨rfl, nofun, rfl⟩
      obtain ⟨hi, hf, he⟩ := hrow
      refine ⟨fun hx => hrefuses h hi (he.trans (if_pos hx)), fun hx hno hfull => ?_, fun hx hroom => ?_⟩
      · refine hrefuses h hi (he.trans ((if_neg hx.not_gt).trans (if_pos ?_)))
        rw [hasStop_eq_false hno]
        exact decide_eq_true hfull
      · have hplace : ¬(!hasStop s.comp.tabs x && decide (tabPlaces ≤ s.comp.tabs.length)) = true := by
          rw [← hasStop_iff] at hroom
          rw [Bool.and_eq_true, Bool.not_eq_true', decide_eq_true_eq]
          rintro ⟨hnone, hfull⟩
          rcases hroom with hyes | hroom
          · exact absurd (hnone.symm.trans hyes) (by decide)
          · exact absurd hfull hroom.not_ge
        refine exec_changesTabs hsource h hi hf (fun t ht => he.trans ?_) (fun hn => he.trans ?_)
        · exact (if_neg hx.not_gt).trans ((if_neg hplace).trans (by rw [ht]))
        · exact (if_neg hx.not_gt).trans ((if_neg hplace).trans (by rw [hn]))
    · rcases hbad with hbad | hno
      · exact .inl hbad
      · exact .inr (by rw [hasStop_eq_false hno]; rfl)
    · have hplace : ¬(lastPosition < x ∨ (!hasStop s.comp.tabs x) = true) := by
        rw [(hasStop_iff _ _).mpr hstop]
        rintro (hbad | hbad)
        · exact absurd hx hbad.not_ge
        · exact absurd hbad (by decide)
      refine exec_changesTabs (tabs := removeStop s.comp.tabs x) hsource h rfl nofun (fun t ht => ?_) (fun hn => ?_)
      · exact (if_neg hplace).trans (by rw [ht])
      · exact (if_neg hplace).trans (by rw [hn])
  · intro turn
    refine ⟨fun ht hsource => ⟨fun hm => ?_, fun w hm hw => ?_⟩, fun ht hsource => ?_, fun ht hsource => ?_,
      fun ht hsource => ?_, fun paper ht => ?_⟩
    · refine exec_refuses (paper := true) ⟨hq, ht⟩ rfl ((State.evalKey_func (.inl hsource)).trans ?_)
      show s.evalJustifyCycle = _
      rw [State.evalJustifyCycle, Composer.modeInEffect_local hsource, hm]
    · have hnext : s.comp.choice.next = w := by
        revert hw
        cases s.comp.choice <;> cases w <;> simp [Justify.next]
      have he : s.evalFunc true .justifyCycle = .taken { s with comp := { s.comp with choice := w } } := by
        show s.evalJustifyCycle = _
        rw [State.evalJustifyCycle, Composer.modeInEffect_local hsource, hm, hnext]
      have hkeeps : s.keeps { s with comp := { s.comp with choice := w } } [.comp] :=
        fun q hq => by cases q <;> simp_all [State.same]
      obtain ⟨t, hx, htook, hcomp, -, hk, himg⟩ := exec_takes_keeping ⟨hq, ht⟩ rfl (.inl hsource) nofun he ⟨rfl, id⟩ hkeeps (by decide)
      exact ⟨t, hx, htook, hcomp, State.keeps_mono hk (by decide), himg⟩
    · have hkeeps : s.keeps { s with comp := { s.comp with bold := !s.comp.bold } } [.comp] :=
        fun q hq => by cases q <;> simp_all [State.same]
      obtain ⟨t, hx, htook, hcomp, -, hk, himg⟩ := exec_takes_keeping (paper := true) ⟨hq, ht⟩ rfl (.inl hsource) nofun rfl
        ⟨rfl, id⟩ hkeeps (by decide)
      exact ⟨t, hx, htook, hcomp, State.keeps_mono hk (by decide), himg⟩
    · have hkeeps : s.keeps { s with comp := { s.comp with underline := !s.comp.underline } } [.comp] :=
        fun q hq => by cases q <;> simp_all [State.same]
      obtain ⟨t, hx, htook, hcomp, -, hk, himg⟩ := exec_takes_keeping (paper := true) ⟨hq, ht⟩ rfl (.inl hsource) nofun rfl
        ⟨rfl, id⟩ hkeeps (by decide)
      exact ⟨t, hx, htook, hcomp, State.keeps_mono hk (by decide), himg⟩
    · have hp := State.setSpell_switches (s := s) (v := !s.set.spell) (by simp)
      obtain ⟨t, hx, htook, -, htakes, hk, himg⟩ := exec_takes_keeping (paper := true) (u := s.setSpell (!s.set.spell)) ⟨hq, ht⟩ rfl
        (.inl hsource) nofun rfl (State.addsNoWait.of_comp (hp.keeps .comp (by decide))) hp.keeps (by decide)
      have hset : t.set = (s.setSpell (!s.set.spell)).set := htakes.keeps .set (by decide)
      have hspell : t.spell = (s.setSpell (!s.set.spell)).spell := htakes.keeps .spell (by decide)
      have hctr : t.ctr = (s.setSpell (!s.set.spell)).ctr := htakes.keeps .ctr (by decide)
      refine ⟨t, hx, htook, hset.trans hp.set, by rw [hspell, hp.users], by rw [hspell, hp.nextWord],
        by rw [hspell, hp.marks], fun hon => ?_, fun hoff => ?_, fun k hk => ?_, State.keeps_mono hk (by decide), himg⟩
      · obtain ⟨⟨hengine, hcheckq⟩, hsweep, hsame, hwords⟩ := hp.off (by rw [hon]; rfl)
        rw [hspell, hctr]
        exact ⟨hengine, hcheckq, hsweep, hsame, hwords⟩
      · rw [hspell]
        exact hp.on (by rw [hoff]; rfl)
      · rw [hctr, hp.get k hk]
    · intro pauses enters
      have hpauses {v : State} (he : s.evalPause paper = .taken v) (hs : s.keeps v [.seq, .drv, .ctr, .ret]) : pauses v := by
        obtain ⟨t, hx, htook, -, htakes, hk, himg⟩ := exec_takes_keeping (paper := paper) (u := v) ⟨hq, ht⟩ rfl (.inr rfl) nofun he
          (State.addsNoWait.of_comp (hs .comp (by decide))) hs (by decide)
        exact ⟨t, hx, htook, htakes.keeps .seq (by decide), htakes.keeps .drv (by decide), htakes.keeps .ctr (by decide),
          htakes.keeps .ret (by decide), State.keeps_mono hk (by decide), himg⟩
      refine ⟨fun hc => ?_, fun hi hp hr => ?_, fun hst hreason hpaper => ?_, fun hst hpaper hreq => ⟨fun hqueue => ?_,
        fun hqueue => ?_⟩⟩
      · have hne : s.seq.state ≠ .paused := by
          rcases hc with hc | ⟨hc, -⟩ <;> rw [hc] <;> decide
        have hkeeps := State.keeps_trans (State.keeps_mono (s.keeps_seq { s.seq with pauseReq := none }) (by decide))
          (State.keeps_changedTo _ .paused (s.seq.pauseReq.getD .key).reason)
        exact hpauses ((State.evalPause_asks hne paper).trans (congrArg _ (State.askPause_now hc .key))) hkeeps
      · exact hpauses ((State.evalPause_asks hp paper).trans (congrArg _ (State.askPause_later hi hp hr .key)))
          (State.keeps_requestPause _ _)
      · refine exec_refuses ⟨hq, ht⟩ rfl ((State.evalKey_func (.inr rfl)).trans ?_)
        show s.evalPause paper = _
        rw [State.evalPause, if_pos hst, State.askResume, if_pos ⟨hreason, by rw [hpaper]; rfl⟩]
      · have hidle : enters .idle .none = s.changedTo .idle .none := by
          simp only [enters, State.changedTo, ← hreq]
        rw [hidle]
        exact hpauses ((State.evalPause_resumes hst hpaper).trans (congrArg _
          (State.enterReady_idle hreq hqueue (by rw [hst]; decide)))) (State.keeps_changedTo _ _ _)
      · intro u
        have he : s.evalFunc paper .pause = .taken u := (State.evalPause_resumes hst hpaper).trans (congrArg _
          (State.enterReady_running hreq hqueue (by rw [hst]; decide)))
        have hw : s.addsNoWait u := State.addsNoWait.trans (State.addsNoWait.of_comp (by simp [State.changedTo]))
          (State.runQueue_addsNoWait _)
        obtain ⟨t, hx, htook, htakes⟩ := exec_takes ⟨hq, ht⟩ rfl ((State.evalKey_func (.inr rfl)).trans he) hw nofun
        exact ⟨t, hx, htook, htakes.func_comp nofun, htakes.line, htakes.keeps, htakes.follows⟩

end Sys2Proof.Machine
end

section
/-! PROOF of O35, O37 and O40. Editing in LINE, the keys that move the position in DIRECT, and the keys of the words. -/

namespace Sys2Proof.Machine

variable {s t u : State}

/-! ### The text followed in LINE (R25, R40) -/

theorem State.keeps_window (s : State) (n : Nat) : s.keeps { s with disp := { s.disp with window := n } } [.window] :=
  fun p hp => by cases p <;> simp_all [State.same]

theorem State.keeps_comp (s : State) (c : Composer) : s.keeps { s with comp := c } [.comp] :=
  fun p hp => by cases p <;> simp_all [State.same]

/-- With nothing pending a boundary changes the logical position alone, and in LINE an empty composition has it at the
left margin already (R22, R26). -/
theorem State.textChanged_retexts (hl : s.comp.later = .none) (ht : s.comp.textWait = none)
    (hpos : s.comp.modeInEffect = .line → s.comp.recs = [] → s.comp.logical = s.comp.left) (was : Bool) :
    s.retexts (s.textChanged was) := by
  have hfollow := s.followText_retexts
  have hcomp := hfollow.comp
  unfold State.textChanged State.boundaryAfter
  split
  case isFalse => exact hfollow
  case isTrue hnow =>
    have hreach : s.followText.reachBoundary = { s.followText with disp := { s.followText.disp with window := 0 } } := by
      rw [State.reachBoundary_of_none (s := s.followText) (by rw [hcomp]; exact hl) (by rw [hcomp]; exact ht)]
      have hlogical : (if s.followText.comp.modeInEffect = .line then s.followText.comp.left
          else s.followText.comp.logical) = s.followText.comp.logical := by
        split
        case isFalse => rfl
        case isTrue hline =>
          have hmode : s.comp.modeInEffect = .line := by
            rw [← hline, hcomp]
            rfl
          have hempty : s.comp.recs = [] := by
            rw [Bool.and_eq_true, hfollow.atBoundary, State.atBoundary, hmode] at hnow
            simpa using (Bool.and_eq_true_iff.mp hnow.2).1
          rw [hcomp]
          exact (hpos hmode hempty).symm
      rw [hlogical]
    rw [hreach]
    exact hfollow.trans ⟨rfl, rfl, rfl, rfl, rfl, fun _ _ => rfl, State.keeps_mono (State.keeps_window _ 0) (by decide)⟩

/-- The composition edited in LINE with nothing pending (R40). -/
theorem State.editRecs_line (hm : s.comp.modeInEffect = .line) (hl : s.comp.later = .none) (ht : s.comp.textWait = none)
    (recs : List CompRec) (n : Nat) :
    let u : State := { s with comp := { s.comp with recs := recs, cursor := n } }
    State.retexts { s with comp := { s.comp with recs := recs, cursor := n, logical := u.cursorPosition } }
      (s.editRecs recs n) := by
  intro u
  have hsync : u.syncCursor = { u with comp := { u.comp with logical := u.cursorPosition } } := by
    rw [State.syncCursor_eq, State.followed, if_pos (show u.comp.modeInEffect = .line from hm)]
  rw [State.editRecs, hsync]
  exact State.textChanged_retexts (s := { u with comp := { u.comp with logical := u.cursorPosition } }) hl ht
    (fun _ hempty => State.cursorPosition_of_empty hempty) _

/-- The cursor moved in LINE (R40). -/
theorem State.moveCursor_line (hm : s.comp.modeInEffect = .line) (n : Nat) :
    let u : State := { s with comp := { s.comp with cursor := n } }
    s.moveCursor n = State.moveWindow { s with comp := { s.comp with cursor := n, logical := u.cursorPosition } } := by
  intro u
  rw [State.moveCursor, State.syncCursor_eq, State.followed, if_pos (show u.comp.modeInEffect = .line from hm)]

theorem State.retexts.addsNoWait (h : s.retexts t) : s.addsNoWait t := by
  rw [State.addsNoWait, h.comp]
  exact ⟨rfl, id⟩

/-- Settles O35: what is left by a deletion is edited in where it fits; at an end the key is refused. -/
theorem lineEditsAtTheCursor : Obligations.LineEditsAtTheCursor := by
  refine ⟨fun s i f hcase h hsource hm => ?_, fun s i a paper hi h hsource hmode hcursor => ?_⟩
  · have hdirect : s.comp.modeInEffect = .direct := (Composer.modeInEffect_local hsource).trans hm
    obtain ⟨rfl, rfl⟩ | ⟨rfl, rfl⟩ := hcase
    · refine exec_refuses (paper := true) h rfl ((State.evalKey_func (.inl hsource)).trans ?_)
      show s.evalCursorLeft = _
      rw [State.evalCursorLeft, hdirect]
    · refine exec_refuses (paper := true) h rfl ((State.evalKey_func (.inl hsource)).trans ?_)
      show s.evalCursorRight = _
      rw [State.evalCursorRight, hdirect]
  · intro cuts goes
    have hm : s.comp.modeInEffect = .line := (Composer.modeInEffect_local hsource).trans hmode
    have hrefuses (he : s.evalKey paper a = .refused s) : ∃ t, exec i s = .next t ∧ s.refusedKey t a := exec_refuses h hi he
    have hcuts {recs : List CompRec} {n : Nat} (hf : a ≠ .func .returnKey) (he : s.evalKey paper a = s.deleteTo recs n) :
        cuts recs n := by
      set u : State := { s with comp := { s.comp with recs := recs, cursor := n } }
      refine ⟨fun hl hfits => ?_, fun hno => hrefuses (he.trans (if_neg ?_))⟩
      · have hedit := State.editRecs_line hm hl h.1.2.2 recs n
        obtain ⟨t, hx, htook, ht⟩ := exec_takes h hi (he.trans (if_pos hfits))
          (State.addsNoWait.trans ⟨rfl, id⟩ hedit.addsNoWait) fun ha => absurd ha hf
        set v : State := { s with comp := { s.comp with recs := recs, cursor := n, logical := u.cursorPosition } } with hv
        have hs : s.keeps v [.comp] := s.keeps_comp _
        have hkeeps : s.keeps (s.editRecs recs n) [.comp, .line, .ctr, .spell, .window] :=
          State.keeps_trans (State.keeps_mono hs (by decide)) (State.keeps_mono hedit.keeps (by decide))
        have hcomp : t.comp = { (s.editRecs recs n).comp with override := false } := by
          rw [ht.comp, decide_eq_false hf, Bool.false_and]
        refine ⟨t, hx, htook, ?_, ?_, fun k hk => ?_, ht.keepsAll hkeeps (by decide) (by decide),
          ht.followsFrom hkeeps (by decide)⟩
        · rw [hcomp]
          exact hedit.recs
        · rw [hcomp, hedit.comp]
        · rw [show t.ctr = (s.editRecs recs n).ctr from ht.keeps .ctr (by decide)]
          exact hedit.get k hk
      · rw [show s.fits recs = false from hno]
        decide
    have hgoes {n : Nat} (hf : a ≠ .func .returnKey) (he : s.evalKey paper a = .taken (s.moveCursor n)) : goes n := by
      set u : State := { s with comp := { s.comp with cursor := n } }
      have hmove := State.moveCursor_line hm n
      have hs : s.keeps (s.moveCursor n) [.comp, .window] := fun p hp => by
        rw [hmove]
        cases p <;> simp_all [State.same, State.moveWindow]
      obtain ⟨t, hx, htook, ht⟩ := exec_takes h hi he (by rw [hmove]; exact ⟨rfl, id⟩) fun ha => absurd ha hf
      refine ⟨t, hx, htook, ?_, ht.keepsAll hs (by decide) (by decide), ht.followsFrom hs (by decide)⟩
      rw [ht.comp, decide_eq_false hf, Bool.false_and, hmove]
      rfl
    have hfunc {f : Func} : s.evalKey paper (.func f) = s.evalFunc paper f := State.evalKey_func (.inl hsource)
    have hback : a = .func .backspace ∨ a = .func .correct → s.evalKey paper a = s.deleteBefore ∧ a ≠ .func .returnKey := by
      rintro (rfl | rfl)
      · exact ⟨hfunc.trans (by rw [State.evalFunc, State.evalBackspace, hm]), nofun⟩
      · exact ⟨hfunc.trans (by rw [State.evalFunc, State.evalCorrect, hm]), nofun⟩
    have hword : a = .func .wordCorrect → s.evalKey paper a = s.deleteWord := by
      rintro rfl
      exact hfunc.trans (by rw [State.evalFunc, State.evalWordCorrect, hm])
    have hline : a = .func .lineCorrect → s.evalKey paper a = s.deleteAll := by
      rintro rfl
      exact hfunc.trans (by rw [State.evalFunc, State.evalLineCorrect, hm])
    have hleft : a = .func .cursorLeft →
        s.evalKey paper a = if s.comp.cursor = 0 then .refused s else .taken (s.moveCursor (s.comp.cursor - 1)) := by
      rintro rfl
      exact hfunc.trans (by rw [State.evalFunc, State.evalCursorLeft, hm])
    have hright : a = .func .cursorRight → s.evalKey paper a =
        if s.comp.recs.length ≤ s.comp.cursor then .refused s else .taken (s.moveCursor (s.comp.cursor + 1)) := by
      rintro rfl
      exact hfunc.trans (by rw [State.evalFunc, State.evalCursorRight, hm])
    have hrelocate : a = .func .relocate → s.evalKey paper a = .taken (s.moveCursor s.comp.recs.length) := by
      rintro rfl
      exact hfunc.trans (by rw [State.evalFunc, State.evalRelocate, hm])
    refine ⟨fun ha hpos => ?_, fun ha hpos => ?_, fun ha hne => ?_, fun ha hpos => ?_, fun ha hlt => ?_, fun ha => ?_,
      fun ha h0 => ?_, fun ha hnil => ?_, fun ha hend => ?_⟩
    · obtain ⟨he, hf⟩ := hback ha
      exact hcuts hf (he.trans (if_neg hpos.ne'))
    · exact hcuts (by rw [ha]; nofun) ((hword ha).trans (if_neg hpos.ne'))
    · exact hcuts (by rw [ha]; nofun) ((hline ha).trans (if_neg (by simpa using hne)))
    · exact hgoes (by rw [ha]; nofun) ((hleft ha).trans (if_neg hpos.ne'))
    · exact hgoes (by rw [ha]; nofun) ((hright ha).trans (if_neg hlt.not_ge))
    · exact hgoes (by rw [ha]; nofun) (hrelocate ha)
    · rcases ha with ha | ha | ha | ha
      · exact hrefuses ((hback (.inl ha)).1.trans (if_pos h0))
      · exact hrefuses ((hback (.inr ha)).1.trans (if_pos h0))
      · exact hrefuses ((hword ha).trans (if_pos h0))
      · exact hrefuses ((hleft ha).trans (if_pos h0))
    · exact hrefuses ((hline ha).trans (if_pos (by rw [hnil]; rfl)))
    · exact hrefuses ((hright ha).trans (if_pos hend.ge))

/-! ### The keys of the words (R127, R128) -/

theorem State.addUserWord_addsNoWait (s : State) (w : List Nat) : s.addsNoWait (s.addUserWord w) :=
  State.addsNoWait.of_comp ((s.addUserWord_relists w).keeps .comp (by decide))

/-- A word of the user list is a word of 2 to 24 letters without a digit (R127). -/
theorem State.evalAddWord_isWord {w : SpellWord} (hw : s.targetWord = some w) (hd : w.digit = false) (hlow : 2 ≤ w.length)
    (hhigh : w.length ≤ 24) : s.evalAddWord =
      if s.spell.users.contains w.letters then .taken s
      else if userPlaces ≤ s.spell.users.length then .refused s else .taken (s.addUserWord w.letters) := by
  have hword : ¬(w.digit = true ∨ w.length < 2 ∨ wordLetters < w.length) := by
    rw [hd]
    exact not_or.mpr ⟨nofun, not_or.mpr ⟨hlow.not_gt, hhigh.not_gt⟩⟩
  rw [State.evalAddWord, hw]
  exact if_neg hword

theorem State.evalAddWord_notWord {w : SpellWord} (hw : s.targetWord = some w)
    (h : ¬(w.digit = false ∧ 2 ≤ w.length ∧ w.length ≤ 24)) : s.evalAddWord = .refused s := by
  have hword : w.digit = true ∨ w.length < 2 ∨ wordLetters < w.length := by
    by_contra hno
    obtain ⟨hd, hlow, hhigh⟩ := by simpa only [not_or] using hno
    exact h ⟨Bool.eq_false_iff.mpr hd, Nat.not_lt.mp hlow, Nat.not_lt.mp hhigh⟩
  rw [State.evalAddWord, hw]
  exact if_pos hword

/-! ### A lookup completes (R119, R120) -/

/-- With no sweep running the Spelling Unit starts the next lookup alone (R119). -/
theorem State.spellOn_of_noSweep (he : s.spell.engine = none) (hs : s.spell.sweep = none) : s.spellOn = { s with
    spell := { s.spell with
      engine := (takeLookup s.spell.words s.lookupStart s.spell.checkq).1
      checkq := (takeLookup s.spell.words s.lookupStart s.spell.checkq).2 } } := by
  have hpump : s.pumpEngine = { s with spell := { s.spell with
      engine := (takeLookup s.spell.words s.lookupStart s.spell.checkq).1
      checkq := (takeLookup s.spell.words s.lookupStart s.spell.checkq).2 } } := by
    rw [State.pumpEngine, he]
  rw [State.spellOn, hpump]
  dsimp only
  rw [State.runSweep]
  dsimp only
  rw [hs]

/-- Signals and events do not read the Spelling Unit. -/
theorem State.signal_with_spell (s : State) (g : Pattern) (p : Spelling) :
    State.signal { s with spell := p } g = { s.signal g with spell := p } := by
  unfold State.signal
  dsimp only
  cases s.disp.beeper with
  | none => split_ifs <;> rfl
  | some b =>
    dsimp only
    split_ifs <;> rfl

theorem State.event_with_spell (s : State) (e : Event) (p : Spelling) :
    State.event { s with spell := p } e = { s.event e with spell := p } := by
  unfold State.event
  split <;> rfl

/-- A MISS counted, signalled and told (R120). -/
def State.toldMiss (s : State) (w : SpellWord) : State :=
  ((s.raise .misses).signal .miss).event (.spellMiss w.num w.letters)

theorem State.toldMiss_with_spell (s : State) (w : SpellWord) (p : Spelling) :
    State.toldMiss { s with spell := p } w = { s.toldMiss w with spell := p } :=
  (congrArg (State.event · _) (State.signal_with_spell (s.raise .misses) _ _)).trans (State.event_with_spell _ _ _)

theorem State.keeps_toldMiss (s : State) (w : SpellWord) : s.keeps (s.toldMiss w) [.ctr, .ret, .beeper] :=
  fun q hq => by cases q <;> simp_all [State.same, State.toldMiss]

theorem State.keeps_ctr (s : State) (c : Counters) : s.keeps { s with ctr := c } [.ctr] :=
  fun p hp => by cases p <;> simp_all [State.same]

theorem State.keeps_spell (s : State) (p : Spelling) : s.keeps { s with spell := p } [.spell] :=
  fun p hp => by cases p <;> simp_all [State.same]

/-- The completion of a lookup: its result applied to what the engine leaves, then the next one. -/
theorem exec_lookupComplete (hq : s.quiet) {l : Lookup} {p : Spelling} (hl : s.spell.engine = some l)
    (hu : State.applyLookup (State.raise { s with spell := { s.spell with engine := none } } .checks) l
      (l.place.scan s.tab.mem l.letters).1 = u) (hp : u.spell = p) (he : p.engine = none) (hs : p.sweep = none)
    (hk : s.keeps u [.spell, .ctr, .ret, .beeper]) :
    ∃ t, exec .lookupComplete s = .next t ∧
      t.spell = { p with
        engine := (takeLookup p.words s.lookupStart p.checkq).1, checkq := (takeLookup p.words s.lookupStart p.checkq).2 } ∧
      t.ctr = u.ctr ∧ t.ret = u.ret ∧ t.disp.beeper = u.disp.beeper ∧
      s.keeps t [.spell, .ctr, .ret, .beeper, .image] ∧ s.imageFollows t := by
  subst hp
  have htab : u.tab = s.tab := hk.tab (by decide) (by decide) (by decide)
  have hset : u.set = s.set := hk .set (by decide)
  have hcomp : u.comp = s.comp := hk .comp (by decide)
  have hstart : u.lookupStart = s.lookupStart := by
    funext letters
    simp only [State.lookupStart, State.activeBase, State.active, State.selection, htab, hset]
  set v : State := { u with spell := { u.spell with
    engine := (takeLookup u.spell.words u.lookupStart u.spell.checkq).1
    checkq := (takeLookup u.spell.words u.lookupStart u.spell.checkq).2 } } with hv
  have hcomplete : s.completeLookup = v := by
    unfold State.completeLookup
    rw [hl]
    exact (congrArg State.spellOn hu).trans (State.spellOn_of_noSweep he hs)
  have huv : u.keeps v [.spell] := fun q hq => by cases q <;> simp_all [State.same]
  have hsv : s.keeps v [.spell, .ctr, .ret, .beeper] := State.keeps_trans hk (State.keeps_mono huv (by decide))
  refine ⟨v.formImage, exec_of_quiet (fun _ => rfl) hq hcomplete (State.addsNoWait.of_comp hcomp), ?_, ?_, ?_, ?_,
    State.keeps.ends hsv (by decide) (by decide)⟩
  · rw [← hstart]
    exact State.formImage_same v .spell nofun
  · exact State.formImage_same v .ctr nofun
  · exact State.formImage_same v .ret nofun
  · exact State.formImage_same v .beeper nofun

/-- Settles O40: the keys by the target word, and the lookup by the word it was for. -/
theorem wordKeysAndLookupsGiveVerdicts : Obligations.WordKeysAndLookupsGiveVerdicts := by
  refine ⟨fun s hsource => ⟨fun h => ⟨fun w hw hmiss => ?_, fun hno => ?_⟩, fun h => ⟨fun hnone => ?_, fun w hw => ?_⟩⟩, ?_⟩
  · have he : s.evalFunc true .acceptWord = .taken (s.setVerdict w.num .accepted) := by
      show s.evalAcceptWord = _
      rw [State.evalAcceptWord, hw]
      exact if_pos hmiss
    have hs : s.keeps (s.setVerdict w.num .accepted) [.spell] := fun q hq => by cases q <;> simp_all [State.same]
    obtain ⟨t, hx, htook, -, htakes, hk, himg⟩ := exec_takes_keeping h rfl (.inl hsource) nofun he ⟨rfl, id⟩ hs (by decide)
    exact ⟨t, hx, htook, htakes.keeps .spell (by decide), State.keeps_mono hk (by decide), himg⟩
  · refine exec_refuses (paper := true) h rfl ((State.evalKey_func (.inl hsource)).trans ?_)
    show s.evalAcceptWord = _
    unfold State.evalAcceptWord
    split
    case h_1 w hw => exact if_neg (hno w hw)
    case h_2 => rfl
  · refine exec_refuses (paper := true) h rfl ((State.evalKey_func (.inl hsource)).trans ?_)
    show s.evalAddWord = _
    rw [State.evalAddWord, hnone]
  · intro isWord
    have hrefuses (he : s.evalAddWord = .refused s) : ∃ t, exec .addWord s = .next t ∧ s.refusedKey t (.func .addWord) :=
      exec_refuses (paper := true) h rfl ((State.evalKey_func (.inl hsource)).trans he)
    refine ⟨fun hbad => hrefuses ?_, fun ⟨hd, hlow, hhigh⟩ hin => ?_, fun ⟨hd, hlow, hhigh⟩ hout hroom => ?_⟩
    · by_cases hword : isWord
      · obtain ⟨hout, hfull⟩ := hbad.resolve_left (not_not.mpr hword)
        obtain ⟨hd, hlow, hhigh⟩ := hword
        rw [State.evalAddWord_isWord hw hd hlow hhigh, if_neg (mt List.contains_iff_mem.mp hout),
          if_pos (show userPlaces ≤ s.spell.users.length from hfull)]
      · exact State.evalAddWord_notWord hw hword
    · have he : s.evalFunc true .addWord = .taken s :=
        (State.evalAddWord_isWord hw hd hlow hhigh).trans (if_pos (List.contains_iff_mem.mpr hin))
      obtain ⟨t, hx, htook, -, -, hk, himg⟩ := exec_takes_keeping (l := []) h rfl (.inl hsource) nofun he ⟨rfl, id⟩
        (fun q _ => by cases q <;> simp [State.same]) (by decide)
      exact ⟨t, hx, htook, hk, himg⟩
    · have he : s.evalFunc true .addWord = .taken (s.addUserWord w.letters) := by
        refine (State.evalAddWord_isWord hw hd hlow hhigh).trans ?_
        rw [if_neg (mt List.contains_iff_mem.mp hout), if_neg (show ¬userPlaces ≤ s.spell.users.length from hroom.not_ge)]
      have hadd := s.addUserWord_relists w.letters
      obtain ⟨t, hx, htook, -, htakes, hk, himg⟩ := exec_takes_keeping h rfl (.inl hsource) nofun he
        (s.addUserWord_addsNoWait _) hadd.keeps (by decide)
      have hspell : t.spell = (s.addUserWord w.letters).spell := htakes.keeps .spell (by decide)
      refine ⟨t, hx, htook, by rw [hspell, hadd.users], by rw [hspell, hadd.nextWord], fun k hk => ?_,
        State.keeps_mono hk (by decide), himg⟩
      rw [show t.ctr = (s.addUserWord w.letters).ctr from htakes.keeps .ctr (by decide), hadd.get k hk]
  · intro s l base hq hl hsweep hbase hplace found checked missed judged goesOn
    set v : State := State.raise { s with spell := { s.spell with engine := none } } .checks with hv
    have hfound : (l.place.scan s.tab.mem l.letters).1 = found := by
      rw [hplace]
      rfl
    have hgoes {p : Spelling} {u w : State} (hu : v.applyLookup l found = w) (hp : w.spell = p) (he : p.engine = none)
        (hs : p.sweep = none) (hk : s.keeps w [.spell, .ctr, .ret, .beeper]) (hctr : w.ctr = u.ctr) (hret : w.ret = u.ret)
        (hbeep : w.disp.beeper = u.disp.beeper) : goesOn p u := by
      rw [← hfound] at hu
      obtain ⟨t, hx, hspell, hc, hr, hb, hkeeps, himg⟩ := exec_lookupComplete hq hl hu hp he hs hk
      exact ⟨t, hx, hspell, hc.trans hctr, hr.trans hret, hb.trans hbeep, hkeeps, himg⟩
    have hjudged (x : Verdict) : (judged x).sweep = none := by
      simp [judged, Spelling.purge, Spelling.keepWords, hsweep]
    refine ⟨fun w hw hgen hpending => ⟨fun hyes => ?_, fun hno => ?_⟩, fun hno => ?_⟩
    · have happly : v.applyLookup l found = v.setVerdict l.word .known := by
        rw [hyes, State.applyLookup, show findWord v.spell.words l.word = some w from hw]
        exact (if_pos ⟨hgen, hpending⟩).trans (if_pos rfl)
      exact hgoes (u := checked) happly rfl rfl (hjudged _) (fun q hq => by cases q <;> simp_all [State.same]) rfl rfl rfl
    · have happly : v.applyLookup l found =
          (((v.setVerdict l.word .miss).raise .misses).signal .miss).event (.spellMiss w.num w.letters) := by
        rw [hno, State.applyLookup, show findWord v.spell.words l.word = some w from hw]
        exact (if_pos ⟨hgen, hpending⟩).trans (if_neg Bool.false_ne_true)
      have htold : (((v.setVerdict l.word .miss).raise .misses).signal .miss).event (.spellMiss w.num w.letters) =
          { checked.toldMiss w with spell := judged .miss } := checked.toldMiss_with_spell w (judged .miss)
      rw [htold] at happly
      have hchecked : s.keeps checked [.ctr] := s.keeps_ctr _
      have hkeeps : s.keeps (checked.toldMiss w) [.ctr, .ret, .beeper] :=
        State.keeps_trans (State.keeps_mono hchecked (by decide)) (checked.keeps_toldMiss w)
      have hspell := (checked.toldMiss w).keeps_spell (judged .miss)
      exact hgoes (u := missed w) happly rfl rfl (hjudged .miss)
        (State.keeps_trans (State.keeps_mono hkeeps (by decide)) (State.keeps_mono hspell (by decide))) rfl rfl rfl
    · have happly : v.applyLookup l found = v := by
        unfold State.applyLookup
        split
        · rfl
        case h_2 w hw => exact if_neg (hno w hw)
      exact hgoes (u := checked) happly rfl rfl hsweep (fun q hq => by cases q <;> simp_all [State.same]) rfl rfl rfl

/-! ### The rows of remote text (R23, R28, R175) -/

/-- The evaluation of the remote code whose turn it is. -/
theorem exec_textRow {i : Instr} {code : Byte} {rest : List Byte} {f : Byte → Bool} (h : s.textTurn code rest)
    (hi : exec i s = live s (fun s => s.textRow f)) (hf : f code = true) :
    exec i s = .next (s.evalText code).finishText.formImage := by
  obtain ⟨hq, hsource, hsel, htxt⟩ := h
  rw [hi, live_of_running hq.1]
  refine congrArg _ ?_
  have hready : s.keyReady = false := by
    rw [State.keyReady, hsel]
    rfl
  unfold State.textRow
  rw [htxt]
  exact (if_pos ⟨hsource, hf, hq.2.2, by rw [hready]; rfl⟩).trans (State.settle_from_quiet hq _)

/-- A code below 0x20 that is no control the model acts on (R36). -/
theorem isUnmapped_of {code : Byte} (h20 : code.toNat < 0x20) (hcr : code ≠ 0x0D) (hlf : code ≠ 0x0A) (hff : code ≠ 0x0C)
    (hbs : code ≠ 0x08) (hht : code ≠ 0x09) : isUnmapped code = true := by
  simp only [isUnmapped, h20, Bool.and_eq_true, decide_eq_true_eq, true_and]
  exact ⟨⟨⟨⟨hcr, hlf⟩, hff⟩, hbs⟩, hht⟩

theorem exec_textRowOf {code : Byte} {rest : List Byte} (h : s.textTurn code rest) :
    exec (textRowOf code) s = .next (s.evalText code).finishText.formImage := by
  unfold textRowOf
  split_ifs with h20 hcr hlf hff hbs hht
  · exact exec_textRow h rfl (decide_eq_true h20)
  · exact exec_textRow h rfl (decide_eq_true hcr)
  · exact exec_textRow h rfl (decide_eq_true hlf)
  · exact exec_textRow h rfl (decide_eq_true hff)
  · exact exec_textRow h rfl (decide_eq_true hbs)
  · exact exec_textRow h rfl (decide_eq_true hht)
  · exact exec_textRow h rfl (isUnmapped_of (Nat.not_le.mp h20) hcr hlf hff hbs hht)

/-- A remote code that is carried out leaves `u` and is taken. -/
theorem exec_takesText {code : Byte} {rest : List Byte} (h : s.textTurn code rest) (he : s.evalText code = .taken u)
    (hw : s.addsNoWait u) :
    ∃ t, exec (textRowOf code) s = .next t ∧ s.tookText t rest ∧ t.comp = u.comp ∧ u.keeps t [.txt, .image] ∧
      u.imageFollows t := by
  obtain ⟨-, ht⟩ := hw.quiet h.1
  have hx := exec_textRowOf h
  have hframe := s.evalText_frame code
  rw [he] at hx hframe
  obtain ⟨-, -, -, -, -, -, htxt, -, -, -⟩ := hframe
  have htxt : u.txt = s.txt := htxt
  have hcomp : u.takeText.comp = u.comp := by
    simp only [State.takeText]
    rw [← ht]
  have hkeeps : u.keeps u.takeText [.txt] := fun p hp => by
    by_cases hc : p = .comp
    · subst hc
      exact hcomp
    · cases p <;> simp_all [State.same, State.takeText]
  refine ⟨_, hx, ?_, ?_, ?_, ?_⟩
  · refine (State.formImage_same u.takeText .txt nofun).trans ?_
    obtain ⟨-, -, -, hqueue⟩ := h
    rw [show u.takeText.txt = { u.txt with queue := u.txt.queue.tail, unsent := u.txt.unsent + 1 } from rfl, htxt, hqueue]
    rfl
  · exact (State.formImage_same u.takeText .comp nofun).trans hcomp
  · exact State.keeps_trans (State.keeps_mono hkeeps (by decide)) (State.keeps_mono (State.keeps_formImage _) (by decide))
  · exact State.imageFollows_formImage (s := u) (t := u.takeText) rfl rfl

/-! ### The position moved in DIRECT (R35, R46, R109) -/

/-- The break marks with one after the newest entry of the word text (R109). -/
def State.newMarks (s : State) : List Word :=
  match lastWhere (fun e => e.state ≠ .lifting) s.line.entries with
  | none => s.spell.marks
  | some e => if e.seqNum ∈ s.spell.marks then s.spell.marks else s.spell.marks ++ [e.seqNum]

theorem lastWhere_eq_getLast? {α : Type} (p : α → Bool) (l : List α) : lastWhere p l = (l.filter p).getLast? := by
  induction l with
  | nil => rfl
  | cons a l ih =>
    rw [lastWhere, ih, List.filter_cons]
    cases hp : p a with
    | true =>
      simp only [if_true]
      rw [List.getLast?_cons]
      cases (l.filter p).getLast? <;> rfl
    | false =>
      simp only [Bool.false_eq_true, if_false]
      cases (l.filter p).getLast? <;> rfl

/-- A break mark leaves the text, but for the word references (R109, R112). -/
theorem State.markBoundary_respells (s : State) :
    State.respells { s with spell := { s.spell with marks := s.newMarks } } s.markBoundary := by
  have hnewest : s.line.shown.getLast? = lastWhere (fun e => e.state ≠ .lifting) s.line.entries :=
    (lastWhere_eq_getLast? _ _).symm
  unfold State.markBoundary State.newMarks
  rw [hnewest]
  cases lastWhere (fun e => e.state ≠ .lifting) s.line.entries with
  | none => exact .refl s
  | some e =>
    dsimp only
    by_cases hin : e.seqNum ∈ s.spell.marks
    · rw [if_pos hin, if_pos (List.contains_iff_mem.mpr hin)]
      exact .refl s
    · rw [if_neg hin, if_neg (mt List.contains_iff_mem.mp hin)]
      exact State.respell_respells _

theorem State.markBoundary_comp (hm : s.comp.modeInEffect = .direct) : s.markBoundary.comp = s.comp := by
  unfold State.markBoundary
  split
  · rfl
  · split
    · rfl
    · exact (State.respell_other _).1 hm

/-- The position has moved in DIRECT, with its break mark. -/
structure State.repositions (s u : State) (x : Nat) (marks : List Word) : Prop where
  marks : u.spell.marks = marks
  comp : u.comp = { s.comp with logical := x }
  entries : plain u.line.entries = plain s.line.entries
  line : u.line = { s.line with entries := u.line.entries }
  get : ∀ k, k ≠ Counter.checksDropped → u.ctr.get k = s.ctr.get k
  keeps : s.keeps u [.comp, .line, .ctr, .spell]

theorem State.repositions.addsNoWait {x : Nat} {marks : List Word} (h : s.repositions u x marks) : s.addsNoWait u := by
  rw [State.addsNoWait, h.comp]
  exact ⟨rfl, id⟩

theorem State.markBoundary_repositions (hm : s.comp.modeInEffect = .direct) (x : Nat) :
    s.repositions (State.markBoundary { s with comp := { s.comp with logical := x } }) x s.newMarks := by
  set v : State := { s with comp := { s.comp with logical := x } } with hv
  have hmark := v.markBoundary_respells
  refine ⟨hmark.marks, State.markBoundary_comp (s := v) hm, hmark.entries, hmark.line, hmark.get, ?_⟩
  have hw : s.keeps { v with spell := { v.spell with marks := v.newMarks } } [.comp, .spell] :=
    State.keeps_trans (State.keeps_mono (s.keeps_comp _) (by decide)) (State.keeps_mono (v.keeps_spell _) (by decide))
  exact State.keeps_trans (State.keeps_mono hw (by decide)) (State.keeps_mono hmark.keeps (by decide))

theorem State.backspaceDirect_repositions (hm : s.comp.modeInEffect = .direct) :
    s.repositions s.backspaceDirect (s.comp.logical - s.backStep) (if s.comp.logical = 0 then s.spell.marks else s.newMarks) := by
  unfold State.backspaceDirect
  by_cases h0 : s.comp.logical = 0
  · rw [if_pos h0, if_pos h0, h0, Nat.zero_sub]
    refine ⟨rfl, ?_, rfl, rfl, fun _ _ => rfl, fun p _ => by cases p <;> simp [State.same]⟩
    rw [← h0]
  · rw [if_neg h0, if_neg h0]
    exact State.markBoundary_repositions hm _

theorem State.backStep_eq (s : State) : s.backStep = s.comp.pitch.advance.getD
    (((lastWhere (fun e => e.adv ≠ 0 && e.pos + e.adv = s.comp.logical) s.line.entries).map Entry.adv).getD
      (s.spaceWidth.getD 12)) := by
  unfold State.backStep
  cases s.comp.pitch.advance with
  | some a => rfl
  | none => cases lastWhere (fun e => e.adv ≠ 0 && e.pos + e.adv = s.comp.logical) s.line.entries <;> rfl

/-- Settles O37: each of the controls moves the position from a key and from the remote text alike. -/
theorem directPositionKeysMoveThePosition : Obligations.DirectPositionKeysMoveThePosition := by
  refine ⟨fun s h hm => ?_, fun s hm => ?_⟩
  · obtain ⟨hsource, -⟩ := Composer.modeInEffect_line hm
    refine exec_refuses (paper := true) h rfl ((State.evalKey_func (.inl hsource)).trans ?_)
    show s.evalMarginRelease = _
    rw [State.evalMarginRelease, hm]
  · intro back stop marked backMarked moved byKey byText counts
    have hmarked : marked = s.newMarks := by
      cases hl : lastWhere (fun e => e.state ≠ .lifting) s.line.entries with
      | none => simp only [marked, State.newMarks, hl]
      | some e => simp only [marked, State.newMarks, hl]
    have hback : s.repositions s.backspaceDirect (s.comp.logical - back) backMarked := by
      have hrep := State.backspaceDirect_repositions hm
      rw [s.backStep_eq, ← hmarked] at hrep
      exact hrep
    have htab (t : TabStop) : s.repositions (s.tabTo t) t.pos marked := by
      rw [hmarked]
      exact State.markBoundary_repositions hm t.pos
    have hmoved {u t : State} {x : Nat} {marks : List Word} {b : Bool} (hu : s.repositions u x marks)
        (hcomp : t.comp = { u.comp with override := b }) (hline : ∃ r, t.line = { u.line with run := r })
        (hspell : t.spell = u.spell) (hctr : t.ctr = u.ctr) : moved t x marks b := by
      obtain ⟨r, hline⟩ := hline
      refine ⟨by rw [hspell, hu.marks], by rw [hcomp, hu.comp], by rw [hline]; exact hu.entries, ?_, ?_, fun k hk => ?_⟩
      · rw [hline, hu.line]
      · rw [hline, hu.line]
      · rw [hctr, hu.get k hk]
    have hkey {i : Instr} {f : Func} {u : State} {x : Nat} {marks : List Word} (hsource : s.comp.source = .localKeys)
        (h : s.turnOf (.func f)) (hi : rowOf true (.func f) = some i) (hf : f ≠ .returnKey)
        (he : s.evalFunc true f = .taken u) (hu : s.repositions u x marks) : byKey i (.func f) x marks := by
      obtain ⟨t, hx, htook, hcomp, htakes, hk, himg⟩ := exec_takes_keeping h hi (.inl hsource) hf he hu.addsNoWait hu.keeps
        (by decide)
      exact ⟨t, hx, htook, hmoved hu hcomp ⟨_, htakes.line⟩ (htakes.keeps .spell (by decide)) (htakes.keeps .ctr (by decide)),
        State.keeps_mono hk (by decide), himg⟩
    have htext {i : Instr} {code : Byte} {rest : List Byte} {u : State} {x : Nat} {marks : List Word} (h : s.textTurn code rest)
        (hi : textRowOf code = i) (he : s.evalText code = .taken u) (hu : s.repositions u x marks) : byText i rest x marks := by
      subst hi
      obtain ⟨t, hx, htook, hcomp, hk, himg⟩ := exec_takesText h he hu.addsNoWait
      obtain ⟨hcurrent, hslot⟩ := hu.keeps .image (by decide)
      refine ⟨t, hx, htook, hmoved hu ?_ ⟨_, hk .line (by decide)⟩ (hk .spell (by decide)) (hk .ctr (by decide)),
        State.keeps_trans (State.keeps_mono hu.keeps (by decide)) (State.keeps_mono hk (by decide)), ?_⟩
      · rw [hcomp, hu.comp]
      · rwa [State.imageFollows, hcurrent, hslot] at himg
    have hcounts {i : Instr} {code : Byte} {rest : List Byte} (h : s.textTurn code rest) (hi : textRowOf code = i)
        (he : s.evalText code = .taken (s.raise .unmappedControls)) : counts i rest := by
      subst hi
      obtain ⟨t, hx, htook, -, hk, himg⟩ := exec_takesText h he (State.addsNoWait.of_comp rfl)
      exact ⟨t, hx, htook, hk .ctr (by decide), State.keeps_trans (State.keeps_mono (s.keeps_ctr _) (by decide))
        (State.keeps_mono hk (by decide)), himg⟩
    have hstop (t : TabStop) (ht : stop = some t) : s.directStop = some t := ht
    refine ⟨fun hsource => ⟨fun h => ?_, fun h => ⟨fun t ht => ?_, fun hno => ?_⟩, fun h => ?_⟩, fun rest =>
      ⟨fun h => ?_, fun h => ⟨fun t ht => ?_, fun hno => ?_⟩, fun code h20 hcr hlf hff hbs hht h => ?_⟩⟩
    · refine hkey hsource h rfl nofun ?_ hback
      show s.evalBackspace = _
      rw [State.evalBackspace, hm]
    · refine hkey hsource h rfl nofun ?_ (htab t)
      show s.evalTab = _
      rw [State.evalTab, hm]
      dsimp only
      rw [hstop t ht]
    · refine exec_refuses (paper := true) h rfl ((State.evalKey_func (.inl hsource)).trans ?_)
      show s.evalTab = _
      rw [State.evalTab, hm]
      dsimp only
      rw [show s.directStop = none from hno]
    · set u : State := { s with comp := { s.comp with flags := { s.comp.flags with marginReleased := true } } } with hu
      have he : s.evalFunc true .marginRelease = .taken u := by
        show s.evalMarginRelease = _
        rw [State.evalMarginRelease, hm]
      obtain ⟨t, hx, htook, hcomp, -, hk, himg⟩ := exec_takes_keeping h rfl (.inl hsource) nofun he ⟨rfl, id⟩ (s.keeps_comp _)
        (by decide)
      exact ⟨t, hx, htook, hcomp, State.keeps_mono hk (by decide), himg⟩
    · exact htext h rfl rfl hback
    · refine htext h rfl ?_ (htab t)
      show (match s.directStop with | some t => Eval.taken (s.tabTo t) | none => .taken (s.raise .unmappedControls)) = _
      rw [hstop t ht]
    · refine hcounts h rfl ?_
      show (match s.directStop with | some t => Eval.taken (s.tabTo t) | none => .taken (s.raise .unmappedControls)) = _
      rw [show s.directStop = none from hno]
    · refine hcounts h ?_ ?_
      · unfold textRowOf
        rw [if_neg h20.not_ge, if_neg hcr, if_neg hlf, if_neg hff, if_neg hbs, if_neg hht]
      · unfold State.evalText
        rw [if_neg h20.not_ge, if_neg hcr, if_neg hlf, if_neg hff, if_neg hbs, if_neg hht]

end Sys2Proof.Machine
end

section
/-! PROOF of O36, O33, O42, O41 and O43. What the sequencer makes of orders that are appended, and what it reads to do so. -/

namespace Sys2Proof.Machine

variable {s t u : State}

/-! ### The queue goes on and the text stands (R72, R94) -/

/-- An order that takes its entry back once it has left the queue: a LIFT that names one (R101). -/
def Order.takesBack : Order → Bool
  | .lift _ _ _ _ ref => ref.isSome
  | _ => false

/-- The sequencer has gone on, and of the text the strike records follow alone. -/
structure State.reports (s t : State) : Prop where
  line : t.line = { s.line with entries := t.line.entries }
  length : t.line.entries.length = s.line.entries.length
  keeps : s.keeps t [.seq, .drv, .ret, .ctr, .line]

theorem State.reports.trans (h : s.reports t) (k : t.reports u) : s.reports u where
  line := by rw [k.line, h.line]
  length := k.length.trans h.length
  keeps := State.keeps_trans h.keeps k.keeps

theorem State.reports_of_keeps (h : s.keeps t [.seq, .drv, .ret, .ctr]) : s.reports t := by
  have hline : t.line = s.line := h .line (by decide)
  exact ⟨by rw [hline], by rw [hline], State.keeps_mono h (by decide)⟩

theorem State.reports.refl (s : State) : s.reports s := State.reports_of_keeps fun p _ => by cases p <;> simp [State.same]

theorem State.event_reports (s : State) (e : Event) : s.reports (s.event e) :=
  State.reports_of_keeps fun p hp => by cases p <;> simp_all [State.same]

theorem State.enter_reports (s : State) (st : MechState) (r : Reason) : s.reports (s.enter st r) :=
  State.reports_of_keeps fun p hp => by cases p <;> simp_all [State.same]

theorem State.raise_reports (s : State) (k : Counter) : s.reports (s.raise k) :=
  State.reports_of_keeps (State.keeps_mono (s.keeps_ctr _) (by decide))

theorem State.seq_reports (s : State) (q : Sequencer) : s.reports { s with seq := q } :=
  State.reports_of_keeps (State.keeps_mono (s.keeps_seq q) (by decide))

theorem State.keeps_line (s : State) (l : LineRecord) : s.keeps { s with line := l } [.line] :=
  fun p hp => by cases p <;> simp_all [State.same]

theorem State.reportStrike_reports (s : State) (ref : Option Word) (num : Word) (f : StrikeStatus → StrikeStatus) :
    s.reports (s.reportStrike ref num f) := by
  unfold State.reportStrike
  split
  · exact .refl s
  · exact ⟨rfl, List.length_map _, State.keeps_mono (s.keeps_line _) (by decide)⟩

theorem State.reportInFlight_reports (s : State) (o : Order) : s.reports (s.reportInFlight o) := by
  unfold State.reportInFlight
  split
  · exact s.reportStrike_reports _ _ _
  · exact .refl s

/-- A skipped order that takes no entry back. -/
theorem State.skipOrder_reports {o : Order} (h : o.takesBack = false) : s.reports (s.skipOrder o) := by
  have hpop := s.seq_reports s.popOrder.seq
  cases o with
  | strike code p role ref num =>
    exact (hpop.trans (State.raise_reports _ _)).trans (State.reportStrike_reports _ _ _ _)
  | lift pt w p l ref =>
    obtain rfl : ref = none := Option.isNone_iff_eq_none.mp (by simpa [Order.takesBack] using h)
    exact hpop.trans (State.event_reports _ _)
  | move p => exact hpop.trans (State.raise_reports _ _)
  | index c => exact hpop.trans (State.raise_reports _ _)
  | indexPage => exact hpop.trans (State.raise_reports _ _)

theorem State.skipOrder_queue {o : Order} (h : o.takesBack = false) : (s.skipOrder o).seq = s.popOrder.seq := by
  cases o with
  | lift pt w p l ref =>
    obtain rfl : ref = none := Option.isNone_iff_eq_none.mp (by simpa [Order.takesBack] using h)
    simp [State.skipOrder, State.reportSkipped, State.reportLift]
  | strike | move | index | indexPage => simp [State.skipOrder, State.reportSkipped, State.raise]

theorem State.enterWheelWait_reports (s : State) (c : WheelCondition) : s.reports (s.enterWheelWait c) := by
  cases c with
  | ready => exact .refl s
  | mismatch => exact (s.enter_reports _ _).trans (State.event_reports _ _)
  | noMap => exact (s.enter_reports _ _).trans (State.event_reports _ _)

theorem State.runOrders_reports (n : Nat) : ∀ s : State, (∀ o ∈ s.seq.queue, o.takesBack = false) →
    s.reports (State.runOrders n s) := by
  induction n with
  | zero => exact fun s _ => .refl s
  | succ n ih =>
    intro s hall
    unfold State.runOrders
    split
    · exact (s.seq_reports _).trans (State.enter_reports _ _ _)
    · split
      · exact s.enter_reports _ _
      case h_2 o rest hqueue =>
        have ho : o.takesBack = false := hall o (by rw [hqueue]; exact List.mem_cons_self)
        have hrest : ∀ x ∈ s.popOrder.seq.queue, x.takesBack = false := fun x hx => hall x (List.mem_of_mem_tail hx)
        split
        · exact (s.seq_reports _).trans (State.reportInFlight_reports _ _)
        · exact (State.skipOrder_reports ho).trans (ih _ (by rw [State.skipOrder_queue ho]; exact hrest))
        · exact s.enterWheelWait_reports _
        · exact (s.seq_reports _).trans (ih _ hrest)
        · exact s.seq_reports _
        · exact s.seq_reports _

theorem State.enter_queue (s : State) (st : MechState) (r : Reason) : (s.enter st r).seq.queue = s.seq.queue := by
  unfold State.enter
  split
  · rfl
  · simp

theorem State.kick_reports (h : s.seq.state = .idle → ∀ o ∈ s.seq.queue, o.takesBack = false) : s.reports s.kick := by
  unfold State.kick
  split
  case isTrue hidle =>
    refine (s.enter_reports _ _).trans (State.runOrders_reports _ _ ?_)
    rw [State.enter_queue]
    exact h hidle.1
  case isFalse => exact .refl s

/-! ### Orders without a reference leave the line record alone (R65, R94) -/

theorem Order.takesBack_of_ref {o : Order} (h : o.ref = none) : o.takesBack = false := by
  cases o with
  | lift pt w p l ref => exact congrArg Option.isSome h
  | strike | move | index | indexPage => rfl

theorem State.reportInFlight_of_ref {o : Order} (h : o.ref = none) : s.reportInFlight o = s := by
  cases o with
  | strike code p role ref num => rw [State.reportInFlight, show ref = none from h]; rfl
  | lift | move | index | indexPage => rfl

theorem State.skipOrder_line {o : Order} (h : o.ref = none) : (s.skipOrder o).line = s.line := by
  cases o with
  | strike code p role ref num =>
    obtain rfl : ref = none := h
    rfl
  | lift pt w p l ref =>
    obtain rfl : ref = none := h
    exact (State.event_frame _ _).2.2.2.2.2.2.2.2.2.2.2.2.2.1
  | move | index | indexPage => rfl

theorem State.runOrders_line (n : Nat) : ∀ s : State, (∀ o ∈ s.seq.queue, o.ref = none) →
    (State.runOrders n s).line = s.line := by
  induction n with
  | zero => exact fun s _ => rfl
  | succ n ih =>
    intro s hall
    unfold State.runOrders
    split
    · simp
    · split
      · simp
      case h_2 o rest hqueue =>
        have ho : o.ref = none := hall o (by rw [hqueue]; exact List.mem_cons_self)
        have hrest : ∀ x ∈ s.popOrder.seq.queue, x.ref = none := fun x hx => hall x (List.mem_of_mem_tail hx)
        split
        · rw [State.startPosition, State.reportInFlight_of_ref ho]
        · refine (ih _ ?_).trans (State.skipOrder_line ho)
          rw [State.skipOrder_queue (Order.takesBack_of_ref ho)]
          exact hrest
        · simp
        · exact ih _ hrest
        · rfl
        · rfl

theorem State.kick_keeps (h : s.seq.state = .idle → ∀ o ∈ s.seq.queue, o.ref = none) :
    s.keeps s.kick [.seq, .drv, .ret, .ctr] := by
  have hreports := State.kick_reports (s := s) fun hs o ho => Order.takesBack_of_ref (h hs o ho)
  have hline : s.kick.line = s.line := by
    unfold State.kick
    split
    case isTrue hidle =>
      refine (State.runOrders_line _ _ ?_).trans (by simp)
      rw [State.enter_queue]
      exact h hidle.1
    case isFalse => rfl
  intro p hp
  by_cases hl : p = .line
  · subst hl
    exact hline
  · exact hreports.keeps p (by simp_all)

/-! ### What the sequencer reads (R72, R73, R78) -/

/-- Two states alike to the sequencer: it reads no text, and the count of checks dropped is left open. -/
structure State.alike (s t : State) : Prop where
  seq : t.seq = s.seq
  drv : t.drv = s.drv
  ret : t.ret = s.ret
  set : t.set = s.set
  tab : t.tab = s.tab
  get : ∀ k, k ≠ Counter.checksDropped → t.ctr.get k = s.ctr.get k

theorem State.alike.trans (h : s.alike t) (k : t.alike u) : s.alike u :=
  ⟨k.seq.trans h.seq, k.drv.trans h.drv, k.ret.trans h.ret, k.set.trans h.set, k.tab.trans h.tab,
    fun c hc => (k.get c hc).trans (h.get c hc)⟩

theorem State.alike.symm (h : s.alike t) : t.alike s :=
  ⟨h.seq.symm, h.drv.symm, h.ret.symm, h.set.symm, h.tab.symm, fun c hc => (h.get c hc).symm⟩

theorem State.alike.raise (h : s.alike t) (k : Counter) (n : Nat) : (s.raise k n).alike (t.raise k n) := by
  refine ⟨h.seq, h.drv, h.ret, h.set, h.tab, fun c hc => ?_⟩
  by_cases hck : c = k
  · subst hck
    simp only [State.raise, Counters.raise, Counters.get_put_self, h.get c hc]
  · rw [State.raise_get _ hck, State.raise_get _ hck, h.get c hc]

theorem State.alike.event (h : s.alike t) (e : Event) : (s.event e).alike (t.event e) := by
  unfold State.event
  rw [h.ret]
  split
  · exact ⟨h.seq, h.drv, rfl, h.set, h.tab, h.get⟩
  · exact ⟨h.seq, h.drv, rfl, h.set, h.tab, (h.raise .eventsLost 1).get⟩

theorem State.alike.withSeq (h : s.alike t) {q r : Sequencer} (hq : r = q) :
    State.alike { s with seq := q } { t with seq := r } :=
  ⟨hq, h.drv, h.ret, h.set, h.tab, h.get⟩

theorem State.alike.enter (h : s.alike t) (st : MechState) (r : Reason) : (s.enter st r).alike (t.enter st r) := by
  unfold State.enter
  rw [h.seq, h.drv]
  split
  · exact h
  · refine State.alike.event ?_ _
    exact ⟨rfl, rfl, h.ret, h.set, h.tab, h.get⟩

theorem State.alike.popOrder (h : s.alike t) : s.popOrder.alike t.popOrder := h.withSeq (by rw [h.seq])

/-- A change of the line record alone. -/
theorem State.alike_line (s : State) (l : LineRecord) : s.alike { s with line := l } :=
  ⟨rfl, rfl, rfl, rfl, rfl, fun _ _ => rfl⟩

theorem State.reportStrike_alike (s : State) (ref : Option Word) (num : Word) (f : StrikeStatus → StrikeStatus) :
    s.alike (s.reportStrike ref num f) := by
  rw [State.reportStrike_eq]
  exact s.alike_line _

theorem State.reportInFlight_alike (s : State) (o : Order) : s.alike (s.reportInFlight o) := by
  unfold State.reportInFlight
  split
  · exact s.reportStrike_alike _ _ _
  · exact s.alike_line _

theorem State.alike.startStep (h : s.alike t) (o : Order) : t.startStep o = s.startStep o := by
  have hcond : t.wheelCondition = s.wheelCondition := by
    have hactive : t.active .wheelMap = s.active .wheelMap := State.active_congr h.tab h.set (by rw [h.seq]) _
    unfold State.wheelCondition
    rw [hactive, h.seq, h.set]
  have hentry (c : Byte) : t.wheelEntry c = s.wheelEntry c := by
    simp only [State.wheelEntry, State.activeBase, State.active, State.selection, h.seq, h.tab]
  cases o with
  | strike code p role ref num =>
    simp only [State.startStep, hcond, hentry, State.strikeLevel, h.set]
  | lift pt w p l ref => simp only [State.startStep, h.seq]
  | move p => simp only [State.startStep, h.seq]
  | index c => rfl
  | indexPage => simp only [State.startStep, State.indexHalfLines, State.pageHalfLines, h.seq, h.set]

theorem State.alike.startPosition (h : s.alike t) (o : Order) (petal level : Nat) :
    (s.startPosition o petal level).alike (t.startPosition o petal level) := by
  unfold State.startPosition
  refine ((State.reportInFlight_alike _ o).symm.trans (h.withSeq ?_)).trans (State.reportInFlight_alike _ o)
  simp only [State.positionMicros, State.liftTime, h.seq]

theorem State.skipOrder_alike {o : Order} (ho : o.takesBack = false) (h : s.alike t) :
    (s.skipOrder o).alike (t.skipOrder o) := by
  cases o with
  | strike code p role ref num =>
    exact ((State.reportStrike_alike _ _ _ _).symm.trans (h.popOrder.raise _ _)).trans (State.reportStrike_alike _ _ _ _)
  | lift pt w p l ref =>
    obtain rfl : ref = none := Option.isNone_iff_eq_none.mp (by simpa [Order.takesBack] using ho)
    exact h.popOrder.event _
  | move p => exact h.popOrder.raise _ _
  | index c => exact h.popOrder.raise _ _
  | indexPage => exact h.popOrder.raise _ _

theorem State.alike.enterWheelWait (h : s.alike t) (c : WheelCondition) : (s.enterWheelWait c).alike (t.enterWheelWait c) := by
  cases c with
  | ready => exact h
  | mismatch =>
    simp only [State.enterWheelWait, h.set, h.seq]
    exact (h.enter _ _).event _
  | noMap =>
    simp only [State.enterWheelWait, h.seq]
    exact (h.enter _ _).event _

theorem State.alike.runOrders (n : Nat) : ∀ {s t : State}, s.alike t → (∀ o ∈ s.seq.queue, o.takesBack = false) →
    (State.runOrders n s).alike (State.runOrders n t) := by
  induction n with
  | zero => exact fun h _ => h
  | succ n ih =>
    intro s t h hall
    unfold State.runOrders
    rw [h.seq]
    split
    · exact State.alike.enter (h.withSeq rfl) _ _
    · split
      · exact h.enter _ _
      case h_2 o rest hqueue =>
        have ho : o.takesBack = false := hall o (by rw [hqueue]; exact List.mem_cons_self)
        have hrest : ∀ x ∈ s.popOrder.seq.queue, x.takesBack = false := fun x hx => hall x (List.mem_of_mem_tail hx)
        rw [h.startStep o]
        split
        · exact h.startPosition _ _ _
        · exact ih (State.skipOrder_alike ho h) (by rw [State.skipOrder_queue ho]; exact hrest)
        · exact h.enterWheelWait _
        · exact ih h.popOrder hrest
        · exact h.withSeq rfl
        · exact h.withSeq rfl

theorem State.alike.kick (h : s.alike t) (hall : s.seq.state = .idle → ∀ o ∈ s.seq.queue, o.takesBack = false) :
    s.kick.alike t.kick := by
  unfold State.kick
  rw [h.seq]
  split
  case isTrue hidle =>
    have henter := h.enter .running .none
    unfold State.runQueue
    rw [henter.seq]
    exact State.alike.runOrders _ henter (by rw [State.enter_queue]; exact hall hidle.1)
  case isFalse => exact h

/-! ### The words of a line that ends (R113) -/

/-- Every word of the table has left the text, and waits only for its lookup (R113). -/
def Spelling.detached (p : Spelling) : Prop := ∀ w ∈ p.words, w.detached = true

theorem State.runSweep_detached (k : Nat) : ∀ {s : State}, s.spell.detached → (State.runSweep k s).spell.detached := by
  induction k with
  | zero => exact fun h => h
  | succ k ih =>
    intro s h
    unfold State.runSweep
    dsimp only
    split
    · exact h
    · split
      · exact h
      case h_2 w hw =>
        have hdue : (w.complete && !w.detached && decide (w.verdict = .unchecked)) = false := by
          rw [h w (List.mem_of_find?_eq_some hw)]
          simp
        rw [hdue]
        exact ih (s := { s with spell := { s.spell with sweep := recordAfter _ s.spell.words } }) h

theorem State.spellOn_detached (h : s.spell.detached) : s.spellOn.spell.detached := by
  unfold State.spellOn
  refine State.runSweep_detached _ ?_
  unfold State.pumpEngine
  split
  · exact h
  · exact h

/-- With no text the Spelling Unit forms no word (R110, R112). -/
theorem State.respell_detached (htext : s.wordText = []) (h : s.spell.detached) : s.respell.spell.detached := by
  have hsegments : s.segments = [] := by
    rw [State.segments, htext, segmentFrom]
    split <;> rfl
  rw [State.respell, hsegments]
  refine State.spellOn_detached fun w hw => h w ?_
  have hkept : w ∈ (s.spell.keepWords fun w => w.detached || ([] : List Word).contains w.num).words := by
    simpa using hw
  exact List.mem_of_mem_filter hkept

/-- The words of the line are done with, its break marks too (R113). -/
theorem State.spellLineEnd_spell (s : State) : s.spellLineEnd.spell.detached ∧ s.spellLineEnd.spell.marks = [] ∧
    s.spellLineEnd.spell.users = s.spell.users := by
  unfold State.spellLineEnd State.retireWords
  refine ⟨State.spellOn_detached fun w hw => ?_, ?_, ?_⟩
  · simpa [Spelling.keepWords] using (List.mem_filter.mp hw).2
  · simp [Spelling.keepWords]
  · simpa [Spelling.keepWords, State.completeWords] using (State.foldl_checkWord_lists _ _).1

theorem State.completeWords_get (s : State) (within : SpellWord → Bool) {k : Counter} (hk : k ≠ .checksDropped) :
    (s.completeWords within).ctr.get k = s.ctr.get k :=
  State.foldl_checkWord_get _ _ hk

theorem State.retireWords_get (s : State) (within : SpellWord → Bool) {k : Counter} (hk : k ≠ .checksDropped) :
    (s.retireWords within).ctr.get k = s.ctr.get k :=
  State.spellOn_get _ hk

theorem State.spellLineEnd_get (s : State) {k : Counter} (hk : k ≠ .checksDropped) :
    s.spellLineEnd.ctr.get k = s.ctr.get k :=
  (State.retireWords_get _ _ hk).trans (s.completeWords_get _ hk)

/-! ### The boundary of a line end (R26, R34) -/

/-- The Composer once the pending settings are in force, before what follows from them. -/
def Composer.settled (c : Composer) : Composer := { c with
    source := c.later.source.getD c.source
    mode := c.later.mode.getD c.mode
    pitch := c.later.pitch.getD c.pitch
    left := c.later.left.getD c.left
    right := c.later.right.getD c.right
    later := .none }

/-- The boundary takes the Composer from DIRECT to LINE (R26). -/
abbrev Composer.entersLine (c : Composer) : Prop := c.modeInEffect = .direct ∧ c.settled.modeInEffect = .line

theorem Composer.applyPending_eq (c : Composer) (j : Justify) : c.applyPending j =
    { c.settled with
      recs := if c.entersLine then [] else c.recs
      cursor := if c.entersLine then 0 else c.cursor
      choice := if c.entersLine then j else c.choice
      logical := if c.settled.modeInEffect = .line then c.settled.left else c.logical
      textWait := if c.settled.source = .localKeys then none else c.textWait } := by
  have hbuilt : c.applyPending j =
      (let b := if c.entersLine then { c.settled with recs := [], cursor := 0, choice := j } else c.settled
       let b := if b.modeInEffect = .line then { b with logical := b.left } else b
       if b.source = .localKeys then { b with textWait := none } else b) := by
    unfold Composer.applyPending
    dsimp only
    split
    case h_1 h => exact (if_pos h).symm
    case h_2 h =>
      refine Eq.symm (if_neg ?_)
      intro hl
      exact absurd (h.symm.trans hl) (by decide)
  rw [hbuilt]
  dsimp only
  by_cases hf : c.entersLine
  · simp only [if_pos hf]
    by_cases hl : c.settled.modeInEffect = .line
    · simp only [if_pos hl, show ({ c.settled with recs := [], cursor := 0, choice := j } : Composer).modeInEffect = c.settled.modeInEffect from rfl]
      split_ifs <;> rfl
    · exact absurd hf.2 hl
  · simp only [if_neg hf]
    by_cases hl : c.settled.modeInEffect = .line
    · simp only [if_pos hl]
      split_ifs <;> rfl
    · simp only [if_neg hl]
      split_ifs <;> rfl

theorem Composer.applyPending_flags (c : Composer) (j : Justify) (f : LineFlags) :
    ({ c with flags := f } : Composer).applyPending j = { c.applyPending j with flags := f } := by
  rw [Composer.applyPending_eq, Composer.applyPending_eq]
  rfl
theorem Composer.applyPending_override (c : Composer) (j : Justify) : (c.applyPending j).override = c.override := by
  rw [Composer.applyPending_eq]
  rfl

/-- A composition that LINE opens with is empty (R24). -/
theorem Composer.applyPending_cursor {c : Composer} {j : Justify} (hm : c.modeInEffect = .direct)
    (h : (c.applyPending j).modeInEffect = .line) : (c.applyPending j).cursor = 0 := by
  rw [Composer.applyPending_eq] at h ⊢
  exact if_pos ⟨hm, h⟩

/-- A line boundary reached: the settings, the window, and the words where the record changes (R26, R133). -/
theorem State.reachBoundary_respells (s : State) :
    State.respells { s with comp := s.comp.applyPending s.set.justify, disp := { s.disp with window := 0 } }
      s.reachBoundary := by
  unfold State.reachBoundary
  dsimp only
  split
  · exact State.respell_respells _
  · exact .refl _

theorem State.reachBoundary_detached (hm : s.comp.modeInEffect = .direct) (hline : s.line.entries = [])
    (h : s.spell.detached) : s.reachBoundary.spell.detached := by
  unfold State.reachBoundary
  dsimp only
  split
  case isFalse => exact h
  case isTrue =>
    refine State.respell_detached ?_ h
    unfold State.wordText
    dsimp only
    cases hafter : (s.comp.applyPending s.set.justify).modeInEffect with
    | direct => rw [LineRecord.shown, hline]; rfl
    | line => rw [Composer.applyPending_recs_nil hafter hm]; rfl

/-! ### A line end in DIRECT (R34, R95, R113) -/

theorem State.moveWindow_at_start (hc : s.comp.modeInEffect = .line → s.comp.cursor = 0) (hline : s.line.entries = [])
    (hw : s.disp.window = 0) : s.moveWindow = s := by
  have hindex : s.cursorIndex = 0 := by
    unfold State.cursorIndex
    cases hm : s.comp.modeInEffect with
    | direct => rw [LineRecord.shown, hline]; rfl
    | line => exact hc hm
  rw [State.moveWindow, hindex, hw, show windowFor 0 0 = 0 from rfl, ← hw]

/-- The orders of a line end come to the queue of a line whose entries have left it (R65, R95). -/
def State.closing (s : State) (k : LineEnd) : State := { s with
  line := { s.line with entries := [], dropped := 0 }
  seq := { s.seq with
    queue := s.seq.queue.map Order.dropRef ++ k.orders (s.comp.applyPending s.set.justify).left s.set.lineSpacing } }

/-- What a line end in DIRECT leaves (R34, R95, R113). -/
structure State.endsLine (s t : State) (k : LineEnd) : Prop where
  alike : State.alike (if k.returns then (s.closing k).kick.raise .lines else (s.closing k).kick) t
  line : t.line = { s.line with entries := [], dropped := 0 }
  words : t.spell.detached
  marks : t.spell.marks = []
  users : t.spell.users = s.spell.users
  comp : t.comp = { s.comp.applyPending s.set.justify with
    flags := .clear
    logical := if k.returns then (s.comp.applyPending s.set.justify).left
      else (s.comp.applyPending s.set.justify).logical }
  window : t.disp.window = 0
  keeps : s.keeps t [.comp, .line, .seq, .ret, .ctr, .drv, .spell, .window]

theorem Order.dropRef_takesBack (o : Order) : o.dropRef.takesBack = false := by
  cases o <;> rfl

theorem LineEnd.orders_takesBack (k : LineEnd) (left spacing : Nat) : ∀ o ∈ k.orders left spacing, o.takesBack = false := by
  cases k <;> simp [LineEnd.orders, Order.takesBack]

theorem State.closing_takesBack (s : State) (k : LineEnd) : ∀ o ∈ (s.closing k).seq.queue, o.takesBack = false := by
  intro o ho
  have ho : o ∈ s.seq.queue.map Order.dropRef ++
      k.orders (s.comp.applyPending s.set.justify).left s.set.lineSpacing := ho
  rcases List.mem_append.mp ho with ho | ho
  · obtain ⟨x, -, rfl⟩ := List.mem_map.mp ho
    exact x.dropRef_takesBack
  · exact k.orders_takesBack _ _ o ho

/-- The boundary of the line end reached, its orders not yet in the queue (R26, R34). -/
def State.lineClosed (s : State) : State :=
  let x := s.spellLineEnd.emptyRecord
  State.reachBoundary { x with comp := { x.comp with flags := .clear } }

/-- The orders of the line end in the queue (R34). -/
def State.lineOrdered (s : State) (k : LineEnd) : State :=
  s.lineClosed.appendOrders (k.orders s.lineClosed.comp.left s.lineClosed.set.lineSpacing)

theorem State.lineEnd_eq (s : State) (k : LineEnd) : s.lineEnd k =
    State.moveWindow (if k.returns then
      State.raise { s.lineOrdered k with comp := { (s.lineOrdered k).comp with logical := (s.lineOrdered k).comp.left } } .lines
    else s.lineOrdered k) := by
  simp only [State.lineEnd, State.lineOrdered, State.lineClosed]

theorem State.lineClosed_spec (hm : s.comp.modeInEffect = .direct) :
    s.lineClosed.line = { s.line with entries := [], dropped := 0 } ∧
      s.lineClosed.comp = { s.comp.applyPending s.set.justify with flags := .clear } ∧
      s.lineClosed.spell.detached ∧ s.lineClosed.spell.marks = [] ∧ s.lineClosed.spell.users = s.spell.users ∧
      s.lineClosed.disp.window = 0 ∧ (∀ k, k ≠ Counter.checksDropped → s.lineClosed.ctr.get k = s.ctr.get k) ∧
      s.lineClosed.seq = { s.seq with queue := s.seq.queue.map Order.dropRef } ∧
      s.keeps s.lineClosed [.comp, .line, .seq, .ctr, .spell, .window] := by
  obtain ⟨hdetached, hmarks, husers⟩ := s.spellLineEnd_spell
  have hclosed : s.lineClosed =
      State.reachBoundary { s.spellLineEnd.emptyRecord with comp := { s.comp with flags := .clear } } := by
    have hcomp : s.spellLineEnd.emptyRecord.comp = s.comp := by simp
    simp only [State.lineClosed, hcomp]
  rw [hclosed]
  set v : State := { s.spellLineEnd.emptyRecord with comp := { s.comp with flags := .clear } } with hv
  have hvset : v.set = s.set := by simp [hv]
  have hvspell : v.spell = s.spellLineEnd.spell := rfl
  have hvctr : v.ctr = s.spellLineEnd.ctr := rfl
  have hvline : v.line = { s.line with entries := [], dropped := 0 } := by simp [hv, State.emptyRecord]
  have hvseq : v.seq = { s.seq with queue := s.seq.queue.map Order.dropRef } := by
    simp [hv, State.emptyRecord, dropRefs]
  have hsv : s.keeps v [.comp, .line, .seq, .ctr, .spell] := fun p hp => by cases p <;> simp_all [State.same]
  have hreach := v.reachBoundary_respells
  have hentries : v.reachBoundary.line.entries = [] := by
    have hplain := hreach.entries
    rw [show plain v.line.entries = [] by rw [hvline]; rfl] at hplain
    exact List.map_eq_nil_iff.mp hplain
  refine ⟨?_, ?_, ?_, ?_, ?_, ?_, fun k hk => ?_, ?_, ?_⟩
  · have hline := hreach.line
    rw [hentries] at hline
    exact hline.trans (by rw [show ({ v with comp := v.comp.applyPending v.set.justify, disp := { v.disp with window := 0 } } : State).line = v.line from rfl, hvline])
  · refine v.reachBoundary_comp.trans ?_
    rw [hvset]
    exact s.comp.applyPending_flags _ _
  · exact State.reachBoundary_detached (s := v) hm (by rw [hvline]) (by rw [hvspell]; exact hdetached)
  · exact hreach.marks.trans hmarks
  · exact hreach.users.trans husers
  · exact congrArg Display.window v.reachBoundary_window
  · exact (hreach.get k hk).trans (s.spellLineEnd_get hk)
  · exact (v.reachBoundary_frame).2.2.2.2.2.2.2.2.2.2.2.1.trans hvseq
  · exact State.keeps_trans (State.keeps_mono hsv (by decide)) (State.keeps_mono v.keeps_reachBoundary (by decide))

theorem State.lineEnd_endsLine (hm : s.comp.modeInEffect = .direct) (k : LineEnd) : s.endsLine (s.lineEnd k) k := by
  obtain ⟨hline, hcomp, hdetached, hmarks, husers, hwindow, hget, hseq, hkeeps⟩ := State.lineClosed_spec hm
  set x := s.lineClosed with hx
  set c := s.comp.applyPending s.set.justify with hc
  have hset : x.set = s.set := hkeeps .set (by decide)
  have hleft : x.comp.left = c.left := by rw [hcomp]
  set y : State := { x with seq := { x.seq with queue := x.seq.queue ++ k.orders x.comp.left x.set.lineSpacing } } with hy
  have hyseq : y.seq = (s.closing k).seq := by
    simp only [hy, hseq, hleft, hset, hc]
    rfl
  have hback : ∀ o ∈ y.seq.queue, o.takesBack = false := by
    rw [hyseq]
    exact s.closing_takesBack k
  have hykeeps : s.keeps y [.comp, .line, .seq, .ctr, .spell, .window] :=
    State.keeps_trans hkeeps (State.keeps_mono (x.keeps_seq _) (by decide))
  have hkick := State.kick_reports (s := y) fun _ => hback
  have halike : (s.closing k).kick.alike y.kick := by
    refine State.alike.kick ?_ fun _ => s.closing_takesBack k
    exact ⟨hyseq, hykeeps .drv (by decide), hykeeps .ret (by decide), hset, hkeeps.tab (by decide) (by decide) (by decide), hget⟩
  have hkicked : s.keeps y.kick [.comp, .line, .seq, .ret, .ctr, .drv, .spell, .window] :=
    State.keeps_trans (State.keeps_mono hykeeps (by decide)) (State.keeps_mono hkick.keeps (by decide))
  have hkline : y.kick.line = { s.line with entries := [], dropped := 0 } := by
    have hnil : y.kick.line.entries = [] := List.length_eq_zero_iff.mp (by
      rw [hkick.length, show y.line = x.line from rfl, hline]
      rfl)
    rw [hkick.line, hnil, show y.line = x.line from rfl, hline]
  have hkcomp : y.kick.comp = { c with flags := .clear } := (hkick.keeps .comp (by decide)).trans hcomp
  have hkspell : y.kick.spell = x.spell := hkick.keeps .spell (by decide)
  have hkwindow : y.kick.disp.window = 0 := (hkick.keeps .window (by decide)).trans hwindow
  have hcursor {z : State} {l : Nat} (hz : z.comp = { c with flags := .clear, logical := l }) (hline : z.comp.modeInEffect = .line) :
      z.comp.cursor = 0 := by
    rw [hz] at hline ⊢
    exact Composer.applyPending_cursor hm hline
  have hends {z : State} {l : Nat} (hz : z = { y.kick with comp := { c with flags := .clear, logical := l }, ctr := z.ctr }) :
      z.moveWindow = z := by
    refine State.moveWindow_at_start (hcursor (by rw [hz])) ?_ ?_
    · rw [hz, hkline]
    · rw [hz, hkwindow]
  have hordered : s.lineOrdered k = y.kick := rfl
  generalize y.kick = w at *
  cases hr : k.returns with
  | false =>
    have hend : s.lineEnd k = w := by
      have hmove := hends (z := w) (l := c.logical) (by rw [← hkcomp])
      rw [State.lineEnd_eq, hr, if_neg Bool.false_ne_true, hordered, hmove]
    rw [hend]
    exact ⟨by rw [hr]; exact halike, hkline, hkspell ▸ hdetached, by rw [hkspell, hmarks], by rw [hkspell, husers],
      by rw [hkcomp, hr]; rfl, hkwindow, hkicked⟩
  | true =>
    set z : State := State.raise { w with comp := { w.comp with logical := w.comp.left } } .lines with hz
    have hzcomp : z.comp = { c with flags := .clear, logical := c.left } := by
      rw [hz, State.raise, hkcomp]
    have hend : s.lineEnd k = z := by
      have hmove := hends (z := z) (l := c.left) (by rw [← hzcomp]; rfl)
      rw [State.lineEnd_eq, hr, if_pos rfl, hordered, ← hz, hmove]
    have hcz : w.keeps z [.comp, .ctr] := State.keeps_trans
      (State.keeps_mono (w.keeps_comp { w.comp with logical := w.comp.left }) (by decide))
      (State.keeps_mono (State.keeps_ctr _ _) (by decide))
    have hzspell : z.spell = x.spell := (hcz .spell (by decide)).trans hkspell
    have hzalike : (w.raise .lines).alike z := ⟨hcz .seq (by decide), hcz .drv (by decide), hcz .ret (by decide),
      hcz .set (by decide), hcz.tab (by decide) (by decide) (by decide), fun _ _ => rfl⟩
    rw [hend]
    refine ⟨?_, (hcz .line (by decide)).trans hkline, hzspell ▸ hdetached, by rw [hzspell, hmarks], by rw [hzspell, husers],
      by rw [hzcomp, hr]; rfl, (hcz .window (by decide)).trans hkwindow,
      State.keeps_trans hkicked (State.keeps_mono hcz (by decide))⟩
    rw [hr]
    exact (halike.raise .lines 1).trans hzalike

/-- A remote code that waits stays at the front (R23, R28). -/
theorem exec_waitsText {code : Byte} {rest : List Byte} {c : WaitCause} (h : s.textTurn code rest)
    (he : s.evalText code = .waits s c) : exec (textRowOf code) s = .next (s.waitsText c) := by
  have hstore : s.comp.storeTextWait c = { s.comp with textWait := some c } := by
    unfold Composer.storeTextWait
    split
    case h_1 => rfl
    case h_2 hl => exact absurd (h.2.1.symm.trans hl) (by decide)
  rw [exec_textRowOf h, he]
  show Host.Outcome.next (State.formImage { s with comp := s.comp.storeTextWait c }) = _
  rw [hstore]
  rfl

theorem State.withRoom_of_room {n : Nat} {f : State → State} (h : s.seq.queue.length + n ≤ 64) :
    s.withRoom n f = .taken (f s) := if_pos (decide_eq_true h)

theorem State.withRoom_of_full {n : Nat} {f : State → State} (h : 64 < s.seq.queue.length + n) :
    s.withRoom n f = .waits s .room := if_neg fun hr => absurd (of_decide_eq_true hr) h.not_ge

theorem State.endsLine.addsNoWait {k : LineEnd} (h : s.endsLine t k) : s.addsNoWait t := by
  rw [State.addsNoWait, h.comp]
  exact s.comp.applyPending_waits s.set.justify

/-- What O36 says of a line end that has been taken, but for what takes it. -/
structure State.linesUp (s t : State) (k : LineEnd) (override : Bool) : Prop where
  alike : State.alike (if k.returns then (s.closing k).kick.raise .lines else (s.closing k).kick) t
  entries : t.line.entries = []
  dropped : t.line.dropped = 0
  nextSeq : t.line.nextSeq = s.line.nextSeq
  words : ∀ w ∈ t.spell.words, w.detached = true
  marks : t.spell.marks = []
  users : t.spell.users = s.spell.users
  comp : t.comp = { s.comp.applyPending s.set.justify with
    flags := .clear
    logical := if k.returns then (s.comp.applyPending s.set.justify).left
      else (s.comp.applyPending s.set.justify).logical
    override := override
    textWait := none }
  window : t.disp.window = 0
  keeps : s.keeps t [.keyq, .intake, .txt, .comp, .line, .seq, .ret, .ctr, .drv, .spell, .window, .image]
  follows : s.imageFollows t

/-- The line end taken, whatever offered it. -/
theorem State.endsLine.linesUp {k : LineEnd} {b : Bool} (h : s.endsLine u k) (ht : s.comp.textWait = none)
    (hk : u.keeps t [.keyq, .intake, .txt, .comp, .line, .image]) (hcomp : t.comp = { u.comp with override := b })
    (hline : ∃ r, t.line = { u.line with run := r }) (hf : u.imageFollows t) : s.linesUp t k b := by
  obtain ⟨r, hline⟩ := hline
  have hspell : t.spell = u.spell := hk .spell (by decide)
  obtain ⟨hcurrent, hslot⟩ := h.keeps .image (by decide)
  have hwait : (s.comp.applyPending s.set.justify).textWait = none := (s.comp.applyPending_waits s.set.justify).2 ht
  have halike : u.alike t := ⟨hk .seq (by decide), hk .drv (by decide), hk .ret (by decide), hk .set (by decide), hk.tab (by decide) (by decide) (by decide),
    fun c _ => congrArg (Counters.get · c) (hk .ctr (by decide))⟩
  refine ⟨h.alike.trans halike, by rw [hline, h.line], by rw [hline, h.line], by rw [hline, h.line], ?_, by rw [hspell, h.marks],
    by rw [hspell, h.users], ?_, (hk .window (by decide)).trans h.window,
    State.keeps_trans (State.keeps_mono h.keeps (by decide)) (State.keeps_mono hk (by decide)), ?_⟩
  · rw [hspell]
    exact h.words
  · rw [hcomp, h.comp, ← hwait]
  · rwa [State.imageFollows, hcurrent, hslot] at hf

theorem State.linesUp.sequencer {k : LineEnd} {b : Bool} (h : s.linesUp t k b) :
    t.seq = (s.closing k).kick.seq ∧ t.ret = (s.closing k).kick.ret ∧ t.drv = (s.closing k).kick.drv ∧
      ∀ c, c ≠ Counter.checksDropped →
        t.ctr.get c = (if k.returns then (s.closing k).kick.ctr.raise .lines 1 else (s.closing k).kick.ctr).get c := by
  have halike := h.alike
  cases hr : k.returns with
  | false =>
    rw [hr] at halike
    exact ⟨halike.seq, halike.ret, halike.drv, halike.get⟩
  | true =>
    rw [hr] at halike
    exact ⟨halike.seq, halike.ret, halike.drv, halike.get⟩

/-- A line end waits for room or is taken, from a key or from the remote text (R28, R34). -/
def State.lineEnds (s : State) (i : Instr) (key : Option KeyAction) (k : LineEnd) : Prop :=
  (64 < s.seq.queue.length + k.places →
    exec i s = .next (if key.isSome then s.waitsKey .room else s.waitsText .room)) ∧
  (s.seq.queue.length + k.places ≤ 64 → ∃ t, exec i s = .next t ∧
    s.linesUp t k (if key = none ∨ i = .returnKey then s.comp.override else false) ∧
    (∀ a, key = some a → t.keyq = s.dropSelected.keyq ∧ t.intake = s.dropSelected.intake ∧ t.txt = s.txt) ∧
    (key = none → t.keyq = s.keyq ∧ t.intake = s.intake ∧ s.tookText t s.txt.queue.tail))

theorem State.lineEnds_key {i : Instr} {f : Func} {k : LineEnd} (h : s.turnOf (.func f)) (hi : rowOf true (.func f) = some i)
    (hr : i = .returnKey ↔ f = .returnKey) (hl : s.comp.source = .localKeys ∨ KeyAction.remoteAllowed (.func f) = true)
    (he : s.evalFunc true f = s.evalLineEnd k) (hm : s.comp.modeInEffect = .direct) :
    s.lineEnds i (some (.func f)) k := by
  have hkey := (State.evalKey_func (paper := true) hl).trans he
  refine ⟨fun hfull => exec_waits h hi (hkey.trans (State.withRoom_of_full hfull)), fun hroom => ?_⟩
  have hends := State.lineEnd_endsLine hm k
  have hover : (s.lineEnd k).comp.override = s.comp.override := by
    rw [hends.comp]
    exact s.comp.applyPending_override _
  obtain ⟨t, hx, htook, ht⟩ := exec_takes h hi (hkey.trans (State.withRoom_of_room hroom)) hends.addsNoWait fun _ => hover
  obtain ⟨hkeyq, hintake, -⟩ := htook
  refine ⟨t, hx, hends.linesUp h.1.2.2 (State.keeps_mono ht.keeps (by decide)) ?_ ⟨_, ht.line⟩ ht.follows, fun a _ => ⟨hkeyq,
    hintake, (ht.keeps .txt (by decide)).trans (hends.keeps .txt (by decide))⟩, nofun⟩
  rw [ht.comp, hover]
  by_cases hf : f = .returnKey
  · rw [if_pos (.inr (hr.mpr hf)), hf]
    rfl
  · rw [if_neg (not_or.mpr ⟨nofun, mt hr.mp hf⟩), decide_eq_false fun ha => hf (KeyAction.func.inj ha), Bool.false_and]

theorem State.lineEnds_text {code : Byte} {rest : List Byte} {k : LineEnd} (h : s.textTurn code rest)
    (he : s.evalText code = s.evalLineEnd k) (hm : s.comp.modeInEffect = .direct) : s.lineEnds (textRowOf code) none k := by
  refine ⟨fun hfull => exec_waitsText h (he.trans (State.withRoom_of_full hfull)), fun hroom => ?_⟩
  have hends := State.lineEnd_endsLine hm k
  obtain ⟨t, hx, htook, hcomp, hk, himg⟩ := exec_takesText h (he.trans (State.withRoom_of_room hroom)) hends.addsNoWait
  have hover : (s.lineEnd k).comp.override = s.comp.override := by
    rw [hends.comp]
    exact s.comp.applyPending_override _
  refine ⟨t, hx, hends.linesUp h.1.2.2 (State.keeps_mono hk (by decide)) ?_ ⟨_, hk .line (by decide)⟩ himg, nofun,
    fun _ => ⟨?_, ?_, ?_⟩⟩
  · rw [if_pos (.inl rfl), hcomp, ← hover]
  · exact (hk .keyq (by decide)).trans (hends.keeps .keyq (by decide))
  · exact (hk .intake (by decide)).trans (hends.keeps .intake (by decide))
  · rw [h.2.2.2]
    exact htook

theorem State.evalPaper_direct (hm : s.comp.modeInEffect = .direct) (n : Int) : s.evalPaper n = s.evalLineEnd (.paper n) := by
  rw [State.evalPaper, hm]

/-- A paper key in LINE appends its INDEX (R37). -/
theorem exec_paper_line {i : Instr} {f : Func} {count : Int} (h : s.turnOf (.func f)) (hi : rowOf true (.func f) = some i)
    (hf : f ≠ .returnKey) (he : s.evalFunc true f = s.evalPaper count) (hsource : s.comp.source = .localKeys)
    (hmode : s.comp.mode = .line) :
    (s.comp.outgoing.isSome → exec i s = .next (s.waitsKey .outgoing)) ∧
    (s.comp.outgoing = none → 64 ≤ s.seq.queue.length → exec i s = .next (s.waitsKey .room)) ∧
    (s.comp.outgoing = none → s.seq.queue.length < 64 → (s.seq.state = .idle → s.seq.queue = []) →
      let u := State.kick { s with seq := { s.seq with queue := s.seq.queue ++ [.index count] } }
      ∃ t, exec i s = .next t ∧ s.tookKey t (.func f) ∧ t.seq = u.seq ∧ t.ret = u.ret ∧ t.drv = u.drv ∧ t.ctr = u.ctr ∧
        t.comp = { s.comp with override := false } ∧ t.line = { s.line with run := none } ∧
        s.keeps t [.keyq, .intake, .comp, .line, .seq, .ret, .drv, .ctr, .image] ∧ s.imageFollows t) := by
  have hm : s.comp.modeInEffect = .line := (Composer.modeInEffect_local hsource).trans hmode
  have heval : s.evalFunc true f = if s.comp.outgoing.isSome then .waits s .outgoing
      else s.withRoom 1 (fun s => s.appendOrders [.index count]) := by
    rw [he, State.evalPaper, hm]
  have hkey := State.evalKey_func (s := s) (f := f) (paper := true) (.inl hsource)
  refine ⟨fun hout => exec_waits h hi (hkey.trans (heval.trans (if_pos hout))), fun hno hfull => ?_, fun hno hroom hidle => ?_⟩
  · exact exec_waits h hi (hkey.trans (heval.trans ((if_neg (by rw [hno]; decide)).trans
      (State.withRoom_of_full (Nat.lt_succ_of_le hfull)))))
  · intro u
    have hu : s.evalFunc true f = .taken u := heval.trans ((if_neg (by rw [hno]; decide)).trans
      (State.withRoom_of_room (Nat.succ_le_of_lt hroom)))
    have hreports : s.keeps u [.seq, .ret, .drv, .ctr] := by
      refine State.keeps_trans (State.keeps_mono (s.keeps_seq _) (by decide))
        (State.keeps_mono (State.kick_keeps fun hst o ho => ?_) (by decide))
      rw [show s.seq.queue = [] from hidle hst] at ho
      rw [List.mem_singleton.mp ho]
      rfl
    obtain ⟨t, hx, htook, hcomp, htakes, hk, himg⟩ := exec_takes_keeping h hi (.inl hsource) hf hu
      (State.addsNoWait.of_comp (hreports .comp (by decide))) hreports (by decide)
    refine ⟨t, hx, htook, htakes.keeps .seq (by decide), htakes.keeps .ret (by decide), htakes.keeps .drv (by decide),
      htakes.keeps .ctr (by decide), ?_, ?_, State.keeps_mono hk (by decide), himg⟩
    · rw [hcomp, show u.comp = s.comp from hreports .comp (by decide)]
    · rw [htakes.line, show u.line = s.line from hreports .line (by decide)]

/-- Settles O36: every line end is one row of the table of `LineEnd`, from a key or from the remote text. -/
theorem directLineEndsCloseTheLine : Obligations.DirectLineEndsCloseTheLine := by
  refine ⟨fun s i key orders returns hm hcase hturn => ?_, ?_⟩
  · have hlineEnd : ∃ k : LineEnd, returns = k.returns ∧ orders = (fun l => k.orders l s.set.lineSpacing) ∧
        s.lineEnds i key k := by
      rcases hcase with ⟨rfl, rfl, hl, rfl, rfl⟩ | ⟨rfl, rfl, rfl, rfl⟩ | ⟨rfl, rfl, rfl, rfl⟩ | ⟨rfl, rfl, rfl, rfl⟩ |
        ⟨rfl, rfl, rfl, rfl⟩ | ⟨rfl, rfl, ⟨rest, h⟩, rfl, rfl⟩ | ⟨rfl, rfl, ⟨rest, h⟩, rfl, rfl⟩ | ⟨rfl, rfl, ⟨rest, h⟩, rfl, rfl⟩
      · have he : s.evalFunc true .returnKey = s.evalLineEnd .full := by rw [State.evalFunc, State.evalReturn, hm]
        exact ⟨.full, rfl, rfl, State.lineEnds_key (hturn _ rfl) rfl (by simp) (.inl hl) he hm⟩
      · exact ⟨.paper s.set.lineSpacing, rfl, rfl,
          State.lineEnds_key (hturn _ rfl) rfl (by simp) (.inr rfl) (State.evalPaper_direct hm _) hm⟩
      · exact ⟨.paper (-(s.set.lineSpacing : Int)), rfl, rfl,
          State.lineEnds_key (hturn _ rfl) rfl (by simp) (.inr rfl) (State.evalPaper_direct hm _) hm⟩
      · exact ⟨.paper 1, rfl, rfl,
          State.lineEnds_key (hturn _ rfl) rfl (by simp) (.inr rfl) (State.evalPaper_direct hm _) hm⟩
      · exact ⟨.paper (-1), rfl, rfl,
          State.lineEnds_key (hturn _ rfl) rfl (by simp) (.inr rfl) (State.evalPaper_direct hm _) hm⟩
      · exact ⟨.cr, rfl, rfl, State.lineEnds_text h rfl hm⟩
      · exact ⟨.lf, rfl, rfl, State.lineEnds_text h rfl hm⟩
      · exact ⟨.ff, rfl, rfl, State.lineEnds_text h rfl hm⟩
    obtain ⟨k, rfl, rfl, hfull, hroom⟩ := hlineEnd
    intro c n
    have hn : n = k.places := LineEnd.orders_length _ _ k
    rw [hn]
    refine ⟨hfull, fun hlen => ?_⟩
    obtain ⟨t, hx, hu, hkeys, htext⟩ := hroom hlen
    obtain ⟨hseq, hret, hdrv, hget⟩ := hu.sequencer
    exact ⟨t, hx, hseq, hret, hdrv, hget, hu.entries, hu.dropped, hu.nextSeq, hu.words, hu.marks, hu.users, hu.comp,
      hu.window, hkeys, htext, hu.keeps, hu.follows⟩
  · intro s i f count hcase h hsource hmode
    have hrow : rowOf true (.func f) = some i ∧ f ≠ .returnKey ∧ s.evalFunc true f = s.evalPaper count := by
      simp only [List.mem_cons, List.not_mem_nil, or_false, Prod.mk.injEq] at hcase
      obtain ⟨rfl, rfl, rfl⟩ | ⟨rfl, rfl, rfl⟩ | ⟨rfl, rfl, rfl⟩ | ⟨rfl, rfl, rfl⟩ := hcase
      · exact ⟨rfl, nofun, rfl⟩
      · exact ⟨rfl, nofun, rfl⟩
      · exact ⟨rfl, nofun, rfl⟩
      · exact ⟨rfl, nofun, rfl⟩
    obtain ⟨hi, hf, he⟩ := hrow
    exact exec_paper_line h hi hf he hsource hmode

end Sys2Proof.Machine
end

section
/-! PROOF of O33 and O42. Characters placed in DIRECT, from a key and from the remote text. -/

namespace Sys2Proof.Machine

variable {s t u : State}

/-! ### Signals and events read neither the Composer nor each other's parts -/

theorem State.signal_with_comp (s : State) (g : Pattern) (c : Composer) :
    State.signal { s with comp := c } g = { s.signal g with comp := c } := by
  unfold State.signal
  dsimp only
  cases s.disp.beeper with
  | none => split_ifs <;> rfl
  | some b =>
    dsimp only
    split_ifs <;> rfl

theorem State.event_with_comp (s : State) (e : Event) (c : Composer) :
    State.event { s with comp := c } e = { s.event e with comp := c } := by
  unfold State.event
  split <;> rfl

/-- What a signal makes of the beeper depends on the beeper alone (R138, R139). -/
theorem State.signal_disp_congr (hs : t.set = s.set) (hd : t.disp = s.disp) (g : Pattern) :
    (t.signal g).disp = (s.signal g).disp := by
  unfold State.signal
  rw [hs, hd]
  dsimp only
  split_ifs with hon
  · cases s.disp.beeper with
    | none => rfl
    | some b =>
      dsimp only
      split_ifs
      · rfl
      · exact hd
  · exact hd

/-! ### The hot zone (R33) -/

/-- A character at `p` comes near the right margin for the first time in its line (R33). -/
abbrev State.nearMargin (s : State) (p : Nat) : Prop := s.comp.right ≤ p + 60 ∧ s.comp.flags.hotZone = false

/-- The bell rung and the hot zone told (R33). -/
def State.rung (s : State) (p : Nat) : State := (s.signal .bell).event (.hotZone p)

theorem State.rung_with_comp (s : State) (p : Nat) (c : Composer) :
    State.rung { s with comp := c } p = { s.rung p with comp := c } := by
  unfold State.rung
  rw [State.signal_with_comp, State.event_with_comp]

theorem State.keeps_rung (s : State) (p : Nat) : s.keeps (s.rung p) [.ret, .ctr, .beeper] :=
  fun q hq => by cases q <;> simp_all [State.same, State.rung]

theorem State.hotZoneCheck_of_near {p : Nat} (h : s.nearMargin p) : s.hotZoneCheck p =
    { s.rung p with comp := { s.comp with flags := { s.comp.flags with hotZone := true } } } := by
  have hcond : s.comp.right ≤ p + 60 ∧ (!s.comp.flags.hotZone) = true := ⟨h.1, by rw [h.2]; rfl⟩
  rw [State.hotZoneCheck, if_pos hcond]
  exact State.rung_with_comp _ _ _

theorem State.hotZoneCheck_of_not_near {p : Nat} (h : ¬s.nearMargin p) : s.hotZoneCheck p = s := by
  refine if_neg fun hcond => h ⟨hcond.1, ?_⟩
  simpa using hcond.2

/-! ### An entry and its orders (R66, R89, R93) -/

/-- The line record with room for one more entry (R89). -/
def LineRecord.roomy (l : LineRecord) : LineRecord :=
  if 200 ≤ l.entries.length then { l with entries := l.entries.tail, dropped := min 65535 (l.dropped + 1) } else l

/-- The queue once the oldest entry has left the full record (R65, R89). -/
def State.queueRoomy (s : State) : List Order :=
  if 200 ≤ s.line.entries.length then
    s.seq.queue.map (fun o => if o.ref = s.line.entries.head?.map Entry.seqNum then o.dropRef else o)
  else s.seq.queue

/-- The entry of a character and its orders, before the mechanism starts (R29, step 6). -/
def State.placing (s : State) (code : Byte) (kind : EntryKind) (adv : Nat) (orders : List Strike) (past : Nat) : State :=
  let e : Entry := ⟨s.line.nextSeq, code, kind, s.comp.logical, adv, strikeRecords s.seq.nextStrike orders, 0, false, none⟩
  { s with
    line := { s.line.roomy with entries := s.line.roomy.entries ++ [e], nextSeq := s.line.nextSeq + 1 }
    seq := { s.seq with
      queue := s.queueRoomy ++ strikeOrders (some s.line.nextSeq) s.seq.nextStrike orders
      nextStrike := s.seq.nextStrike + BitVec.ofNat 16 orders.length }
    ctr := if past = 0 then s.ctr else s.ctr.raise .pastTravel past }

/-- The oldest entry of a full record leaves it (R89); no other bears its number. -/
theorem State.dropOldestEntry_eq (h : 200 ≤ s.line.entries.length → (s.line.entries.map Entry.seqNum).Nodup) :
    s.dropOldestEntry = { s with line := s.line.roomy, seq := { s.seq with queue := s.queueRoomy } } := by
  unfold State.dropOldestEntry LineRecord.roomy State.queueRoomy
  by_cases hfull : 200 ≤ s.line.entries.length
  · rw [if_neg (show ¬s.line.entries.length < entryPlaces from hfull.not_gt), if_pos hfull, if_pos hfull]
    cases hl : s.line.entries with
    | nil => simp [hl] at hfull
    | cons e l =>
      have hnodup := h hfull
      rw [hl, List.map_cons, List.nodup_cons] at hnodup
      have hrest : (e :: l).filter (fun x => x.seqNum ≠ e.seqNum) = l := by
        rw [List.filter_cons_of_neg (by simp), List.filter_eq_self]
        intro x hx
        exact decide_eq_true fun heq => hnodup.1 (heq ▸ List.mem_map_of_mem hx)
      dsimp only [State.removeEntry, LineRecord.remove, dropRefsTo]
      rw [hl, hrest]
      rfl
  · rw [if_pos (show s.line.entries.length < entryPlaces from Nat.lt_of_not_le hfull), if_neg hfull, if_neg hfull]

theorem pastTravel_eq (l : List Strike) : pastTravel l = (l.filter (fun k => 1559 < k.pos)).length := by
  unfold pastTravel
  congr 1
  refine List.filter_congr fun k _ => ?_
  rw [← decide_not]
  exact decide_eq_decide.mpr Nat.not_le

theorem State.appendEntry_eq {code : Byte} {kind : EntryKind} {adv : Nat} {set : List Strike}
    (h : 200 ≤ s.line.entries.length → (s.line.entries.map Entry.seqNum).Nodup) :
    s.appendEntry code kind s.comp.logical adv set = s.placing code kind adv (inTravel set) (set.filter (fun k => 1559 < k.pos)).length := by
  rw [← pastTravel_eq]
  unfold State.appendEntry
  rw [State.dropOldestEntry_eq h]
  have hnext : s.line.roomy.nextSeq = s.line.nextSeq := by
    unfold LineRecord.roomy
    split <;> rfl
  unfold State.appendStrikes State.placing
  dsimp only
  rw [hnext]
  split <;> rfl

theorem strikeOrders_takesBack (ref : Option Word) (l : List Strike) : ∀ n, ∀ o ∈ strikeOrders ref n l, o.takesBack = false := by
  induction l with
  | nil => exact fun _ _ ho => absurd ho List.not_mem_nil
  | cons k l ih =>
    intro n o ho
    rcases List.mem_cons.mp ho with rfl | ho
    · rfl
    · exact ih _ o ho

/-- The mechanism starts on the orders of the character alone, or goes on. -/
theorem State.placing_kick_reports {code : Byte} {kind : EntryKind} {adv past : Nat} {orders : List Strike}
    (h : s.seq.state = .idle → s.seq.queue = []) :
    (s.placing code kind adv orders past).reports (s.placing code kind adv orders past).kick := by
  refine State.kick_reports fun hst o ho => ?_
  have hqueue : s.queueRoomy = [] := by
    unfold State.queueRoomy
    rw [h hst]
    split <;> rfl
  have ho : o ∈ s.queueRoomy ++ strikeOrders (some s.line.nextSeq) s.seq.nextStrike orders := ho
  rw [hqueue, List.nil_append] at ho
  exact strikeOrders_takesBack _ _ _ o ho

/-! ### A character taken in DIRECT (R29, R33) -/

/-- A character has been placed: the mechanism and the records are those of `v`, which the text follows. -/
structure State.places (s v t : State) (c : Composer) : Prop where
  seq : t.seq = v.seq
  ret : t.ret = v.ret
  drv : t.drv = v.drv
  beeper : t.disp.beeper = v.disp.beeper
  get : ∀ k, k ≠ Counter.checksDropped → t.ctr.get k = v.ctr.get k
  entries : plain t.line.entries = plain v.line.entries
  nextSeq : t.line.nextSeq = v.line.nextSeq
  dropped : t.line.dropped = s.line.roomy.dropped
  comp : t.comp = c
  keeps : s.keeps t [.comp, .line, .seq, .ret, .ctr, .drv, .spell, .window, .beeper]

theorem State.keeps_placing (s : State) (code : Byte) (kind : EntryKind) (adv past : Nat) (orders : List Strike) :
    s.keeps (s.placing code kind adv orders past) [.line, .seq, .ctr] :=
  fun p hp => by cases p <;> simp_all [State.same, State.placing]

/-- With an entry in the record DIRECT is at no line boundary, so the text alone follows (R25). -/
theorem State.textChanged_of_entries (hm : s.comp.modeInEffect = .direct) (hl : s.line.entries ≠ []) (was : Bool) :
    s.retexts (s.textChanged was) ∧ (s.textChanged was).comp = s.comp := by
  have hfollow := s.followText_retexts
  have hbound : s.followText.atBoundary = false := by
    rw [hfollow.atBoundary, State.atBoundary, hm]
    simpa using hl
  have hstands : s.textChanged was = s.followText := by
    unfold State.textChanged State.boundaryAfter
    rw [hbound, Bool.and_false]
    rfl
  have hcomp : s.followText.comp = s.comp := by
    have hdirect := s.trimMarks.respell_other.1 hm
    simpa [State.followText, State.moveWindow] using hdirect
  rw [hstands]
  exact ⟨hfollow, hcomp⟩

theorem State.takeDirect_places {code : Byte} {isDead bold underline : Bool} {bell : Prop} [Decidable bell]
    (hbell : bell ↔ entryKind code isDead ≠ .space ∧ s.nearMargin s.comp.logical) (hm : s.comp.modeInEffect = .direct)
    (hnodup : 200 ≤ s.line.entries.length → (s.line.entries.map Entry.seqNum).Nodup)
    (hidle : s.seq.state = .idle → s.seq.queue = []) :
    let strikes := s.directStrikes code isDead bold underline
    let past := (strikes.filter (fun k => 1559 < k.pos)).length
    let u := (s.placing code (entryKind code isDead) (s.advance code isDead) (inTravel strikes) past).kick
    s.places (if bell then u.rung s.comp.logical else u) (s.takeDirect code isDead bold underline) { s.comp with
      logical := s.comp.logical + s.advance code isDead
      flags := if bell then { s.comp.flags with hotZone := true } else s.comp.flags } := by
  intro strikes past u
  set p := s.comp.logical with hp
  set x := s.placing code (entryKind code isDead) (s.advance code isDead) (inTravel strikes) past with hx
  have hreports := State.placing_kick_reports (code := code) (kind := entryKind code isDead) (adv := s.advance code isDead)
    (past := past) (orders := inTravel strikes) hidle
  have hsx := s.keeps_placing code (entryKind code isDead) (s.advance code isDead) past (inTravel strikes)
  have hucomp : u.comp = s.comp := (hreports.keeps .comp (by decide)).trans (hsx .comp (by decide))
  set v : State := if bell then u.rung p else u with hv
  set c : Composer := { s.comp with
    logical := p + s.advance code isDead
    flags := if bell then { s.comp.flags with hotZone := true } else s.comp.flags } with hc
  have hvu : u.keeps v [.ret, .ctr, .beeper] := by
    rw [hv]
    split
    · exact u.keeps_rung p
    · exact fun q _ => by cases q <;> simp [State.same]
  have hsv : s.keeps v [.line, .seq, .drv, .ret, .ctr, .beeper] :=
    State.keeps_trans (State.keeps_mono hsx (by decide)) (State.keeps_trans (State.keeps_mono hreports.keeps (by decide))
      (State.keeps_mono hvu (by decide)))
  have hline : v.line = { x.line with entries := v.line.entries } := by
    rw [show v.line = u.line from hvu .line (by decide)]
    exact hreports.line
  have hlength : v.line.entries ≠ [] := by
    intro hnil
    have hzero : x.line.entries.length = 0 := by
      rw [← hreports.length, ← show v.line = u.line from hvu .line (by decide), hnil]
      rfl
    simp [hx, State.placing] at hzero
  have htake : s.takeDirect code isDead bold underline = State.textChanged s.atBoundary { v with comp := c } := by
    rw [State.takeDirect, State.appendEntry_eq hnodup]
    refine congrArg _ ?_
    set w : State := { u with comp := { s.comp with logical := p + s.advance code isDead } } with hw
    have hwu : ({ u with comp := { u.comp with logical := p + s.advance code isDead } } : State) = w := by rw [hucomp]
    show (if entryKind code isDead = .space then ({ u with comp := { u.comp with logical := p + s.advance code isDead } } : State)
      else State.hotZoneCheck { u with comp := { u.comp with logical := p + s.advance code isDead } } p) = _
    rw [hwu, hv, hc]
    by_cases hspace : entryKind code isDead = .space
    · have hnot : ¬bell := fun hb => (hbell.mp hb).1 hspace
      rw [if_pos hspace, if_neg hnot, if_neg hnot]
    · rw [if_neg hspace]
      by_cases hnear : s.nearMargin p
      · have hb : bell := hbell.mpr ⟨hspace, hnear⟩
        have hwnear : w.nearMargin p := hnear
        rw [if_pos hb, if_pos hb, State.hotZoneCheck_of_near hwnear, hw, State.rung_with_comp]
      · have hnot : ¬bell := fun hb => hnear (hbell.mp hb).2
        have hwnear : ¬w.nearMargin p := hnear
        rw [if_neg hnot, if_neg hnot, State.hotZoneCheck_of_not_near hwnear]
  have htext := State.textChanged_of_entries (s := { v with comp := c }) hm hlength s.atBoundary
  rw [htake]
  obtain ⟨htexts, hcomp⟩ := htext
  generalize State.textChanged s.atBoundary { v with comp := c } = t at htexts hcomp
  have hkeeps : s.keeps { v with comp := c } [.comp, .line, .seq, .drv, .ret, .ctr, .beeper] :=
    State.keeps_trans (State.keeps_mono hsv (by decide)) (State.keeps_mono (v.keeps_comp c) (by decide))
  exact {
    seq := htexts.keeps .seq (by decide)
    ret := htexts.keeps .ret (by decide)
    drv := htexts.keeps .drv (by decide)
    beeper := htexts.keeps .beeper (by decide)
    get := htexts.get
    entries := htexts.entries
    nextSeq := by
      rw [htexts.line]
    dropped := by
      have hdropped : v.line.dropped = s.line.roomy.dropped := by
        rw [hline]
        rfl
      rw [htexts.line]
      exact hdropped
    comp := hcomp
    keeps := State.keeps_trans (State.keeps_mono hkeeps (by decide)) (State.keeps_mono htexts.keeps (by decide)) }

theorem State.places.addsNoWait {v : State} {logical : Nat} {flags : LineFlags}
    (h : s.places v t { s.comp with logical := logical, flags := flags }) : s.addsNoWait t := by
  rw [State.addsNoWait, h.comp]
  exact ⟨rfl, id⟩

theorem State.isAbsent_iff {code : Byte} {isDead : Bool} :
    s.isAbsent code isDead = true ↔ entryKind code isDead ≠ .space ∧ s.wheelEntry code = some .absent := by
  rw [State.isAbsent, Bool.and_eq_true, decide_eq_true_iff, decide_eq_true_iff]

theorem State.wheelEntry_of_noMap (h : s.active .wheelMap = none) (code : Byte) : s.wheelEntry code = none := by
  rw [State.wheelEntry, State.activeBase, h]
  rfl

/-- The rows of a character typed evaluate it alike (R29, R39). -/
theorem exec_typedChar {i : Instr} {a : KeyAction} {code : Byte} {isDead : Bool}
    (hi : i = .characterKeyAction ∧ a = .char code ∧ isDead = false ∨
      i = .deadKeyAction ∧ a = .dead code ∧ isDead = true ∨
      i = .space ∧ (a = .func .space ∨ a = .char 0x20) ∧ code = 0x20 ∧ isDead = false)
    (h : s.turnOf a) (hsource : s.comp.source = .localKeys) :
    exec i s = .next ((s.evalKey true a).finishKey a).formImage ∧
      s.evalKey true a = (if isDead then s.evalDead code else s.evalChar code) ∧ a ≠ .func .returnKey := by
  have hkey {b : KeyAction} {e : Eval}
      (hb : s.evalKey true b = if s.comp.source = .remoteText ∧ !b.remoteAllowed then .refused s else e) : s.evalKey true b = e := by
    rw [hb, hsource, if_neg (fun hr => nomatch hr.1)]
  rcases hi with ⟨rfl, rfl, rfl⟩ | ⟨rfl, rfl, rfl⟩ | ⟨rfl, rfl | rfl, rfl, rfl⟩
  · exact ⟨exec_rowOf h rfl, hkey rfl, nofun⟩
  · exact ⟨exec_rowOf h rfl, hkey rfl, nofun⟩
  · exact ⟨exec_rowOf h rfl, hkey rfl, nofun⟩
  · exact ⟨exec_keyRow (paper := true) h rfl rfl, hkey rfl, nofun⟩

theorem State.evalTyped_direct (hm : s.comp.modeInEffect = .direct) (code : Byte) (isDead : Bool) :
    (if isDead then s.evalDead code else s.evalChar code) = s.directKeyChar code isDead := by
  unfold State.evalDead State.evalChar
  rw [hm]
  cases isDead <;> rfl

/-- A character that the wheel lacks is counted and refused (R30). -/
theorem absent_of_exec {i : Instr} {a : KeyAction} (hx : exec i s = .next ((s.evalKey true a).finishKey a).formImage)
    (hq : s.quiet) (hreturn : a ≠ .func .returnKey) (he : s.evalKey true a = .refused (s.raise .unprintable)) :
    ∃ t, exec i s = .next t ∧ s.tookKey t a ∧ t.ctr = s.ctr.raise .unprintable 1 ∧
      t.comp = { s.comp with override := false } ∧ t.line = { s.line with run := none } ∧
      t.disp.beeper = (s.signal .refused).disp.beeper ∧
      s.keeps t [.keyq, .intake, .comp, .line, .ctr, .beeper, .image] ∧ s.imageFollows t := by
  set w := s.raise .unprintable with hw
  have hwkeeps : s.keeps w [.ctr] := fun q hq => by cases q <;> simp_all [State.same]
  have hkeeps : s.keeps (w.signal .refused) [.ctr, .beeper] := fun q hq => by cases q <;> simp_all [State.same]
  obtain ⟨t, hx, htook, ht⟩ := takes_of_exec hx hq (u := w.signal .refused) he
    (State.addsNoWait.of_comp (hkeeps .comp (by decide))) fun ha => absurd ha hreturn
  refine ⟨t, hx, htook, ?_, ?_, ?_, ?_, ht.keepsAll hkeeps (by decide) (by decide), ht.followsFrom hkeeps (by decide)⟩
  · exact (ht.keeps .ctr (by decide)).trans (by simp [hw])
  · rw [ht.comp, decide_eq_false hreturn, Bool.false_and, hkeeps .comp (by decide)]
  · rw [ht.line, hkeeps .line (by decide)]
  · exact (ht.keeps .beeper (by decide)).trans (congrArg Display.beeper (State.signal_disp_congr (s := s) (t := w) rfl rfl _))

/-- Settles O33: the evaluation goes through the conditions in the model's order; what is placed is `State.placing`. -/
theorem directCharactersArePlaced : Obligations.DirectCharactersArePlaced := by
  intro s i a code isDead hi h hsource hmode kind p adv orders past limit isAbsent full kept queue
  have hm : s.comp.modeInEffect = .direct := by rw [Composer.modeInEffect_local hsource, hmode]
  obtain ⟨hx, he, hreturn⟩ := exec_typedChar hi h hsource
  rw [State.evalTyped_direct hm] at he
  have hoverride {b : Bool} : (decide (a = .func .returnKey) && b) = false := by rw [decide_eq_false hreturn, Bool.false_and]
  have habsent : s.isAbsent code isDead = true ↔ isAbsent := State.isAbsent_iff
  have hplaced (hpresent : ¬isAbsent) (hwidth : ¬s.noWidth) (hfit : p + adv ≤ limit) :
      s.evalKey true a = s.placeDirect code isDead s.comp.bold s.comp.underline := by
    rw [he, State.directKeyChar, if_neg (hpresent ∘ habsent.mp), if_neg hwidth, if_neg (show ¬s.keyLimit < s.comp.logical + s.advance code isDead from hfit.not_gt)]
  refine ⟨fun hgone => ?_, fun hps hmap => ?_, fun hpresent hwidth hbeyond => ?_, fun hpresent hwidth hfit hroom => ?_,
    fun hpresent hwidth hfit hroom hnodup hidle => ?_⟩
  · exact absent_of_exec hx h.1 hreturn (by rw [he, State.directKeyChar, if_pos (habsent.mpr hgone)])
  · refine refuses_of_exec hx h.1 ?_
    have hpresent : ¬isAbsent := fun hgone => by
      have hnone := hgone.2
      rw [State.wheelEntry_of_noMap hmap] at hnone
      cases hnone
    have hwidth : s.noWidth = true := by
      rw [State.noWidth, hps, hmap]
      rfl
    rw [he, State.directKeyChar, if_neg (hpresent ∘ habsent.mp), if_pos hwidth]
  · refine refuses_of_exec hx h.1 ?_
    rw [he, State.directKeyChar, if_neg (hpresent ∘ habsent.mp), if_neg hwidth,
      if_pos (show s.keyLimit < s.comp.logical + s.advance code isDead from hbeyond)]
  · exact waits_of_exec hx ((hplaced hpresent hwidth hfit).trans (State.withRoom_of_full hroom))
  · have hplaces := State.takeDirect_places (code := code) (isDead := isDead) (bold := s.comp.bold)
      (underline := s.comp.underline) Iff.rfl hm hnodup hidle
    obtain ⟨t, hx, htook, ht⟩ := takes_of_exec hx h.1 ((hplaced hpresent hwidth hfit).trans (State.withRoom_of_room hroom))
      hplaces.addsNoWait fun ha => absurd ha hreturn
    generalize s.takeDirect code isDead s.comp.bold s.comp.underline = w at hplaces ht
    refine ⟨t, hx, htook, (ht.keeps .seq (by decide)).trans hplaces.seq, (ht.keeps .ret (by decide)).trans hplaces.ret,
      (ht.keeps .drv (by decide)).trans hplaces.drv, (ht.keeps .beeper (by decide)).trans hplaces.beeper, fun k hk => ?_, ?_, ?_,
      ?_, ?_, ht.keepsAll hplaces.keeps (by decide) (by decide), ht.followsFrom hplaces.keeps (by decide)⟩
    · exact (congrArg (fun c => c.get k) (show t.ctr = w.ctr from ht.keeps .ctr (by decide))).trans (hplaces.get k hk)
    · rw [ht.line]
      exact hplaces.entries
    · rw [ht.line]
      exact hplaces.nextSeq
    · rw [ht.line]
      exact hplaces.dropped
    · rw [ht.comp, hoverride, hplaces.comp]
      rfl

/-! ### Remote characters (R29, R30, R32) -/

section Remote

variable {code : Byte} {rest : List Byte}

theorem textRowOf_printable (h32 : 32 ≤ code.toNat) : textRowOf code = .remotePrintableChar := if_pos h32

theorem State.evalText_printable (h32 : 32 ≤ code.toNat) : s.evalText code = s.remoteChar code := if_pos h32

/-- A remote character that is carried out leaves `u` and is taken. -/
theorem exec_takesRemote {l : List Part} (h : s.textTurn code rest) (h32 : 32 ≤ code.toNat) (he : s.remoteChar code = .taken u)
    (hw : s.addsNoWait u) (hs : s.keeps u l) (hi : .image ∉ l) :
    ∃ t, exec .remotePrintableChar s = .next t ∧ s.tookText t rest ∧ t.comp = u.comp ∧ u.keeps t [.txt, .image] ∧
      s.keeps t ([.txt, .image] ++ l) ∧ s.imageFollows t := by
  obtain ⟨t, hx, htook, hcomp, hk, hfollows⟩ := exec_takesText h ((State.evalText_printable h32).trans he) hw
  rw [textRowOf_printable h32] at hx
  obtain ⟨hcurrent, hslot⟩ := hs .image hi
  rw [State.imageFollows, hcurrent, hslot] at hfollows
  exact ⟨t, hx, htook, hcomp, hk, State.keeps_trans (State.keeps_mono hs (List.subset_append_right _ _))
    (State.keeps_mono hk (List.subset_append_left _ _)), hfollows⟩

theorem exec_waitsRemote {c : WaitCause} (h : s.textTurn code rest) (h32 : 32 ≤ code.toNat)
    (he : s.remoteChar code = .waits s c) : exec .remotePrintableChar s = .next (s.waitsText c) := by
  rw [← textRowOf_printable h32]
  exact exec_waitsText h ((State.evalText_printable h32).trans he)

/-- A character past the margin is counted and told once a line (R32). -/
def State.overrun (s : State) : State :=
  if s.comp.flags.pastMargin then s.raise .textOverruns else (s.raise .textOverruns).event .textPastMargin

theorem State.keeps_overrun (s : State) : s.keeps s.overrun [.ret, .ctr] := by
  unfold State.overrun
  intro q hq
  split <;> cases q <;> simp_all [State.same]

theorem State.discardPastMargin_eq (s : State) : s.discardPastMargin =
    { s.overrun with comp := { s.comp with flags := { s.comp.flags with pastMargin := true } } } := by
  unfold State.discardPastMargin State.overrun
  dsimp only
  cases hflag : s.comp.flags.pastMargin with
  | false =>
    rw [if_neg (show ¬(s.raise .textOverruns).comp.flags.pastMargin = true by simp [hflag])]
    exact State.event_with_comp _ _ _
  | true =>
    rw [if_pos (show (s.raise .textOverruns).comp.flags.pastMargin = true by simp [hflag])]
    simp only [State.raise, ← hflag, if_true]

/-- An ABSENT code is counted and told once a line (R30). -/
def State.unprinted (s : State) (code : Byte) : State :=
  if s.comp.flags.unprintableReported then s.raise .unprintable else (s.raise .unprintable).event (.unprintable code)

theorem State.keeps_unprinted (s : State) (code : Byte) : s.keeps (s.unprinted code) [.ret, .ctr] := by
  unfold State.unprinted
  intro q hq
  split <;> cases q <;> simp_all [State.same]

theorem State.advanceAbsent_eq (s : State) (code : Byte) :
    let p := s.comp.logical
    let near := s.nearMargin p
    s.advanceAbsent code = { (if near then (s.unprinted code).rung p else s.unprinted code) with
      comp := { s.comp with
        logical := p + s.advance code false
        flags := { s.comp.flags with
          unprintableReported := true, hotZone := if near then true else s.comp.flags.hotZone } } } := by
  intro p near
  set c : Composer := { s.comp with
    logical := p + s.advance code false, flags := { s.comp.flags with unprintableReported := true } } with hc
  have hcounted : s.advanceAbsent code = State.hotZoneCheck { s.unprinted code with comp := c } p := by
    unfold State.advanceAbsent State.unprinted
    refine congrArg (fun w => State.hotZoneCheck w p) ?_
    cases hflag : s.comp.flags.unprintableReported with
    | false =>
      simp only [State.raise, hflag, Bool.false_eq_true, if_false]
      exact State.event_with_comp (s.raise .unprintable) (.unprintable code) c
    | true =>
      simp only [State.raise, hflag, if_true, hc]
      rw [← hflag]
  rw [hcounted]
  by_cases hnear : near
  · have hnext : State.nearMargin { s.unprinted code with comp := c } p := hnear
    rw [State.hotZoneCheck_of_near hnext, State.rung_with_comp, if_pos hnear, if_pos hnear]
  · have hnext : ¬State.nearMargin { s.unprinted code with comp := c } p := hnear
    rw [State.hotZoneCheck_of_not_near hnext, if_neg hnear, if_neg hnear]

/-- Within the right margin a remote character is placed or waits (R29). -/
theorem State.remoteChar_of_fits (h : s.comp.logical + s.advance code false ≤ s.comp.right) :
    s.remoteChar code = s.placeRemote code := by
  unfold State.remoteChar State.placeRemote
  rw [if_neg h.not_gt]
  split <;> rfl

/-- After the automatic return the item stands before the rows as it did (R32). -/
theorem State.lineEnd_textTurn (h : s.textTurn code rest) (hs : (s.lineEnd .full).comp.source = .remoteText) :
    (s.lineEnd .full).textTurn code rest := by
  obtain ⟨⟨hrun, hkey, htext⟩, hsource, hselected, hqueue⟩ := h
  have hm : s.comp.modeInEffect = .direct := by
    rw [Composer.modeInEffect, hsource]
  have hends := State.lineEnd_endsLine hm .full
  obtain ⟨hkey', htext'⟩ := hends.addsNoWait.quiet ⟨hrun, hkey, htext⟩
  have hkeeps := hends.keeps
  generalize s.lineEnd .full = u at *
  refine ⟨⟨(hkeeps .resetHeld (by decide)).trans hrun, hkey', htext'⟩, hs, ?_, ?_⟩
  · rw [State.selected, show u.intake = s.intake from hkeeps .intake (by decide)]
    exact hselected
  · rw [show u.txt = s.txt from hkeeps .txt (by decide)]
    exact hqueue

theorem State.lineEnd_takeText (h : s.textTurn code rest) : (s.lineEnd .full).takeText =
    { s.lineEnd .full with txt := { s.txt with queue := rest, unsent := s.txt.unsent + 1 } } := by
  obtain ⟨hquiet, hsource, -, hqueue⟩ := h
  have hm : s.comp.modeInEffect = .direct := by rw [Composer.modeInEffect, hsource]
  have hends := State.lineEnd_endsLine hm .full
  obtain ⟨-, hwait⟩ := hends.addsNoWait.quiet hquiet
  have htxt : (s.lineEnd .full).txt = s.txt := hends.keeps .txt (by decide)
  generalize s.lineEnd .full = u at *
  simp only [State.takeText, htxt, hqueue, List.tail_cons]
  rw [← hwait]

end Remote

/-- Settles O42: the evaluation goes through the conditions in the model's order; a key action that R23 does not leave
to the keys is refused before any of them. -/
theorem remoteCharactersArePlaced : Obligations.RemoteCharactersArePlaced := by
  refine ⟨?_, fun s i a paper hi h hsource hnot => exec_refuses h hi (if_pos ⟨hsource, ?_⟩)⟩
  case refine_2 =>
    cases a with
    | char c => rfl
    | dead c => rfl
    | func f => cases f <;> simp_all [KeyAction.remoteAllowed]
  intro s code rest h h32 kind p adv orders past isAbsent near full kept queue
  obtain ⟨hquiet, hsource, hselected, hqueue⟩ := id h
  have hm : s.comp.modeInEffect = .direct := by rw [Composer.modeInEffect, hsource]
  have hkind : entryKind code false ≠ .space ↔ code ≠ 0x20 := by
    unfold entryKind spaceCode
    by_cases hspace : code = 0x20 <;> simp [hspace]
  have habsent : s.isAbsent code false = true ↔ isAbsent := State.isAbsent_iff.trans (and_congr_left' hkind)
  have hpast (hwidth : ¬s.noWidth) (hbeyond : s.comp.right < p + adv) : s.remoteChar code =
      if s.set.autoReturn then
        if s.hasRoom 2 then (s.lineEnd .full).afterAutoReturn code else .waits s .room
      else .refused s.discardPastMargin := by
    rw [State.remoteChar, if_neg hwidth, if_pos hbeyond]
  have hplaced (hwidth : ¬s.noWidth) (hfit : p + adv ≤ s.comp.right) : s.remoteChar code =
      if s.isAbsent code false then .taken (s.advanceAbsent code) else s.placeDirect code false false false := by
    rw [State.remoteChar_of_fits hfit, State.placeRemote, if_neg hwidth]
  refine ⟨fun hwidth => exec_waitsRemote h h32 (if_pos hwidth), fun hwidth hbeyond hauto => ?_,
    fun hwidth hbeyond hauto hroom => exec_waitsRemote h h32 ?_, fun hwidth hbeyond hauto hroom => ?_,
    fun hwidth hfit hgone => ?_, fun hwidth hfit hpresent hroom => exec_waitsRemote h h32 ?_,
    fun hwidth hfit hpresent hroom hnodup hidle => ?_⟩
  · set c : Composer := { s.comp with flags := { s.comp.flags with pastMargin := true } } with hc
    set u : State := { s.overrun with comp := c } with hu
    have he : s.remoteChar code = .taken (u.signal .refused) := by
      rw [hpast hwidth hbeyond, if_neg (by rw [hauto]; decide), State.discardPastMargin_eq]
      rfl
    have hkeeps : s.keeps (u.signal .refused) [.comp, .ret, .ctr, .beeper] := State.keeps_trans
      (State.keeps_mono s.keeps_overrun (by decide)) (State.keeps_trans (State.keeps_mono (s.overrun.keeps_comp c) (by decide))
        fun q hq => by cases q <;> simp_all [State.same])
    have hcomp : (u.signal .refused).comp = c := by simp [hu]
    obtain ⟨t, hx, htook, htcomp, hk, hsk, hfollows⟩ := exec_takesRemote h h32 he
      (by rw [State.addsNoWait, hcomp]; exact ⟨rfl, id⟩) hkeeps (by decide)
    refine ⟨t, hx, htook, ?_, ?_, htcomp.trans hcomp, ?_, State.keeps_mono hsk (by decide), hfollows⟩
    · exact (hk .ret (by decide)).trans (by simp [hu, State.overrun])
    · exact (hk .ctr (by decide)).trans (by simp [hu, State.overrun])
    · refine (hk .beeper (by decide)).trans (congrArg Display.beeper (State.signal_disp_congr (s := s) (t := u) ?_ ?_ _))
      · exact s.keeps_overrun .set (by decide)
      · simp only [hu, State.overrun]
        split <;> simp
  · rw [hpast hwidth hbeyond, if_pos hauto, if_neg fun hroomy => absurd ((State.hasRoom_iff _ _).mp hroomy)
      (show ¬s.seq.queue.length + 2 ≤ 64 by omega)]
  · have he : s.remoteChar code = (s.lineEnd .full).afterAutoReturn code := by
      rw [hpast hwidth hbeyond, if_pos hauto, if_pos ((State.hasRoom_iff _ _).mpr
        (show s.seq.queue.length + 2 ≤ 64 by omega))]
    have hx := exec_textRowOf h
    rw [textRowOf_printable h32, State.evalText_printable h32, he] at hx
    refine ⟨fun hspace => ?_, fun hchar hremote hfit => ?_⟩
    · rw [hx, State.afterAutoReturn, if_pos (show code = spaceCode from hspace)]
      exact congrArg (fun w => Host.Outcome.next (State.formImage w)) (State.lineEnd_takeText h)
    · have hturn := State.lineEnd_textTurn h hremote
      have hy := exec_textRowOf hturn
      rw [textRowOf_printable h32, State.evalText_printable h32, State.remoteChar_of_fits hfit] at hy
      rw [hx, hy, State.afterAutoReturn, if_neg (show ¬code = spaceCode from hchar), hremote]
  · have he : s.remoteChar code = .taken (s.advanceAbsent code) := by
      rw [hplaced hwidth hfit, if_pos (habsent.mpr hgone)]
    rw [State.advanceAbsent_eq] at he
    set v : State := if s.nearMargin p then (s.unprinted code).rung p else s.unprinted code with hv
    set c : Composer := { s.comp with
      logical := p + adv
      flags := { s.comp.flags with
        unprintableReported := true, hotZone := if near then true else s.comp.flags.hotZone } } with hc
    have hsv : s.keeps v [.ret, .ctr, .beeper] := by
      rw [hv]
      split
      · exact State.keeps_trans (State.keeps_mono (s.keeps_unprinted code) (by decide)) ((s.unprinted code).keeps_rung p)
      · exact State.keeps_mono (s.keeps_unprinted code) (by decide)
    have hkeeps : s.keeps { v with comp := c } [.comp, .ret, .ctr, .beeper] :=
      State.keeps_trans (State.keeps_mono hsv (by decide)) (State.keeps_mono (v.keeps_comp c) (by decide))
    obtain ⟨t, hx, htook, hcomp, hk, hsk, hfollows⟩ := exec_takesRemote (u := { v with comp := c }) h h32 he ⟨rfl, id⟩ hkeeps
      (by decide)
    exact ⟨t, hx, htook, hk .ret (by decide), hk .ctr (by decide), hk .beeper (by decide), hcomp,
      State.keeps_mono hsk (by decide), hfollows⟩
  · rw [hplaced hwidth hfit, if_neg (hpresent ∘ habsent.mp)]
    exact State.withRoom_of_full hroom
  · have hplaces := State.takeDirect_places (code := code) (isDead := false) (bold := false) (underline := false)
      (and_congr_left' hkind.symm) hm hnodup hidle
    have he : s.remoteChar code = .taken (s.takeDirect code false false false) := by
      rw [hplaced hwidth hfit, if_neg (hpresent ∘ habsent.mp)]
      exact State.withRoom_of_room hroom
    obtain ⟨t, hx, htook, hcomp, hk, hsk, hfollows⟩ := exec_takesRemote h h32 he hplaces.addsNoWait hplaces.keeps (by decide)
    generalize s.takeDirect code false false false = w at hplaces hcomp hk
    refine ⟨t, hx, htook, (hk .seq (by decide)).trans hplaces.seq, (hk .ret (by decide)).trans hplaces.ret,
      (hk .drv (by decide)).trans hplaces.drv, (hk .beeper (by decide)).trans hplaces.beeper, fun k hne => ?_, ?_, ?_, ?_,
      hcomp.trans hplaces.comp, State.keeps_mono hsk (by decide), hfollows⟩
    · exact (congrArg (fun c => c.get k) (show t.ctr = w.ctr from hk .ctr (by decide))).trans (hplaces.get k hne)
    all_goals rw [show t.line = w.line from hk .line (by decide)]
    · exact hplaces.entries
    · exact hplaces.nextSeq
    · exact hplaces.dropped

end Sys2Proof.Machine
end

section
/-! PROOF of O41. The correction keys and RELOCATE in DIRECT. -/

namespace Sys2Proof.Machine

variable {s t u : State}

/-! ### A LIFT of the wheel identified on an idle mechanism (R78) -/

/-- The queue begins with a LIFT of the wheel identified. -/
def State.liftsFirst (s : State) : Prop :=
  ∃ petal x level ref rest, s.seq.queue = .lift petal s.seq.wheelCode x level ref :: rest

theorem State.startStep_lift (s : State) (petal x level : Nat) (ref : Option Word) :
    s.startStep (.lift petal s.seq.wheelCode x level ref) = .position petal level := if_pos rfl

theorem State.keeps_enter (s : State) (st : MechState) (r : Reason) : s.keeps (s.enter st r) [.seq, .drv, .ret, .ctr] :=
  fun p hp => by cases p <;> simp_all [State.same]

theorem State.runQueue_lift_keeps (h : s.liftsFirst) : s.keeps s.runQueue [.seq, .drv, .ret, .ctr] := by
  obtain ⟨petal, x, level, ref, rest, hq⟩ := h
  cases hreq : s.seq.pauseReq with
  | some r =>
    rw [State.runQueue_of_pause hreq]
    exact State.keeps_trans (State.keeps_mono (s.keeps_seq _) (by decide)) (State.keeps_enter _ _ _)
  | none =>
    rw [State.runQueue_of_head hreq hq, State.startStep_lift]
    exact State.keeps_mono (s.keeps_seq _) (by decide)

theorem State.alike.runQueue_lift (h : s.alike t) (hs : s.liftsFirst) : s.runQueue.alike t.runQueue := by
  obtain ⟨petal, x, level, ref, rest, hq⟩ := hs
  have hq' : t.seq.queue = .lift petal s.seq.wheelCode x level ref :: rest := by rw [h.seq, hq]
  cases hreq : s.seq.pauseReq with
  | some r =>
    rw [State.runQueue_of_pause hreq, State.runQueue_of_pause (s := t) (by rw [h.seq, hreq]), h.seq]
    exact State.alike.enter (h.withSeq rfl) _ _
  | none =>
    rw [State.runQueue_of_head hreq hq, State.runQueue_of_head (s := t) (by rw [h.seq, hreq]) hq', h.startStep,
      State.startStep_lift]
    exact h.startPosition _ _ _

theorem State.enter_liftsFirst (h : s.liftsFirst) (st : MechState) (r : Reason) : (s.enter st r).liftsFirst := by
  unfold State.enter
  split
  · exact h
  · obtain ⟨petal, x, level, ref, rest, hq⟩ := h
    exact ⟨petal, x, level, ref, rest, by simpa using hq⟩

theorem State.kick_lift_keeps (h : s.seq.state = .idle → s.liftsFirst) : s.keeps s.kick [.seq, .drv, .ret, .ctr] := by
  unfold State.kick
  split
  case isTrue hidle =>
    exact State.keeps_trans (s.keeps_enter _ _) (State.runQueue_lift_keeps (State.enter_liftsFirst (h hidle.1) _ _))
  case isFalse => exact fun q _ => by cases q <;> simp [State.same]

theorem State.alike.kick_lift (h : s.alike t) (hs : s.seq.state = .idle → s.liftsFirst) : s.kick.alike t.kick := by
  unfold State.kick
  rw [h.seq]
  split
  case isTrue hidle => exact (h.enter .running .none).runQueue_lift (State.enter_liftsFirst (hs hidle.1) _ _)
  case isFalse => exact h

/-! ### Orders without a reference do not read the Composer (R65, R72) -/

theorem State.enter_with_comp (s : State) (st : MechState) (r : Reason) (c : Composer) :
    State.enter { s with comp := c } st r = { s.enter st r with comp := c } := by
  unfold State.enter
  split
  · rfl
  · exact State.event_with_comp { s with
      seq := { s.seq with state := st, reason := r }
      drv := { s.drv with rotTest := if s.seq.state = st then s.drv.rotTest else none } } _ c

theorem State.enterWheelWait_with_comp (s : State) (w : WheelCondition) (c : Composer) :
    State.enterWheelWait { s with comp := c } w = { s.enterWheelWait w with comp := c } := by
  cases w with
  | ready => rfl
  | mismatch => exact (congrArg (fun t => State.event t (.wheelMismatch s.set.expectedWheel s.seq.wheelCode))
      (s.enter_with_comp .wheelWait .mismatch c)).trans (State.event_with_comp _ _ c)
  | noMap => exact (congrArg (fun t => State.event t (.wheelNoMap s.seq.wheelCode))
      (s.enter_with_comp .wheelWait .noMap c)).trans (State.event_with_comp _ _ c)

theorem State.skipOrder_with_comp {o : Order} (h : o.ref = none) (s : State) (c : Composer) :
    State.skipOrder { s with comp := c } o = { s.skipOrder o with comp := c } := by
  cases o with
  | strike code p role ref num =>
    obtain rfl : ref = none := h
    rfl
  | lift pt w p l ref =>
    obtain rfl : ref = none := h
    exact State.event_with_comp s.popOrder _ c
  | move | index | indexPage => rfl

theorem State.startStep_with_comp (s : State) (o : Order) (c : Composer) :
    State.startStep { s with comp := c } o = s.startStep o := by
  cases o <;> rfl

theorem State.runOrders_with_comp (n : Nat) (c : Composer) : ∀ s : State, (∀ o ∈ s.seq.queue, o.ref = none) →
    State.runOrders n { s with comp := c } = { State.runOrders n s with comp := c } := by
  induction n with
  | zero => exact fun _ _ => rfl
  | succ n ih =>
    intro s hall
    unfold State.runOrders
    cases hreq : s.seq.pauseReq with
    | some r => exact State.enter_with_comp { s with seq := { s.seq with pauseReq := none } } _ _ c
    | none =>
      cases hq : s.seq.queue with
      | nil => exact s.enter_with_comp _ _ c
      | cons o rest =>
        have ho : o.ref = none := hall o (by rw [hq]; exact List.mem_cons_self)
        have hrest : ∀ x ∈ s.popOrder.seq.queue, x.ref = none := fun x hx => hall x (List.mem_of_mem_tail hx)
        dsimp only
        rw [State.startStep_with_comp]
        cases s.startStep o with
        | position petal level =>
          dsimp only
          rw [State.startPosition, State.startPosition, State.reportInFlight_of_ref ho, State.reportInFlight_of_ref ho]
          rfl
        | skip =>
          dsimp only
          rw [State.skipOrder_with_comp ho]
          refine ih _ ?_
          rw [State.skipOrder_queue (Order.takesBack_of_ref ho)]
          exact hrest
        | wait w => exact s.enterWheelWait_with_comp w c
        | moveDone => exact ih s.popOrder hrest
        | moving us => rfl
        | indexing k => rfl

theorem State.kick_with_comp (h : s.seq.state = .idle → ∀ o ∈ s.seq.queue, o.ref = none) (c : Composer) :
    State.kick { s with comp := c } = { s.kick with comp := c } := by
  by_cases hidle : s.seq.state = .idle ∧ s.seq.queue ≠ []
  · have hkick : s.kick = (s.enter .running .none).runQueue := if_pos hidle
    have hkick' : State.kick { s with comp := c } = (State.enter { s with comp := c } .running .none).runQueue := if_pos hidle
    rw [hkick, hkick', State.enter_with_comp]
    refine State.runOrders_with_comp _ c _ ?_
    rw [State.enter_queue]
    exact h hidle.1
  · have hkick : s.kick = s := if_neg hidle
    have hkick' : State.kick { s with comp := c } = { s with comp := c } := if_neg hidle
    rw [hkick, hkick']

/-! ### The target of a correction (R96) -/

theorem lastWhere_append_cons {α : Type} {p : α → Bool} {a : α} {newer : List α} (older : List α) (ha : p a = true)
    (hn : ∀ b ∈ newer, p b = false) : lastWhere p (older ++ a :: newer) = some a := by
  have hnil : newer.filter p = [] := List.filter_eq_nil_iff.mpr fun b hb => by rw [hn b hb]; decide
  rw [lastWhere_eq_getLast?, List.filter_append, List.filter_cons_of_pos ha, hnil, List.getLast?_concat]

theorem lastWhere_append {α : Type} {p : α → Bool} {newer : List α} (older : List α)
    (hn : ∀ b ∈ newer, p b = false) : lastWhere p (older ++ newer) = lastWhere p older := by
  have hnil : newer.filter p = [] := List.filter_eq_nil_iff.mpr fun b hb => by rw [hn b hb]; decide
  rw [lastWhere_eq_getLast?, lastWhere_eq_getLast?, List.filter_append, hnil, List.append_nil]

/-- The target of the next step, but for its word reference, is told by the plain record. -/
theorem State.correctTarget_plain {l : List Entry} (h : plain s.line.entries = plain l) :
    s.correctTarget.map (fun e => { e with word := none }) =
      (lastWhere (fun e => e.state ≠ .lifting) l).map (fun e => { e with word := none }) := by
  have hmap (l : List Entry) := lastWhere_map (fun e : Entry => { e with word := none })
    (p := fun e => decide (e.state ≠ .lifting)) (q := fun e => decide (e.state ≠ .lifting)) (fun _ => rfl) l
  have hs := hmap s.line.entries
  have hl := hmap l
  rw [State.correctTarget, ← hs, ← hl]
  exact congrArg _ h

/-! ### One step taken (R98, R100) -/

/-- An entry is being taken back: the mechanism and the record are those of `v`, which the text follows. -/
structure State.takesBack (s v t : State) (e : Entry) (l : List Part) : Prop where
  entries : plain t.line.entries = plain v.line.entries
  line : t.line = { s.line with entries := t.line.entries }
  comp : t.comp = { s.comp with logical := e.pos }
  seq : t.seq = v.seq
  drv : t.drv = v.drv
  ret : t.ret = v.ret
  get : ∀ k, k ≠ Counter.checksDropped → t.ctr.get k = v.ctr.get k
  keeps : s.keeps t l
  follows : .image ∉ l

theorem State.cancelEntry_takesBack (hm : s.comp.modeInEffect = .direct) (hl : s.comp.later = .none)
    (ht : s.comp.textWait = none) (e : Entry) :
    s.takesBack { s with line := s.line.remove e.seqNum, seq := s.seq.withQueue (withoutOrders e.seqNum s.seq.queue) }
      (s.cancelEntry e) e [.comp, .line, .seq, .spell, .ctr, .window] := by
  set w : State := { s with
    line := s.line.remove e.seqNum
    seq := s.seq.withQueue (withoutOrders e.seqNum s.seq.queue)
    comp := { s.comp with logical := e.pos } } with hw
  obtain ⟨htexts, hcomp⟩ := State.textChanged_direct (s := w) hm hl ht s.atBoundary
  have hsw : s.keeps w [.comp, .line, .seq] := fun p hp => by cases p <;> simp_all [State.same]
  exact {
    entries := htexts.entries
    line := htexts.line
    comp := hcomp
    seq := htexts.keeps .seq (by decide)
    drv := htexts.keeps .drv (by decide)
    ret := htexts.keeps .ret (by decide)
    get := htexts.get
    keeps := State.keeps_trans (State.keeps_mono hsw (by decide)) (State.keeps_mono htexts.keeps (by decide))
    follows := by decide }

/-- The state in which the LIFT orders of an entry are appended, but for the position (R100). -/
def State.lifted (s : State) (e : Entry) : State := { s with
  line := s.line.change e.seqNum (fun d => d.lifting (s.liftOrders e).length)
  seq := { s.seq.withQueue (withoutOrders e.seqNum s.seq.queue) with
    queue := withoutOrders e.seqNum s.seq.queue ++ s.liftOrders e } }

theorem State.liftEntry_takesBack (hm : s.comp.modeInEffect = .direct) {e : Entry} (he : e ∈ s.line.entries)
    (hidle : s.seq.state = .idle → (s.lifted e).liftsFirst) :
    s.takesBack (s.lifted e).kick (s.liftEntry e) e [.comp, .line, .seq, .spell, .drv, .ret, .ctr, .window] := by
  set c : Composer := { s.comp with logical := e.pos } with hc
  set w : State := { s.lifted e with comp := c } with hw
  have halike : (s.lifted e).kick.alike w.kick := by
    refine State.alike.kick_lift (s := s.lifted e) (t := w) ?_ hidle
    exact ⟨rfl, rfl, rfl, rfl, rfl, fun _ _ => rfl⟩
  have hline : (s.lifted e).kick.line = (s.lifted e).line := State.kick_lift_keeps hidle .line (by decide)
  have hkeeps : w.keeps w.kick [.seq, .drv, .ret, .ctr] := State.kick_lift_keeps (s := w) hidle
  have hcomp : w.kick.comp = c := hkeeps .comp (by decide)
  have hwline : w.kick.line = (s.lifted e).line := hkeeps .line (by decide)
  have hsw : s.keeps w [.comp, .line, .seq] := fun p hp => by cases p <;> simp_all [State.same, State.lifted]
  have hsk := State.keeps_trans (State.keeps_mono hsw (by decide : _ ⊆ [Part.comp, .line, .seq, .drv, .ret, .ctr]))
    (State.keeps_mono hkeeps (by decide))
  have hlift : s.liftEntry e = State.textChanged s.atBoundary w.kick := rfl
  have hnonempty : w.kick.line.entries ≠ [] := by
    rw [hwline]
    exact List.ne_nil_of_mem (List.mem_map_of_mem he)
  obtain ⟨htexts, hstands⟩ := State.textChanged_of_entries (by rw [hcomp]; exact hm) hnonempty s.atBoundary
  rw [← hlift] at htexts hstands
  generalize w.kick = x at *
  generalize s.liftEntry e = y at *
  exact {
    entries := by rw [htexts.entries, hwline, hline]
    line := by
      rw [htexts.line, hwline]
      rfl
    comp := hstands.trans hcomp
    seq := (htexts.keeps .seq (by decide)).trans halike.seq
    drv := (htexts.keeps .drv (by decide)).trans halike.drv
    ret := (htexts.keeps .ret (by decide)).trans halike.ret
    get := fun k hk => (htexts.get k hk).trans (halike.get k hk)
    keeps := State.keeps_trans (State.keeps_mono hsk (by decide)) (State.keeps_mono htexts.keeps (by decide))
    follows := by decide }

/-! ### The evaluation of the correction keys (R96 to R104) -/

/-- A correction key in DIRECT by the phase in which its run corrects, none without a run. -/
def State.correction (s : State) : Option RunPhase → Eval
  | none => s.directCorrect
  | some p => s.directRun (if p = .word then .spaces else p)

theorem State.correction_of_noTarget {phase : Option RunPhase} (hrun : s.line.run = none) (ht : s.correctTarget = none) :
    s.correction phase = s.refuseCorrect s.noTargetReason := by
  cases phase with
  | none => rw [State.correction, State.directCorrect, ht]
  | some p =>
    rw [State.correction, State.directRun, hrun, State.correctRun, ht]
    rfl

/-- The phase in which a run takes its first target (R102). -/
theorem RunPhase.next_first {p : RunPhase} (hp : p ≠ .spaces) (k : EntryKind) :
    (if p = .word then RunPhase.spaces else p).next k = some (if p = .word ∧ k = .space then .spaces else p) := by
  cases p with
  | spaces => exact absurd rfl hp
  | word => cases k <;> rfl
  | all => cases k <;> rfl

theorem State.correctRun_ends {n : Nat} {q : RunPhase} (h : ∀ d, s.correctTarget = some d → q.next d.kind = none) :
    s.correctRun n ⟨q, true⟩ = .taken s := by
  cases n with
  | zero => rfl
  | succ n =>
    cases ht : s.correctTarget with
    | none =>
      rw [State.correctRun, ht]
      rfl
    | some d =>
      rw [State.correctRun, ht]
      dsimp only
      rw [h d ht]

section Target

variable {phase : Option RunPhase} {e : Entry} (hrun : s.line.run = none) (hphase : phase ≠ some .spaces)
  (ht : s.correctTarget = some e)
include hrun hphase ht

theorem State.correction_of_wait {c : WaitCause} (hstep : s.correctStep e = .wait c) : s.correction phase =
    .waits { s with line := { s.line with
      run := phase.map (fun p => ⟨if p = .word ∧ e.kind = .space then .spaces else p, false⟩) } } c := by
  cases phase with
  | none =>
    rw [State.correction, State.directCorrect, ht]
    dsimp only
    rw [hstep, Option.map_none, ← hrun]
  | some p =>
    rw [State.correction, State.directRun, hrun, Option.getD_none, State.correctRun, ht]
    dsimp only
    rw [RunPhase.next_first (fun h => hphase (congrArg some h))]
    dsimp only
    rw [hstep]
    rfl

theorem State.correction_of_wrongWheel (hstep : s.correctStep e = .wrongWheel) :
    s.correction phase = s.refuseCorrect .wrongWheel := by
  cases phase with
  | none =>
    rw [State.correction, State.directCorrect, ht]
    dsimp only
    rw [hstep]
  | some p =>
    rw [State.correction, State.directRun, hrun, Option.getD_none, State.correctRun, ht]
    dsimp only
    rw [RunPhase.next_first (fun h => hphase (congrArg some h))]
    dsimp only
    rw [hstep]

/-- A step that leaves `t`, after which the run ends. -/
theorem State.correction_of_step
    (hstep : s.correctStep e = .cancel ∧ t = s.cancelEntry e ∨ s.correctStep e = .lift ∧ t = s.liftEntry e)
    (hends : ∀ p, phase = some p → ∀ d, t.correctTarget = some d →
      RunPhase.next (if p = .word ∧ e.kind = .space then .spaces else p) d.kind = none) :
    s.correction phase = .taken t := by
  cases phase with
  | none =>
    rw [State.correction, State.directCorrect, ht]
    rcases hstep with ⟨hstep, rfl⟩ | ⟨hstep, rfl⟩ <;> simp only [hstep]
  | some p =>
    rw [State.correction, State.directRun, hrun, Option.getD_none, State.correctRun, ht]
    dsimp only
    rw [RunPhase.next_first (fun h => hphase (congrArg some h))]
    rcases hstep with ⟨hstep, rfl⟩ | ⟨hstep, rfl⟩ <;> simp only [hstep] <;> exact State.correctRun_ends (hends p rfl)

end Target

/-! ### What the step reads of its target (R92, R99, R100) -/

theorem State.otherWheel_iff (s : State) (e : Entry) : s.otherWheel e = true ↔
    ∃ k ∈ e.strikes, ∃ p w l, k.status = .printed p w l ∧ w ≠ s.seq.wheelCode := by
  unfold State.otherWheel
  rw [List.any_eq_true]
  refine exists_congr fun k => and_congr_right fun _ => ?_
  cases k.status <;> simp

theorem State.liftOrders_eq (s : State) (e : Entry) : s.liftOrders e =
    e.strikes.reverse.filterMap (fun k => k.status.printedAs.map (fun q =>
      Order.lift q.1 q.2.1 k.pos (min 15 (q.2.2 + s.set.correctionOffset)) (some e.seqNum))) := by
  unfold State.liftOrders
  congr 1
  funext k
  cases k.status <;> rfl

/-- An INKED entry with strikes has a strike that was printed (R92). -/
theorem Entry.printed_of_inked {e : Entry} (h : e.state = .inked) (hs : e.strikes ≠ []) :
    ∃ k ∈ e.strikes, ∃ p w l, k.status = .printed p w l := by
  unfold Entry.state at h
  split_ifs at h with hout hflight hink
  have hsub : ∀ k ∈ e.inkStrikes, k ∈ e.strikes := by
    intro k hk
    unfold Entry.inkStrikes at hk
    dsimp only at hk
    split at hk <;> exact List.mem_of_mem_filter hk
  rw [List.isEmpty_eq_false_iff.mpr hs, Bool.false_or, List.any_eq_true] at hink
  obtain ⟨k, hk, hprinted⟩ := hink
  refine ⟨k, hsub k hk, ?_⟩
  unfold StrikeRec.printed at hprinted
  cases hst : k.status <;> simp_all

/-- An entry lifted with the wheel identified has LIFT orders, and only of that wheel (R99, R100). -/
theorem State.liftOrders_first {e : Entry} (h : e.state = .inked) (hs : e.strikes ≠ []) (hw : ¬s.otherWheel e = true) :
    ∃ petal x level ref rest, s.liftOrders e = .lift petal s.seq.wheelCode x level ref :: rest := by
  obtain ⟨k, hk, p, w, l, hprinted⟩ := Entry.printed_of_inked h hs
  have hmem (o : Order) : o ∈ s.liftOrders e → ∃ petal x level ref, o = .lift petal s.seq.wheelCode x level ref := by
    rw [State.liftOrders_eq, List.mem_filterMap]
    rintro ⟨k', hk', ho⟩
    cases hst : k'.status with
    | printed p' w' l' =>
      rw [hst] at ho
      obtain rfl := Option.some.inj ho
      have hsame : w' = s.seq.wheelCode := by
        by_contra hne
        exact hw ((s.otherWheel_iff e).mpr ⟨k', List.mem_reverse.mp hk', p', w', l', hst, hne⟩)
      subst hsame
      exact ⟨_, _, _, _, rfl⟩
    | waiting | inFlight | skipped =>
      rw [hst] at ho
      cases ho
  cases hl : s.liftOrders e with
  | nil =>
    rw [State.liftOrders_eq, List.filterMap_eq_nil_iff] at hl
    have hnone := hl k (List.mem_reverse.mpr hk)
    rw [hprinted] at hnone
    cases hnone
  | cons o rest =>
    obtain ⟨petal, x, level, ref, rfl⟩ := hmem o (by rw [hl]; exact List.mem_cons_self)
    exact ⟨petal, x, level, ref, rest, rfl⟩

section Inked

variable {e : Entry} (h : e.state = .inked) (hs : e.strikes ≠ []) (hw : ¬s.otherWheel e = true)
include h hs hw

theorem State.correctStep_of_full (hfull : 64 < (withoutOrders e.seqNum s.seq.queue).length + (s.liftOrders e).length) :
    s.correctStep e = .wait .room := by
  rw [State.correctStep, h, List.isEmpty_eq_false_iff.mpr hs]
  exact (if_neg (by decide)).trans ((if_neg hw).trans (if_neg hfull.not_ge))

theorem State.correctStep_of_room (hroom : (withoutOrders e.seqNum s.seq.queue).length + (s.liftOrders e).length ≤ 64) :
    s.correctStep e = .lift := by
  rw [State.correctStep, h, List.isEmpty_eq_false_iff.mpr hs]
  exact (if_neg (by decide)).trans ((if_neg hw).trans (if_pos hroom))

theorem State.lifted_liftsFirst (hq : s.seq.queue = []) : (s.lifted e).liftsFirst := by
  obtain ⟨petal, x, level, ref, rest, hlifts⟩ := State.liftOrders_first h hs hw
  refine ⟨petal, x, level, ref, rest, ?_⟩
  show withoutOrders e.seqNum s.seq.queue ++ s.liftOrders e = _
  rw [hq, hlifts]
  rfl

end Inked

section Record

/-! Of the entries of a record whose numbers differ, one alone is taken out or changed. -/

variable {older newer : List Entry} {e : Entry} (hnodup : ((older ++ e :: newer).map Entry.seqNum).Nodup)
include hnodup

theorem seqNum_ne_of_nodup : ∀ d, d ∈ older ∨ d ∈ newer → d.seqNum ≠ e.seqNum := by
  rw [List.map_append, List.map_cons, List.nodup_append] at hnodup
  obtain ⟨-, hcons, hdisjoint⟩ := hnodup
  rintro d (hd | hd) heq
  · exact hdisjoint _ (List.mem_map_of_mem hd) _ List.mem_cons_self heq
  · exact (List.nodup_cons.mp hcons).1 (heq ▸ List.mem_map_of_mem hd)

theorem filter_seqNum_ne : (older ++ e :: newer).filter (fun d => d.seqNum ≠ e.seqNum) = older ++ newer := by
  have hne := seqNum_ne_of_nodup hnodup
  rw [List.filter_append, List.filter_cons_of_neg (by simp), List.filter_eq_self.mpr fun d hd => decide_eq_true (hne d (.inl hd)),
    List.filter_eq_self.mpr fun d hd => decide_eq_true (hne d (.inr hd))]

theorem map_seqNum_eq (f : Entry → Entry) :
    (older ++ e :: newer).map (fun d => if d.seqNum = e.seqNum then f d else d) = older ++ f e :: newer := by
  have hne := seqNum_ne_of_nodup hnodup
  have hself (l : List Entry) (hl : ∀ d ∈ l, d.seqNum ≠ e.seqNum) :
      l.map (fun d => if d.seqNum = e.seqNum then f d else d) = l :=
    (List.map_congr_left fun d hd => if_neg (hl d hd)).trans (List.map_id l)
  rw [List.map_append, List.map_cons, if_pos rfl, hself older fun d hd => hne d (.inl hd), hself newer fun d hd => hne d (.inr hd)]

end Record

/-! ### The keys -/

/-- The three correction keys are one evaluation in DIRECT, by their phase. -/
theorem exec_correction {i : Instr} {f : Func} {phase : Option RunPhase} (hm : s.comp.modeInEffect = .direct)
    (hi : i = .correct ∧ f = .correct ∧ phase = none ∨ i = .wordCorrect ∧ f = .wordCorrect ∧ phase = some .word ∨
      i = .lineCorrect ∧ f = .lineCorrect ∧ phase = some .all) :
    rowOf true (.func f) = some i ∧ s.evalFunc true f = s.correction phase ∧ f ≠ .returnKey ∧ phase ≠ some .spaces := by
  have hcorrect : s.evalCorrect = s.correction none := by rw [State.evalCorrect, hm]; rfl
  have hword : s.evalWordCorrect = s.correction (some .word) := by rw [State.evalWordCorrect, hm]; rfl
  have hall : s.evalLineCorrect = s.correction (some .all) := by rw [State.evalLineCorrect, hm]; rfl
  rcases hi with ⟨rfl, rfl, rfl⟩ | ⟨rfl, rfl, rfl⟩ | ⟨rfl, rfl, rfl⟩
  · exact ⟨rfl, hcorrect, nofun, nofun⟩
  · exact ⟨rfl, hword, nofun, nofun⟩
  · exact ⟨rfl, hall, nofun, nofun⟩

theorem exec_refusesCorrection {i : Instr} {f : Func} {r : CorrectReason} (h : s.turnOf (.func f))
    (hi : rowOf true (.func f) = some i) (hsource : s.comp.source = .localKeys) (hf : f ≠ .returnKey)
    (he : s.evalFunc true f = s.refuseCorrect r) (hrun : s.line.run = none) :
    ∃ t, exec i s = .next t ∧ s.tookKey t (.func f) ∧
      t.comp = { s.comp with override := false } ∧ t.line = s.line ∧
      t.ret = (s.event (.correctRefused r)).ret ∧ t.ctr = (s.event (.correctRefused r)).ctr ∧
      t.disp.beeper = (s.signal .refused).disp.beeper ∧
      s.keeps t [.keyq, .intake, .comp, .line, .ret, .ctr, .beeper, .image] ∧ s.imageFollows t := by
  set w := s.event (.correctRefused r) with hw
  have hkeeps : s.keeps (w.signal .refused) [.ret, .ctr, .beeper] := fun q hq => by cases q <;> simp_all [State.same]
  obtain ⟨t, hx, htook, hcomp, ht, hk, hfollows⟩ := exec_takes_keeping h hi (.inl hsource) hf he
    (State.addsNoWait.of_comp (hkeeps .comp (by decide))) hkeeps (by decide)
  refine ⟨t, hx, htook, ?_, ?_, ?_, ?_, ?_, State.keeps_mono hk (by decide), hfollows⟩
  · rw [hcomp, hkeeps .comp (by decide)]
  · rw [ht.line, hkeeps .line (by decide), ← hrun]
  · exact (ht.keeps .ret (by decide)).trans (by simp [hw])
  · exact (ht.keeps .ctr (by decide)).trans (by simp [hw])
  · exact (ht.keeps .beeper (by decide)).trans
      (congrArg Display.beeper (State.signal_disp_congr (s := s) (t := w) (by simp [hw]) (by simp [hw]) _))

theorem exec_takesBack {i : Instr} {f : Func} {v : State} {e : Entry} {l : List Part} (h : s.turnOf (.func f))
    (hi : rowOf true (.func f) = some i) (hsource : s.comp.source = .localKeys) (hf : f ≠ .returnKey)
    (he : s.evalFunc true f = .taken u) (hu : s.takesBack v u e l) :
    ∃ t, exec i s = .next t ∧ s.tookKey t (.func f) ∧ plain t.line.entries = plain v.line.entries ∧
      t.line.dropped = s.line.dropped ∧ t.line.nextSeq = s.line.nextSeq ∧
      t.comp = { s.comp with logical := e.pos, override := false } ∧ t.seq = v.seq ∧ t.drv = v.drv ∧
      t.ret = v.ret ∧ (∀ k, k ≠ Counter.checksDropped → t.ctr.get k = v.ctr.get k) ∧
      s.keeps t ([.keyq, .intake, .comp, .line, .image] ++ l) ∧ s.imageFollows t := by
  have hwait : s.addsNoWait u := by
    rw [State.addsNoWait, hu.comp]
    exact ⟨rfl, id⟩
  obtain ⟨t, hx, htook, hcomp, ht, hk, hfollows⟩ := exec_takes_keeping h hi (.inl hsource) hf he hwait hu.keeps hu.follows
  refine ⟨t, hx, htook, ?_, ?_, ?_, ?_, (ht.keeps .seq (by decide)).trans hu.seq, (ht.keeps .drv (by decide)).trans hu.drv,
    (ht.keeps .ret (by decide)).trans hu.ret, fun k hne => ?_, hk, hfollows⟩
  · rw [ht.line]
    exact hu.entries
  · rw [ht.line, hu.line]
  · rw [ht.line, hu.line]
  · rw [hcomp, hu.comp]
  · exact (congrArg (fun c => c.get k) (show t.ctr = u.ctr from ht.keeps .ctr (by decide))).trans (hu.get k hne)

/-- Where a run ends after the step on `e`, the next target is none of its own (R102, R103). -/
theorem State.correction_hasEnded {phase : Option RunPhase} {e : Entry} {older l : List Entry}
    (hplain : plain t.line.entries = plain l)
    (hl : lastWhere (fun d => d.state ≠ .lifting) l = lastWhere (fun d => d.state ≠ .lifting) older)
    (hends : phase = none ∨ (phase = some .word ∧ e.kind ≠ .space ∧
        ∃ d, (older.filter (fun d => d.state ≠ .lifting)).getLast? = some d ∧ d.kind = .space) ∨
      (phase.isSome ∧ ∀ d ∈ older, d.state = .lifting)) :
    ∀ p, phase = some p → ∀ d, t.correctTarget = some d →
      RunPhase.next (if p = .word ∧ e.kind = .space then .spaces else p) d.kind = none := by
  intro p hp d hd
  have hnext := State.correctTarget_plain hplain
  rw [hl, hd, lastWhere_eq_getLast?] at hnext
  rcases hends with hnone | ⟨hword, hkind, c, hc, hspace⟩ | ⟨-, hall⟩
  · exact absurd (hp.symm.trans hnone) nofun
  · obtain rfl : p = .word := Option.some.inj (hp.symm.trans hword)
    rw [hc, Option.map_some, Option.map_some] at hnext
    have hplain := Option.some.inj hnext
    obtain ⟨-, -, hsame, -⟩ := Entry.mk.inj hplain
    rw [if_neg fun hs => hkind hs.2, hsame, hspace]
    rfl
  · rw [List.filter_eq_nil_iff.mpr fun c hc => by simp [hall c hc]] at hnext
    cases hnext

/-- Settles O41: the step of the target decides, and a run ends where the next target is none of its own. -/
theorem correctionKeysTakeBackTheNewestEntry : Obligations.CorrectionKeysTakeBackTheNewestEntry := by
  intro s hsource hmode hrun hnodup
  have hm : s.comp.modeInEffect = .direct := by rw [Composer.modeInEffect_local hsource, hmode]
  refine ⟨fun i f phase hcase h => ?_, fun h => ?_⟩
  · obtain ⟨hi, he, hf, hphase⟩ := exec_correction hm hcase
    have hrefuses {r : CorrectReason} (hr : s.correction phase = s.refuseCorrect r) :=
      exec_refusesCorrection h hi hsource hf (he.trans hr) hrun
    have hwaits {c : WaitCause} {w : State} (hw : s.correction phase = .waits w c) : exec i s = .next (w.waitsKey c) := by
      rw [exec_rowOf h hi, State.evalKey_func (.inl hsource), he, hw]
      rfl
    refine ⟨fun hall => ?_, fun older newer e hsplit hnewer => ?_⟩
    · have hnone : s.correctTarget = none := by
        rw [State.correctTarget, lastWhere_eq_getLast?, List.filter_eq_nil_iff.mpr fun e hmem => by simp [hall e hmem]]
        rfl
      exact hrefuses (State.correction_of_noTarget hrun hnone)
    have hlifting : ∀ d ∈ newer, decide (d.state ≠ .lifting) = false := fun d hd => by simp [hnewer d hd]
    have htarget (hst : e.state ≠ .lifting) : s.correctTarget = some e := by
      rw [State.correctTarget, hsplit]
      exact lastWhere_append_cons older (decide_eq_true hst) hlifting
    have hmem : e ∈ s.line.entries := by
      rw [hsplit]
      exact List.mem_append_right _ List.mem_cons_self
    have hnodup' := hsplit ▸ hnodup
    refine ⟨fun hst => ?_, fun hst hwrong => ?_, fun hst hends hlater => ?_, fun hst hstrikes hwheel hfull hnone => ?_,
      fun hst hstrikes hwheel hroom hends hidle => ?_⟩
    · refine hwaits (State.correction_of_wait hrun hphase (htarget (by rw [hst]; decide)) ?_)
      rw [State.correctStep, hst]
    · refine hrefuses (State.correction_of_wrongWheel hrun hphase (htarget (by rw [hst]; decide)) ?_)
      obtain ⟨k, hk, -⟩ := id hwrong
      rw [State.correctStep, hst, List.isEmpty_eq_false_iff.mpr (List.ne_nil_of_mem hk)]
      exact (if_neg (by decide)).trans (if_pos ((s.otherWheel_iff e).mpr hwrong))
    · have hstep : s.correctStep e = .cancel := by
        rcases hst with hst | ⟨hst, hstrikes⟩
        · rw [State.correctStep, hst]
        · rw [State.correctStep, hst, hstrikes]
          rfl
      have htaken := State.cancelEntry_takesBack hm hlater h.1.2.2 e
      have hremoved : (s.line.remove e.seqNum).entries = older ++ newer := by
        rw [LineRecord.remove, hsplit]
        exact filter_seqNum_ne hnodup'
      have heval := State.correction_of_step hrun hphase
        (htarget (by rcases hst with hst | ⟨hst, -⟩ <;> rw [hst] <;> decide)) (.inl ⟨hstep, rfl⟩)
        (State.correction_hasEnded (htaken.entries.trans (congrArg plain hremoved)) (lastWhere_append older hlifting) hends)
      obtain ⟨t, hx, htook, hentries, hdropped, hnext, hcomp, hseq, -, -, hget, hk, hfollows⟩ :=
        exec_takesBack h hi hsource hf (he.trans heval) htaken
      exact ⟨t, hx, htook, hentries, hdropped, hnext, hcomp, hseq, hget, State.keeps_mono hk (by decide), hfollows⟩
    · have hstays : { s with line := { s.line with run := none } } = s := by rw [← hrun]
      have hfull := State.correctStep_of_full hst hstrikes (hwheel ∘ (s.otherWheel_iff e).mp) (by
        rw [State.liftOrders_eq]
        exact hfull)
      have heval := State.correction_of_wait hrun hphase (htarget (by rw [hst]; decide)) hfull
      rw [hnone, Option.map_none, hstays] at heval
      exact hwaits (hnone ▸ heval)
    · have hother := hwheel ∘ (s.otherWheel_iff e).mp
      have hlifts : s.liftOrders e = _ := s.liftOrders_eq e
      have hstep := State.correctStep_of_room hst hstrikes hother (by
        rw [hlifts]
        exact hroom)
      have hfirst := fun hs => State.lifted_liftsFirst hst hstrikes hother (hidle hs)
      have htaken := State.liftEntry_takesBack hm hmem hfirst
      have hkicked : (s.lifted e).kick.line.entries = older ++ e.lifting (s.liftOrders e).length :: newer := by
        rw [show (s.lifted e).kick.line = (s.lifted e).line from State.kick_lift_keeps hfirst .line (by decide)]
        show s.line.entries.map _ = _
        rw [hsplit]
        exact map_seqNum_eq hnodup' _
      have hgone : (e.lifting (s.liftOrders e).length).state = .lifting := by
        obtain ⟨petal, x, level, ref, rest, hcons⟩ := State.liftOrders_first hst hstrikes hother
        rw [hcons]
        exact if_pos (Nat.succ_ne_zero _)
      have hpassed : ∀ d ∈ e.lifting (s.liftOrders e).length :: newer, decide (d.state ≠ .lifting) = false := by
        intro d hd
        rcases List.mem_cons.mp hd with rfl | hd
        · simp [hgone]
        · exact hlifting d hd
      have heval := State.correction_of_step hrun hphase (htarget (by rw [hst]; decide)) (.inr ⟨hstep, rfl⟩)
        (State.correction_hasEnded (htaken.entries.trans (congrArg plain hkicked)) (lastWhere_append older hpassed) hends)
      obtain ⟨t, hx, htook, hentries, hdropped, hnext, hcomp, hseq, hdrv, hret, hget, hk, hfollows⟩ :=
        exec_takesBack h hi hsource hf (he.trans heval) htaken
      unfold State.lifted at hentries hseq hdrv hret hget
      rw [hlifts] at hentries hseq hdrv hret hget
      exact ⟨t, hx, htook, hentries, hdropped, hnext, hcomp, hseq, hdrv, hret, hget, State.keeps_mono hk (by decide), hfollows⟩
  · have hkey : s.evalFunc true .relocate = s.directRelocate := by
      show s.evalRelocate = _
      rw [State.evalRelocate, hm]
    have hx : s.relocation = ((lastWhere (fun e => e.state ≠ .lifting) s.line.entries).map (fun e => e.pos + e.adv)).getD s.comp.left := by
      unfold State.relocation State.correctTarget
      cases lastWhere (fun e => e.state ≠ .lifting) s.line.entries <;> rfl
    rw [← hx]
    set x := s.relocation with hxdef
    refine ⟨fun hfull => ?_, fun hroom hidle => ?_⟩
    · exact exec_waits h rfl ((State.evalKey_func (.inl hsource)).trans (hkey.trans (State.withRoom_of_full (by omega))))
    · set c : Composer := { s.comp with logical := x } with hc
      set w : State := { s with seq := { s.seq with queue := s.seq.queue ++ [.move (min 1559 x)] } } with hw
      have hmove : s.seq.state = .idle → w.seq.queue = [.move (min 1559 x)] := fun hs => by
        rw [hw, hidle hs]
        rfl
      have hrefs : w.seq.state = .idle → ∀ o ∈ w.seq.queue, o.ref = none := fun hs o ho => by
        rw [hmove hs, List.mem_singleton] at ho
        rw [ho]
        rfl
      have hkick : State.appendOrders { s with comp := c } [.move (min lastPosition x)] = { w.kick with comp := c } :=
        State.kick_with_comp (s := w) hrefs c
      have heval : s.evalFunc true .relocate = .taken { w.kick with comp := c } := by
        rw [hkey, ← hkick]
        exact State.withRoom_of_room (by omega)
      have hkicked : w.keeps w.kick [.seq, .drv, .ret, .ctr] := State.kick_keeps hrefs
      have hkeeps : s.keeps { w.kick with comp := c } [.comp, .seq, .drv, .ret, .ctr] :=
        State.keeps_trans (State.keeps_mono (s.keeps_seq _) (by decide)) (State.keeps_trans (State.keeps_mono hkicked (by decide))
          (State.keeps_mono (w.kick.keeps_comp c) (by decide)))
      obtain ⟨t, hx, htook, hcomp, ht, hk, hfollows⟩ := exec_takes_keeping h rfl (.inl hsource) nofun heval
        (State.addsNoWait.trans (t := { s with comp := c }) ⟨rfl, id⟩ (State.addsNoWait.of_comp rfl)) hkeeps (by decide)
      exact ⟨t, hx, htook, ht.keeps .seq (by decide), ht.keeps .drv (by decide), ht.keeps .ret (by decide),
        ht.keeps .ctr (by decide), hcomp, State.keeps_mono hk (by decide), hfollows⟩

end Sys2Proof.Machine
end

section
/-! PROOF of O43 and O34. The release of a composition, the outgoing line, and insertions in LINE. -/

namespace Sys2Proof.Machine

variable {s t u : State}

/-! ### The words that a release judges (R41, R129) -/

/-- The state in which a release is judged: the words within are complete and their checks go on (R41, step 1). -/
def State.completed (s : State) (within : SpellWord → Bool) : State := (s.completeWords within).spellOn

theorem State.completed_eq (s : State) (within : SpellWord → Bool) :
    s.completed within = { s with spell := (s.completed within).spell, ctr := (s.completed within).ctr } := by
  have hcompleted := s.completeWords_frame within
  have hgone := (s.completeWords within).spellOn_frame
  unfold State.completed
  generalize s.completeWords within = t at hcompleted hgone ⊢
  generalize t.spellOn = u at hgone ⊢
  cases s
  cases u
  simp_all

theorem State.completed_get (s : State) (within : SpellWord → Bool) {k : Counter} (hk : k ≠ .checksDropped) :
    (s.completed within).ctr.get k = s.ctr.get k :=
  (State.spellOn_get _ hk).trans (s.completeWords_get within hk)

theorem State.completed_users (s : State) (within : SpellWord → Bool) : (s.completed within).spell.users = s.spell.users := by
  obtain ⟨husers, -, -⟩ := (s.completeWords within).spellOn_lists
  exact husers.trans (State.foldl_checkWord_lists _ _).1

/-- With no sweep and nothing to take up, the Spelling Unit stands (R116, R117). -/
theorem State.spellOn_of_settled (hs : s.spell.sweep = none) (hq : s.spell.engine.isSome ∨ s.spell.checkq = []) : s.spellOn = s := by
  have hpump : s.pumpEngine = s := by
    unfold State.pumpEngine
    cases he : s.spell.engine with
    | some e => rfl
    | none =>
      have hnil : s.spell.checkq = [] := hq.resolve_left (by rw [he]; decide)
      simp only [hnil, takeLookup]
      rw [← hnil, ← he]
  rw [State.spellOn, hpump, State.runSweep, hs]

/-- Words that are complete are not completed again. -/
theorem State.completed_of_settled {within : SpellWord → Bool}
    (h : ∀ w ∈ s.spell.words, w.detached = false → within w = true → w.complete = true)
    (hs : s.spell.sweep = none) (hq : s.spell.engine.isSome ∨ s.spell.checkq = []) : s.completed within = s := by
  have hnone : ∀ w ∈ s.spell.words, ¬(!w.complete && !w.detached && within w) = true := by
    intro w hw hdue
    rw [Bool.and_eq_true, Bool.and_eq_true, Bool.not_eq_true', Bool.not_eq_true'] at hdue
    obtain ⟨⟨hc, hd⟩, hin⟩ := hdue
    rw [h w hw hd hin] at hc
    cases hc
  have hsame : s.completeWords within = s := by
    have hmap : s.spell.words.map (fun (w : SpellWord) =>
        if !w.complete && !w.detached && within w then { w with complete := true } else w) = s.spell.words :=
      (List.map_congr_left fun w hw => if_neg (hnone w hw)).trans (List.map_id _)
    unfold State.completeWords
    dsimp only
    rw [List.filter_eq_nil_iff.mpr hnone, hmap]
    rfl
  rw [State.completed, hsame, State.spellOn_of_settled hs hq]

theorem mem_of_firstInText {l : List SpellWord} {w : SpellWord} (h : firstInText l = some w) : w ∈ l := by
  induction l generalizing w with
  | nil => cases h
  | cons a l ih =>
    rw [firstInText] at h
    cases hl : firstInText l with
    | none =>
      rw [hl] at h
      exact List.mem_cons.mpr (.inl (Option.some.inj h).symm)
    | some v =>
      rw [hl] at h
      dsimp only at h
      split at h
      · exact List.mem_cons.mpr (.inl (Option.some.inj h).symm)
      · exact List.mem_cons_of_mem _ (ih (hl.trans h))

theorem firstInText_of_first {l : List SpellWord} {w : SpellWord} (hw : w ∈ l) (h : ∀ v ∈ l, v ≠ w → w.first < v.first) :
    firstInText l = some w := by
  induction l with
  | nil => cases hw
  | cons a l ih =>
    rw [firstInText]
    by_cases hin : w ∈ l
    · rw [ih hin fun v hv => h v (List.mem_cons_of_mem _ hv)]
      by_cases ha : a = w
      · rw [ha]
        simp
      · have hlt := h a List.mem_cons_self ha
        simp [hlt.not_ge]
    · obtain rfl : w = a := (List.mem_cons.mp hw).resolve_right hin
      cases hl : firstInText l with
      | none => rfl
      | some v =>
        have hv := mem_of_firstInText hl
        have hlt := h v (List.mem_cons_of_mem _ hv) fun heq => hin (heq ▸ hv)
        simp [hlt.le]

/-! ### A release carried out (R41) -/

/-- How a release lays its records out. -/
def State.laidOut (s : State) (recs : List CompRec) : LaidOut :=
  s.applyChoice s.comp.choice recs ((s.natural recs).getD [])

/-- A justification that is abandoned is told (R59). -/
def State.abandons (s : State) (laid : LaidOut) : State :=
  laid.abandoned.elim s fun x => s.event (.justifyAbandoned x.1 x.2)

/-- The records `released` of `s` have become the outgoing line, and `carried` is the composition. -/
structure State.releases (s t : State) (released carried : List CompRec) : Prop where
  alike : State.alike ((s.abandons (s.laidOut released)).raise .lines) t
  recs : plainRecs t.comp.recs = plainRecs carried
  comp : t.comp = { s.comp with
    outgoing := some ⟨s.placementsFrom released 0 (s.laidOut released).placed, s.comp.left, s.set.lineSpacing⟩
    recs := t.comp.recs, cursor := carried.length, choice := s.set.justify, flags := .clear, override := false
    logical := State.cursorPosition { s with comp := { s.comp with recs := carried, cursor := carried.length } } }
  line : t.line = s.line
  users : t.spell.users = s.spell.users
  keeps : s.keeps t [.comp, .ret, .ctr, .spell, .window]

theorem State.abandons_keeps (s : State) (laid : LaidOut) : s.keeps (s.abandons laid) [.ret, .ctr] := by
  unfold State.abandons
  cases laid.abandoned with
  | none => exact fun p _ => by cases p <;> simp [State.same]
  | some x => exact fun p hp => by cases p <;> simp_all [State.same]

theorem State.alike.abandons (h : s.alike t) (laid : LaidOut) : (s.abandons laid).alike (t.abandons laid) := by
  unfold State.abandons
  cases laid.abandoned with
  | none => exact h
  | some x => exact h.event _

/-- The cursor's place is told by the text, the margins, the tab stops and the decimal character (R40, R47). -/
theorem State.cursorPosition_congr (hset : t.set = s.set) (htabs : t.comp.tabs = s.comp.tabs) (hleft : t.comp.left = s.comp.left)
    (hright : t.comp.right = s.comp.right) (hrecs : t.comp.recs = s.comp.recs) (hcursor : t.comp.cursor = s.comp.cursor) :
    t.cursorPosition = s.cursorPosition := by
  unfold State.cursorPosition State.natural
  rw [hset, htabs, hleft, hright, hrecs, hcursor]

theorem State.placementsFrom_congr (h : ∀ recs i c p a, t.recStrikes recs i c p a = s.recStrikes recs i c p a)
    (recs : List CompRec) (l : List (CompRec × Nat × Nat)) : ∀ i, t.placementsFrom recs i l = s.placementsFrom recs i l := by
  induction l with
  | nil => exact fun _ => rfl
  | cons x l ih =>
    obtain ⟨c, p, a⟩ := x
    intro i
    rw [State.placementsFrom, State.placementsFrom, h, ih]

/-- The fresh composition once the words of the released one have gone (R41, step 4). -/
def State.composed (s : State) (out : Outgoing) (carried : List CompRec) : State :=
  let t := (State.raise { s with comp := { s.comp with
    outgoing := some out, recs := [], cursor := 0, choice := s.set.justify, flags := .clear, override := false } } .lines).moveWindow
  State.syncCursor { t with comp := { t.comp with recs := carried, cursor := carried.length } }

theorem State.composed_keeps (s : State) (out : Outgoing) (carried : List CompRec) :
    s.keeps (s.composed out carried) [.comp, .ctr, .window] :=
  fun p hp => by cases p <;> simp_all [State.same, State.composed, State.syncCursor_eq]

theorem State.composed_ctr (s : State) (out : Outgoing) (carried : List CompRec) :
    (s.composed out carried).ctr = s.ctr.raise .lines 1 := by
  simp [State.composed, State.syncCursor_eq]

theorem State.composed_comp {x : State} (hcomp : x.comp = s.comp) (hset : x.set = s.set) (hm : s.comp.modeInEffect = .line)
    (out : Outgoing) (carried : List CompRec) : (x.composed out carried).comp = { s.comp with
      outgoing := some out, recs := carried, cursor := carried.length, choice := s.set.justify, flags := .clear
      override := false
      logical := State.cursorPosition { s with comp := { s.comp with recs := carried, cursor := carried.length } } } := by
  have hplace (t : State) (ht : t.set = s.set) (hc : t.comp = { s.comp with
      outgoing := some out, recs := carried, cursor := carried.length, choice := s.set.justify, flags := .clear
      override := false }) : t.syncCursor.comp = { t.comp with
        logical := State.cursorPosition { s with comp := { s.comp with recs := carried, cursor := carried.length } } } := by
    rw [State.syncCursor_eq, State.followed, if_pos (by rw [hc]; exact hm), State.cursorPosition_congr (t := t)
      (s := { s with comp := { s.comp with recs := carried, cursor := carried.length } }) ht (by rw [hc]) (by rw [hc])
      (by rw [hc]) (by rw [hc]) (by rw [hc])]
  have hnow : ({ x.comp with
      outgoing := some out, recs := carried, cursor := carried.length, choice := x.set.justify, flags := .clear
      override := false } : Composer) = { s.comp with
      outgoing := some out, recs := carried, cursor := carried.length, choice := s.set.justify, flags := .clear
      override := false } := by rw [hcomp, hset]
  unfold State.composed
  refine Eq.trans (hplace _ ?_ ?_) ?_
  · exact hset
  · exact hnow
  · exact congrArg (fun c : Composer => { c with
    logical := State.cursorPosition { s with comp := { s.comp with recs := carried, cursor := carried.length } } }) hnow

theorem State.releaseRecs_eq (s : State) (n : Nat) (carried : List CompRec) :
    let laid := s.laidOut (s.comp.recs.take n)
    s.releaseRecs n carried = (((s.abandons laid).retireWords (fun w => w.last < n)).composed
      ⟨s.placementsFrom (s.comp.recs.take n) 0 laid.placed, s.comp.left, s.set.lineSpacing⟩ carried).followText := by
  intro laid
  have hlaid : s.applyChoice s.comp.choice (s.comp.recs.take n) ((s.natural (s.comp.recs.take n)).getD []) = laid := rfl
  unfold State.releaseRecs State.abandons
  dsimp only
  rw [hlaid]
  cases laid.abandoned with
  | none => rfl
  | some x => rfl

theorem State.retireWords_users (s : State) (within : SpellWord → Bool) :
    (s.retireWords within).spell.users = s.spell.users := by
  simp [State.retireWords, Spelling.keepWords]

theorem State.releaseRecs_releases (hm : s.comp.modeInEffect = .line) (n : Nat) (carried : List CompRec) :
    s.releases (s.releaseRecs n carried) (s.comp.recs.take n) carried := by
  have heq := s.releaseRecs_eq n carried
  dsimp only at heq
  set released := s.comp.recs.take n with hreleased
  set laid := s.laidOut released with hlaid
  set out : Outgoing := ⟨s.placementsFrom released 0 laid.placed, s.comp.left, s.set.lineSpacing⟩ with hout
  set x := (s.abandons laid).retireWords (fun w => w.last < n) with hx
  have hxkeeps : s.keeps x [.ret, .ctr, .spell] := State.keeps_trans
    (State.keeps_mono (s.abandons_keeps laid) (by decide)) fun p hp => by cases p <;> simp_all [State.same]
  have hycomp := State.composed_comp (x := x) (hxkeeps .comp (by decide)) (hxkeeps .set (by decide)) hm out carried
  have hykeeps := State.keeps_trans (State.keeps_mono hxkeeps (by decide : _ ⊆ [Part.comp, .ret, .ctr, .spell, .window]))
    (State.keeps_mono (x.composed_keeps out carried) (by decide))
  have hyspell : (x.composed out carried).spell = x.spell := x.composed_keeps out carried .spell (by decide)
  have halike : (s.abandons laid).alike x := ⟨by simp [hx], by simp [hx], by simp [hx], by simp [hx], by simp [hx],
    fun k hk => State.retireWords_get _ _ hk⟩
  have hxy : (x.raise .lines).alike (x.composed out carried) := by
    have hkeeps := x.composed_keeps out carried
    refine ⟨hkeeps .seq (by decide), hkeeps .drv (by decide), hkeeps .ret (by decide), hkeeps .set (by decide),
      hkeeps.tab (by decide) (by decide) (by decide), fun k _ => ?_⟩
    rw [x.composed_ctr]
    rfl
  rw [heq]
  generalize x.composed out carried = y at *
  have htexts := y.followText_retexts
  have hline : y.followText.line = y.line := by
    have hother := y.trimMarks.respell_other.2 (show y.comp.modeInEffect = .line by rw [hycomp]; exact hm)
    simpa [State.followText, State.moveWindow] using hother
  generalize y.followText = t at *
  have hkeeps : s.keeps t [.comp, .ret, .ctr, .spell, .window, .line] :=
    State.keeps_trans (State.keeps_mono hykeeps (by decide)) (State.keeps_mono htexts.keeps (by decide))
  exact {
    alike := ((halike.raise .lines 1).trans hxy).trans ⟨htexts.keeps .seq (by decide), htexts.keeps .drv (by decide),
      htexts.keeps .ret (by decide), htexts.keeps .set (by decide), htexts.keeps.tab (by decide) (by decide) (by decide),
      htexts.get⟩
    recs := by rw [htexts.recs, hycomp]
    comp := by
      rw [htexts.comp, hycomp]
    line := hline.trans (hykeeps .line (by decide))
    users := by
      rw [htexts.users, hyspell, hx, State.retireWords_users]
      exact congrArg Spelling.users (s.abandons_keeps laid .spell (by decide))
    keeps := fun p hp => by
      by_cases hpl : p = .line
      · subst hpl
        exact hline.trans (hykeeps .line (by decide))
      · exact hkeeps p (by simp_all) }

/-- The words have no part in how a line is laid out. -/
theorem State.releases.of_spell {p : Spelling} {q : Counters} {released carried : List CompRec}
    (h : State.releases { s with spell := p, ctr := q } t released carried) (hu : p.users = s.spell.users)
    (hget : ∀ k, k ≠ Counter.checksDropped → q.get k = s.ctr.get k) : s.releases t released carried := by
  set x : State := { s with spell := p, ctr := q } with hx
  have hlaid : x.laidOut released = s.laidOut released := rfl
  have halike : s.alike x := ⟨rfl, rfl, rfl, rfl, rfl, hget⟩
  have hplaced (l : List (CompRec × Nat × Nat)) : x.placementsFrom released 0 l = s.placementsFrom released 0 l :=
    State.placementsFrom_congr (s := s) (t := x) (fun _ _ _ _ _ => rfl) released l 0
  have hplace : State.cursorPosition { x with comp := { x.comp with recs := carried, cursor := carried.length } } =
      State.cursorPosition { s with comp := { s.comp with recs := carried, cursor := carried.length } } := rfl
  have hsx : s.keeps x [.spell, .ctr] := fun k hk => by cases k <;> simp_all [State.same]
  obtain ⟨hal, hrecs, hcomp, hline, husers, hkeeps⟩ := h
  rw [hlaid] at hal hcomp
  rw [hplaced, hplace] at hcomp
  exact ⟨((halike.abandons _).raise .lines 1).trans hal, hrecs, hcomp, hline, husers.trans hu,
    State.keeps_trans (State.keeps_mono hsx (by decide)) hkeeps⟩

theorem State.completed_releases (hm : s.comp.modeInEffect = .line) (within : SpellWord → Bool) (n : Nat) (carried : List CompRec) :
    s.releases ((s.completed within).releaseRecs n carried) (s.comp.recs.take n) carried := by
  set p := (s.completed within).spell with hp
  set q := (s.completed within).ctr with hq
  have hrelease := State.releaseRecs_releases (s := { s with spell := p, ctr := q }) hm n carried
  have heq : s.completed within = { s with spell := p, ctr := q } := s.completed_eq within
  rw [heq]
  exact hrelease.of_spell (s.completed_users within) fun k hk => s.completed_get within hk

/-! ### The judgement of hold on miss (R129) -/

theorem State.releaseWords_eq (s : State) (n : Nat) : s.releaseWords n =
    s.spell.words.filter (fun w => w.detached = false ∧ w.last < n) := by
  refine List.filter_congr fun w _ => ?_
  cases w.detached <;> simp

theorem State.judgeHold_passes {n : Nat} {override : Bool} (h : s.set.holdOnMiss = false ∨ override = true) :
    s.judgeHold n override = .pass := by
  refine if_pos ?_
  rcases h with h | h <;> simp [h]

section Judged

variable {n : Nat} (hold : s.set.holdOnMiss = true)
include hold

theorem State.judgeHold_of_pending (h : ∃ w ∈ s.releaseWords n, w.verdict = .pending) : s.judgeHold n false = .wait := by
  obtain ⟨w, hw, hp⟩ := h
  rw [State.judgeHold, hold, if_neg (by decide)]
  exact if_pos (List.any_eq_true.mpr ⟨w, hw, decide_eq_true hp⟩)

omit hold in
theorem State.not_pending_iff : ¬((s.releaseWords n).any fun w => w.verdict = .pending) = true ↔
    ∀ w ∈ s.releaseWords n, w.verdict ≠ .pending := by
  rw [List.any_eq_true]
  simp

theorem State.judgeHold_of_miss (hp : ∀ w ∈ s.releaseWords n, w.verdict ≠ .pending) {w : SpellWord}
    (hw : firstInText ((s.releaseWords n).filter fun w => w.verdict = .miss) = some w) :
    s.judgeHold n false = .held w ((s.releaseWords n).filter fun w => w.verdict = .miss).length := by
  rw [State.judgeHold, hold, if_neg (by decide), if_neg (State.not_pending_iff.mpr hp)]
  dsimp only
  rw [hw]

theorem State.judgeHold_of_noMiss (hp : ∀ w ∈ s.releaseWords n, w.verdict ≠ .pending)
    (hm : ∀ w ∈ s.releaseWords n, w.verdict ≠ .miss) : s.judgeHold n false = .pass := by
  rw [State.judgeHold, hold, if_neg (by decide), if_neg (State.not_pending_iff.mpr hp)]
  dsimp only
  rw [List.filter_eq_nil_iff.mpr fun w hw => by simp [hm w hw]]
  rfl

end Judged

section Release

variable {n : Nat} {carried : List CompRec} {fromReturn : Bool}

theorem State.evalRelease_of_outgoing (h : s.comp.outgoing.isSome = true) :
    s.evalRelease n carried fromReturn = .wait s .outgoing := if_pos h

variable (h : s.comp.outgoing = none)
include h

/-- Without an outgoing line a release is judged on the words completed (R41, R129). -/
theorem State.evalRelease_of_free {j : Held}
    (hj : (s.completed fun w => w.last < n).judgeHold n (fromReturn && s.comp.override) = j) :
    let u := s.completed fun w => w.last < n
    (j = .pass → s.evalRelease n carried fromReturn = .done (u.releaseRecs n carried)) ∧
      (j = .wait → s.evalRelease n carried fromReturn = .wait u .verdict) ∧
      ∀ w count, j = .held w count → s.evalRelease n carried fromReturn = .refused (u.holdRelease w count fromReturn) := by
  intro u
  have hcomp : u.comp = s.comp := by simp [u, State.completed]
  rw [State.evalRelease, if_neg (by rw [h]; decide)]
  dsimp only
  rw [show (s.completeWords fun w => w.last < n).spellOn = u from rfl, hcomp, hj]
  refine ⟨?_, ?_, ?_⟩
  · rintro rfl
    rfl
  · rintro rfl
    rfl
  · rintro w count rfl
    rfl

end Release

/-! ### RETURN in LINE -/

/-- RETURN judges the whole composition (R41). -/
theorem State.evalKey_return (hsource : s.comp.source = .localKeys) (hm : s.comp.modeInEffect = .line) :
    (∀ t, s.evalRelease s.comp.recs.length [] true = .done t → s.evalKey true (.func .returnKey) = .taken t) ∧
      (∀ t c, s.evalRelease s.comp.recs.length [] true = .wait t c → s.evalKey true (.func .returnKey) = .waits t c) ∧
      ∀ t, s.evalRelease s.comp.recs.length [] true = .refused t → s.evalKey true (.func .returnKey) = .refused t := by
  have hkey : s.evalKey true (.func .returnKey) = s.evalReturn := State.evalKey_func (.inl hsource)
  rw [hkey, State.evalReturn, hm]
  refine ⟨fun t h => ?_, fun t c h => ?_, fun t h => ?_⟩ <;> rw [h]

/-- A key action that is carried out and taken, whatever it makes of the override flag. -/
theorem drops_of_exec {i : Instr} {a : KeyAction} {paper : Bool} (hx : exec i s = .next ((s.evalKey paper a).finishKey a).formImage)
    (hq : s.quiet) (he : s.evalKey paper a = .taken u) (hw : s.addsNoWait u) :
    ∃ t, exec i s = .next t ∧ t.keyq = s.dropSelected.keyq ∧ t.intake = s.dropSelected.intake ∧ u.takes t a := by
  have hframe := s.evalKey_frame paper a
  rw [he] at hframe hx
  obtain ⟨hk, ht⟩ := hw.quiet hq
  obtain ⟨-, -, -, -, -, hkeyq, -, -, hintake⟩ := hframe
  obtain ⟨hdropq, hdropi⟩ := State.dropSelected_congr (u := u) (s := s) hkeyq hintake
  obtain ⟨htookq, htooki, -⟩ := State.takes.took (s := u) (u := u) (a := a) rfl rfl ht fun _ => rfl
  exact ⟨_, hx, htookq.trans hdropq, htooki.trans hdropi, State.takeKey_takes hk⟩

/-- What a signal makes of the beeper, told by the beeper alone (R138, R139). -/
theorem State.signal_beeper_congr (hs : t.set = s.set) (hd : t.disp.beeper = s.disp.beeper) (g : Pattern) :
    (t.signal g).disp.beeper = (s.signal g).disp.beeper := by
  unfold State.signal
  rw [hs, hd]
  split_ifs with hon
  · cases s.disp.beeper with
    | none => rfl
    | some b =>
      dsimp only
      split_ifs
      · rfl
      · exact hd
  · exact hd

/-- A release held back: the cursor stands after the first such word (R129). -/
theorem State.holdRelease_comp (hm : s.comp.modeInEffect = .line) (w : SpellWord) (count : Nat) :
    (s.holdRelease w count true).comp = { s.comp with
      cursor := w.last + 1, override := true
      logical := State.cursorPosition { s with comp := { s.comp with cursor := w.last + 1 } } } := by
  set x : State := { s.event (.releaseHeld w.num count) with comp := { s.comp with override := true } } with hx
  have hhold : s.holdRelease w count true = x.moveCursor (w.last + 1) := by
    unfold State.holdRelease
    simp [hx]
  rw [hhold, State.moveCursor_line (s := x) hm, State.cursorPosition_congr (t := { x with comp := { x.comp with cursor := w.last + 1 } })
    (s := { s with comp := { s.comp with cursor := w.last + 1 } }) (by simp [hx]) rfl rfl rfl rfl rfl]
  rfl

theorem State.holdRelease_keeps (s : State) (w : SpellWord) (count : Nat) :
    s.keeps (s.holdRelease w count true) [.comp, .ret, .ctr, .window] :=
  fun p hp => by cases p <;> simp_all [State.same, State.holdRelease, State.moveCursor, State.moveWindow, State.syncCursor_eq]

/-- A step before which no item waits: what it does is followed by the image alone (R28). -/
theorem exec_from_quiet {i : Instr} {f : State → State} (hi : ∀ s, exec i s = live s fun s => (f s).settle s) (hq : s.quiet) :
    exec i s = .next (f s).formImage := by
  rw [hi, live_of_running hq.1, State.settle_from_quiet hq]

/-! ### The outgoing line (R42) -/

theorem strikeOrders_ref (ref : Option Word) (l : List Strike) : ∀ n, ∀ o ∈ strikeOrders ref n l, o.ref = ref := by
  induction l with
  | nil => exact fun _ _ ho => absurd ho List.not_mem_nil
  | cons k l ih =>
    intro n o ho
    rcases List.mem_cons.mp ho with rfl | ho
    · rfl
    · exact ih _ o ho

/-- The strikes of a placement in the print queue, before the mechanism starts (R42, R54). -/
def State.streaming (s : State) (m : Placement) : State :=
  let orders := inTravel m.strikes
  let past := (m.strikes.filter (fun k => 1559 < k.pos)).length
  { s with
    seq := { s.seq with
      queue := s.seq.queue ++ strikeOrders none s.seq.nextStrike orders
      nextStrike := s.seq.nextStrike + BitVec.ofNat 16 orders.length }
    ctr := if past = 0 then s.ctr else s.ctr.raise .pastTravel past }

theorem State.appendStrikes_eq (s : State) (m : Placement) (c : Composer) :
    State.appendStrikes { s with comp := c } none m.strikes = { s.streaming m with comp := c } := by
  unfold State.appendStrikes State.streaming
  dsimp only
  rw [pastTravel_eq]
  split <;> rfl

section Placement

variable {m : Placement} {rest : List Placement} {left spacing : Nat}
  (hout : s.comp.outgoing = some ⟨m :: rest, left, spacing⟩)
include hout

theorem State.streamPlacement_of_full (h : 64 < s.seq.queue.length + (inTravel m.strikes).length) : s.streamPlacement = s := by
  rw [State.streamPlacement, hout]
  exact if_neg fun hr => absurd ((State.hasRoom_iff _ _).mp hr) h.not_ge

theorem State.streamPlacement_of_room (h : s.seq.queue.length + (inTravel m.strikes).length ≤ 64)
    (hidle : s.seq.state = .idle → s.seq.queue = []) :
    let u : State := { (s.streaming m).kick with comp := { s.comp with outgoing := some ⟨rest, left, spacing⟩ } }
    s.streamPlacement = u ∧ s.keeps u [.comp, .seq, .ret, .drv, .ctr] := by
  intro u
  have hrefs : (s.streaming m).seq.state = .idle → ∀ o ∈ (s.streaming m).seq.queue, o.ref = none := by
    intro hs o ho
    have ho : o ∈ s.seq.queue ++ strikeOrders none s.seq.nextStrike (inTravel m.strikes) := ho
    rw [hidle hs, List.nil_append] at ho
    exact strikeOrders_ref _ _ _ o ho
  have hstream : s.keeps (s.streaming m) [.seq, .ctr] := fun p hp => by cases p <;> simp_all [State.same, State.streaming]
  refine ⟨?_, ?_⟩
  · rw [State.streamPlacement, hout]
    dsimp only
    rw [if_pos ((State.hasRoom_iff _ _).mpr h), State.appendStrikes_eq, State.kick_with_comp hrefs]
  · exact State.keeps_trans (State.keeps_mono hstream (by decide)) (State.keeps_trans
      (State.keeps_mono (State.kick_keeps hrefs) (by decide)) (State.keeps_mono (State.keeps_comp _ _) (by decide)))

end Placement

section LineEnd

variable {left spacing : Nat} (hout : s.comp.outgoing = some ⟨[], left, spacing⟩)
include hout

theorem State.endOutgoing_of_full (h : 62 < s.seq.queue.length) : s.endOutgoing = s := by
  rw [State.endOutgoing, hout]
  exact if_neg fun hr => absurd ((State.hasRoom_iff _ _).mp hr) (show ¬s.seq.queue.length + 2 ≤ 64 by omega)

theorem State.endOutgoing_of_room (h : s.seq.queue.length ≤ 62) (hidle : s.seq.state = .idle → s.seq.queue = [])
    (hm : s.comp.modeInEffect = .line) :
    let w : State := { s with seq := { s.seq with queue := s.seq.queue ++ [.move left, .index spacing] } }
    let z : State := { w.kick with comp := { s.comp with outgoing := none } }
    s.endOutgoing = (if s.comp.recs = [] then z.reachBoundary else z) ∧ s.keeps z [.comp, .seq, .ret, .drv, .ctr] := by
  intro w z
  have hrefs : w.seq.state = .idle → ∀ o ∈ w.seq.queue, o.ref = none := by
    intro hs o ho
    have ho : o ∈ s.seq.queue ++ [.move left, .index spacing] := ho
    rw [hidle hs] at ho
    fin_cases ho <;> rfl
  have hkick : State.appendOrders { s with comp := { s.comp with outgoing := none } } [.move left, .index spacing] = z :=
    State.kick_with_comp hrefs _
  have hwas : s.atBoundary = false := by
    rw [State.atBoundary, hm, hout]
    exact Bool.and_false _
  have hnow : z.atBoundary = s.comp.recs.isEmpty := by
    rw [State.atBoundary, show z.comp.modeInEffect = .line from hm]
    exact Bool.and_true _
  refine ⟨?_, ?_⟩
  · rw [State.endOutgoing, hout]
    dsimp only
    rw [if_pos ((State.hasRoom_iff _ _).mpr (show s.seq.queue.length + 2 ≤ 64 by omega)), hkick, State.boundaryAfter, hwas, hnow]
    by_cases hempty : s.comp.recs = []
    · rw [hempty]
      rfl
    · rw [List.isEmpty_eq_false_iff.mpr hempty, if_neg hempty]
      rfl
  · exact State.keeps_trans (State.keeps_mono (s.keeps_seq _) (by decide)) (State.keeps_trans
      (State.keeps_mono (State.kick_keeps hrefs) (by decide)) (State.keeps_mono (State.keeps_comp _ _) (by decide)))

end LineEnd

/-- The image follows when it stood until it was formed (R136). -/
theorem State.formImage_follows {l : List Part} (h : s.keeps t l) (hi : .image ∉ l) : s.imageFollows t.formImage := by
  obtain ⟨hcurrent, hslot⟩ := h .image hi
  exact State.imageFollows_formImage hcurrent hslot

/-- Settles O43: `evalRelease` by the judgement of hold on miss, and the outgoing line by the room it needs. -/
theorem releasesBecomeTheOutgoingLine : Obligations.ReleasesBecomeTheOutgoingLine := by
  refine ⟨fun s h hsource hmode => ?_, fun s left spacing hquiet hidle => ⟨fun m rest hout => ?_, fun hout => ?_⟩⟩
  · have hm : s.comp.modeInEffect = .line := (Composer.modeInEffect_local hsource).trans hmode
    have hx := exec_rowOf (paper := true) h (i := .returnKey) rfl
    obtain ⟨hdone, hwait, hrefused⟩ := State.evalKey_return hsource hm
    have hjudged := s.releaseWords_eq s.comp.recs.length
    have hstands (hsettled : (∀ w ∈ s.spell.words.filter (fun w => w.detached = false ∧ w.last < s.comp.recs.length),
        w.complete = true) ∧ s.spell.sweep = none ∧ (s.spell.engine.isSome ∨ s.spell.checkq = [])) :
        (s.completed fun w => w.last < s.comp.recs.length) = s := by
      obtain ⟨hcomplete, hsweep, hengine⟩ := hsettled
      refine State.completed_of_settled (fun w hw hd hin => hcomplete w ?_) hsweep hengine
      exact List.mem_filter.mpr ⟨hw, decide_eq_true ⟨hd, of_decide_eq_true hin⟩⟩
    refine ⟨fun hout => ?_, fun hnone hold hover hsettled => ⟨fun hp => ?_, fun hp w hw hfirst => ?_⟩, fun hnone hpass => ?_⟩
    · exact waits_of_exec hx (hwait _ _ (State.evalRelease_of_outgoing hout))
    · rw [← hjudged] at hp
      have hj := State.judgeHold_of_pending hold hp
      have hs := hstands hsettled
      obtain ⟨-, hrelease, -⟩ := State.evalRelease_of_free (carried := []) (fromReturn := true) hnone (j := .wait)
        (n := s.comp.recs.length) (by rw [hs, hover]; exact hj)
      have hwaits := hrelease rfl
      rw [hs] at hwaits
      exact waits_of_exec hx (hwait _ _ hwaits)
    · rw [← hjudged] at hp hw hfirst ⊢
      have hj := State.judgeHold_of_miss hold hp (firstInText_of_first hw hfirst)
      have hs := hstands hsettled
      set count := ((s.releaseWords s.comp.recs.length).filter fun w => w.verdict = .miss).length with hcount
      obtain ⟨-, -, hrelease⟩ := State.evalRelease_of_free (carried := []) (fromReturn := true) hnone
        (n := s.comp.recs.length) (j := .held w count) (by rw [hs, hover]; exact hj)
      have hrefuses := hrelease _ _ rfl
      rw [hs] at hrefuses
      have hcomp := State.holdRelease_comp hm w count
      have hkeeps := s.holdRelease_keeps w count
      have hret : (s.holdRelease w count true).ret = (s.event (.releaseHeld w.num count)).ret := by
        simp [State.holdRelease, State.moveCursor, State.moveWindow, State.syncCursor_eq]
      have hctr : (s.holdRelease w count true).ctr = (s.event (.releaseHeld w.num count)).ctr := by
        simp [State.holdRelease]
      have heval := hrefused _ hrefuses
      generalize s.holdRelease w count true = y at *
      have hsignal : y.keeps (y.signal .refused) [.beeper] := fun p hp => by cases p <;> simp_all [State.same]
      have hsy : s.keeps (y.signal .refused) [.comp, .ret, .ctr, .window, .beeper] :=
        State.keeps_trans (State.keeps_mono hkeeps (by decide)) (State.keeps_mono hsignal (by decide))
      have hwaits : s.addsNoWait (y.signal .refused) := by
        rw [State.addsNoWait, hsignal .comp (by decide), hcomp]
        exact ⟨rfl, id⟩
      obtain ⟨t, hx, hkeyq, hintake, ht⟩ := drops_of_exec hx h.1 (u := y.signal .refused) heval hwaits
      refine ⟨t, hx, hkeyq, hintake, ?_, ?_, ?_, ?_, ?_, ht.keepsAll hsy (by decide) (by decide), ht.followsFrom hsy (by decide)⟩
      · rw [ht.comp, hsignal .comp (by decide), hcomp]
        rfl
      · rw [ht.line, hsy .line (by decide)]
      · exact (ht.keeps .ret (by decide)).trans ((hsignal .ret (by decide)).trans hret)
      · exact (ht.keeps .ctr (by decide)).trans ((hsignal .ctr (by decide)).trans hctr)
      · exact (ht.keeps .beeper (by decide)).trans
          (State.signal_beeper_congr (hkeeps .set (by decide)) (hkeeps .beeper (by decide)) _)
    · have hj : (s.completed fun w => w.last < s.comp.recs.length).judgeHold s.comp.recs.length (true && s.comp.override) = .pass := by
        rw [Bool.true_and]
        rcases hpass with hoff | hover | ⟨hsettled, hgood⟩
        · exact State.judgeHold_passes (.inl (by simpa [State.completed] using hoff))
        · exact State.judgeHold_passes (.inr hover)
        · rw [← hjudged] at hgood
          rw [hstands hsettled]
          cases hhold : s.set.holdOnMiss with
          | false => exact State.judgeHold_passes (.inl hhold)
          | true =>
            cases s.comp.override with
            | true => exact State.judgeHold_passes (.inr rfl)
            | false => exact State.judgeHold_of_noMiss hhold (fun w hw => (hgood w hw).1) fun w hw => (hgood w hw).2
      obtain ⟨hrelease, -, -⟩ := State.evalRelease_of_free (carried := []) (fromReturn := true) hnone hj
      have heval := hdone _ (hrelease rfl)
      have hreleases := State.completed_releases hm (fun w => w.last < s.comp.recs.length) s.comp.recs.length []
      generalize (s.completed fun w => w.last < s.comp.recs.length).releaseRecs s.comp.recs.length [] = y at *
      rw [List.take_length] at hreleases
      obtain ⟨halike, hrecs, hcomp, hline, husers, hkeeps⟩ := hreleases
      have hwaits : s.addsNoWait y := by
        rw [State.addsNoWait, hcomp]
        exact ⟨rfl, id⟩
      obtain ⟨t, hx, hkeyq, hintake, ht⟩ := drops_of_exec hx h.1 heval hwaits
      have hempty : y.comp.recs = [] := List.map_eq_nil_iff.mp hrecs
      have hret : t.ret = (s.abandons (s.laidOut s.comp.recs)).ret := (ht.keeps .ret (by decide)).trans halike.ret
      refine ⟨t, hx, hkeyq, hintake, ?_, fun habandoned => ⟨?_, fun k hk => ?_⟩, fun n x habandoned => ?_, ?_, ?_,
        ht.keepsAll hkeeps (by decide) (by decide), ht.followsFrom hkeeps (by decide)⟩
      · rw [ht.comp, hcomp, hempty, State.cursorPosition_of_empty rfl]
        rfl
      · rw [hret, State.abandons, show (s.laidOut s.comp.recs).abandoned = none from habandoned]
        rfl
      · rw [show t.ctr = y.ctr from ht.keeps .ctr (by decide), halike.get k hk, State.abandons,
          show (s.laidOut s.comp.recs).abandoned = none from habandoned]
        rfl
      · rw [hret, State.abandons, show (s.laidOut s.comp.recs).abandoned = some (n, x) from habandoned]
        rfl
      · rw [ht.line, hline]
      · rw [show t.spell = y.spell from ht.keeps .spell (by decide), husers]
  · have hx := exec_from_quiet (i := .outgoingPlacementAppended) (f := State.streamPlacement) (fun _ => rfl) hquiet
    refine ⟨fun hfull => ?_, fun hroom => ?_⟩
    · rw [hx, State.streamPlacement_of_full hout hfull]
    · set c : Composer := { s.comp with outgoing := some ⟨rest, left, spacing⟩ } with hc
      obtain ⟨hstream, hkeeps⟩ := State.streamPlacement_of_room hout hroom hidle
      rw [hstream] at hx
      have hfinal := State.keeps_formImage { (s.streaming m).kick with comp := c }
      have hcomp := hfinal .comp (by decide)
      exact ⟨_, hx, hfinal .seq (by decide), hfinal .ret (by decide), hfinal .drv (by decide), hfinal .ctr (by decide),
        hcomp, State.keeps_trans (State.keeps_mono hkeeps (by decide)) (State.keeps_mono hfinal (by decide)),
        State.formImage_follows hkeeps (by decide)⟩
  · have hx := exec_from_quiet (i := .outgoingLineEnd) (f := State.endOutgoing) (fun _ => rfl) hquiet
    refine ⟨fun hfull => ?_, fun hroom hsource hmode => ?_⟩
    · rw [hx, State.endOutgoing_of_full hout hfull]
    · have hm : s.comp.modeInEffect = .line := (Composer.modeInEffect_local hsource).trans hmode
      set c : Composer := { s.comp with outgoing := none } with hc
      obtain ⟨hend, hkeeps⟩ := State.endOutgoing_of_room hout hroom hidle hm
      rw [hend] at hx
      set w : State := { s with seq := { s.seq with queue := s.seq.queue ++ [.move left, .index spacing] } } with hw
      set z : State := { w.kick with comp := c } with hz
      have hafter {y : State} (hy : z.keeps y [.comp, .line, .ctr, .spell, .window])
          (hx : exec .outgoingLineEnd s = .next y.formImage) :
          exec .outgoingLineEnd s = .next y.formImage ∧ y.formImage.seq = w.kick.seq ∧ y.formImage.ret = w.kick.ret ∧
            y.formImage.drv = w.kick.drv ∧
            s.keeps y.formImage [.comp, .line, .seq, .ret, .drv, .ctr, .spell, .window, .image] ∧
            s.imageFollows y.formImage := by
        have hsy : s.keeps y [.comp, .line, .seq, .ret, .drv, .ctr, .spell, .window] :=
          State.keeps_trans (State.keeps_mono hkeeps (by decide)) (State.keeps_mono hy (by decide))
        have hfinal := State.keeps_formImage y
        exact ⟨hx, (hfinal .seq (by decide)).trans (hy .seq (by decide)), (hfinal .ret (by decide)).trans (hy .ret (by decide)),
          (hfinal .drv (by decide)).trans (hy .drv (by decide)),
          State.keeps_trans (State.keeps_mono hsy (by decide)) (State.keeps_mono hfinal (by decide)),
          State.formImage_follows hsy (by decide)⟩
      have hline : z.line = s.line := hkeeps .line (by decide)
      by_cases hempty : s.comp.recs = []
      · rw [if_pos hempty] at hx
        obtain ⟨hx, hseq, hret, hdrv, hk, hfollows⟩ := hafter z.keeps_reachBoundary hx
        obtain ⟨hentries, hget⟩ := z.reachBoundary_text
        have hfinal := State.keeps_formImage z.reachBoundary
        refine ⟨_, hx, hseq, hret, hdrv, fun k hne => ?_, fun _ => ⟨?_, ?_⟩, fun hno => absurd hempty hno, ?_, hk, hfollows⟩
        · rw [show z.reachBoundary.formImage.ctr = z.reachBoundary.ctr from hfinal .ctr (by decide)]
          exact hget k hne
        · refine (hfinal .comp (by decide)).trans (z.reachBoundary_comp.trans ?_)
          rw [show z.set = s.set from hkeeps .set (by decide)]
        · exact (hfinal .window (by decide)).trans (congrArg Display.window z.reachBoundary_window)
        · rw [show z.reachBoundary.formImage.line = z.reachBoundary.line from hfinal .line (by decide), hentries, hline]
      · rw [if_neg hempty] at hx
        obtain ⟨hx, hseq, hret, hdrv, hk, hfollows⟩ := hafter (fun p _ => by cases p <;> simp [State.same]) hx
        have hfinal := State.keeps_formImage z
        refine ⟨_, hx, hseq, hret, hdrv, fun k hne => ?_, fun hno => absurd hno hempty, fun _ => ⟨hfinal .comp (by decide), ?_⟩, ?_,
          hk, hfollows⟩
        · rw [show z.formImage.ctr = z.ctr from hfinal .ctr (by decide)]
        · exact (hfinal .window (by decide)).trans (hkeeps .window (by decide))
        · rw [show z.formImage.line = z.line from hfinal .line (by decide), hline]

end Sys2Proof.Machine
end

section
/-! PROOF of O34. Insertions in LINE and word wrap. -/

namespace Sys2Proof.Machine

variable {s t u : State}

/-! ### The layout does not read the word references (R56 to R58) -/

theorem decimalWidth_plain (dec : Byte) (l : List CompRec) :
    decimalWidth dec (decimalSegment (plainRecs l)) = decimalWidth dec (decimalSegment l) := by
  have hseg : decimalSegment (plainRecs l) = plainRecs (decimalSegment l) := List.takeWhile_map
  have hdec (l : List CompRec) : (plainRecs l).takeWhile (fun c => !(c.kind = .char && c.code = dec)) =
      plainRecs (l.takeWhile fun c => !(c.kind = .char && c.code = dec)) := List.takeWhile_map
  have hsum (l : List CompRec) : advSum (plainRecs l) = advSum l := congrArg List.sum List.map_map
  rw [hseg, decimalWidth, hdec, hsum]
  rfl

theorem naturalFrom_plain (tabs : List TabStop) (dec : Byte) (r : Nat) (l : List CompRec) :
    ∀ x, naturalFrom tabs dec r x (plainRecs l) = naturalFrom tabs dec r x l := by
  induction l with
  | nil => exact fun _ => rfl
  | cons c l ih =>
    intro x
    show naturalFrom tabs dec r x ({ c with word := none } :: plainRecs l) = _
    rw [naturalFrom, naturalFrom, decimalWidth_plain]
    simp only [ih]

theorem State.natural_plain (s : State) (l : List CompRec) : s.natural (plainRecs l) = s.natural l :=
  naturalFrom_plain _ _ _ l _

theorem naturalWidth_eq (left : Nat) (l : List CompRec) (places : List (Nat × Nat)) : naturalWidth left l places =
    (lastWhere (fun x => decide (x.1.kind ≠ RecKind.space)) (l.zip places)).elim 0 fun x => x.2.2 - left := by
  unfold naturalWidth
  cases lastWhere (fun x => decide (x.1.kind ≠ RecKind.space)) (l.zip places) with
  | none => simp only [Option.elim_none]
  | some x => simp only [Option.elim_some]

theorem naturalWidth_plain (left : Nat) (l : List CompRec) (places : List (Nat × Nat)) :
    naturalWidth left (plainRecs l) places = naturalWidth left l places := by
  have hzip : (plainRecs l).zip places = (l.zip places).map fun x => ({ x.1 with word := none }, x.2) := List.zip_map_left
  have hlast := lastWhere_map (fun x : CompRec × Nat × Nat => (({ x.1 with word := none } : CompRec), x.2))
    (p := fun x => decide (x.1.kind ≠ RecKind.space)) (q := fun x => decide (x.1.kind ≠ RecKind.space)) (fun _ => rfl) (l.zip places)
  rw [naturalWidth_eq, naturalWidth_eq, hzip, hlast]
  cases lastWhere (fun x => decide (x.1.kind ≠ RecKind.space)) (l.zip places) <;> rfl

section Plain

variable {recs l : List CompRec} (h : plainRecs recs = plainRecs l)
include h

theorem State.natural_congr (s : State) : s.natural recs = s.natural l := by
  rw [← s.natural_plain recs, h, s.natural_plain]

theorem State.fits_congr (s : State) : s.fits recs = s.fits l := by
  unfold State.fits
  rw [State.natural_congr h]
  cases s.natural l with
  | none => rfl
  | some places =>
    dsimp only
    rw [← naturalWidth_plain _ recs, h, naturalWidth_plain]

end Plain

/-- The place of a record is told by the text, the margins, the tab stops and the decimal character (R56). -/
theorem State.placeOf_congr (hset : t.set = s.set) (htabs : t.comp.tabs = s.comp.tabs) (hleft : t.comp.left = s.comp.left)
    (hright : t.comp.right = s.comp.right) (hrecs : plainRecs t.comp.recs = plainRecs s.comp.recs) (i : Nat) :
    t.placeOf i = s.placeOf i := by
  have hnat : t.natural t.comp.recs = s.natural s.comp.recs := by
    rw [State.natural_congr hrecs]
    unfold State.natural
    rw [hset, htabs, hleft, hright]
  unfold State.placeOf
  rw [hnat, hleft]

theorem State.cursorPosition_plain (hset : t.set = s.set) (htabs : t.comp.tabs = s.comp.tabs) (hleft : t.comp.left = s.comp.left)
    (hright : t.comp.right = s.comp.right) (hrecs : plainRecs t.comp.recs = plainRecs s.comp.recs)
    (hcursor : t.comp.cursor = s.comp.cursor) : t.cursorPosition = s.cursorPosition := by
  have hnat : t.natural t.comp.recs = s.natural s.comp.recs := by
    rw [State.natural_congr hrecs]
    unfold State.natural
    rw [hset, htabs, hleft, hright]
  unfold State.cursorPosition
  rw [hnat, hleft, hcursor]

/-! ### An insertion judged (R39, R46) -/

theorem insertAt_eq {α : Type} (l : List α) (a : α) : ∀ n ≤ l.length, insertAt l n a = l.take n ++ [a] ++ l.drop n := by
  induction l with
  | nil =>
    intro n hn
    obtain rfl := Nat.le_zero.mp hn
    rfl
  | cons b l ih =>
    intro n hn
    cases n with
    | zero => rfl
    | succ n => exact congrArg (b :: ·) (ih n (Nat.le_of_succ_le_succ hn))

section Insertion

variable {c : CompRec}

theorem State.judgeInsert_of_fits (hroom : s.comp.recs.length < 200) (h : s.fits (s.withRec c) = true) : s.judgeInsert c = .fits := by
  rw [State.judgeInsert, if_neg (show ¬recPlaces ≤ s.comp.recs.length from hroom.not_ge)]
  unfold State.fits at h
  cases hn : s.natural (s.withRec c) with
  | none =>
    rw [hn] at h
    cases h
  | some places =>
    rw [hn] at h
    exact if_pos (of_decide_eq_true h)

theorem State.judgeInsert_of_overflow
    (h : 200 ≤ s.comp.recs.length ∨ s.natural (s.withRec c) ≠ none ∧ s.fits (s.withRec c) = false) : s.judgeInsert c = .overflow := by
  by_cases hfull : 200 ≤ s.comp.recs.length
  · exact if_pos hfull
  obtain ⟨hn, hf⟩ := h.resolve_left hfull
  rw [State.judgeInsert, if_neg (show ¬recPlaces ≤ s.comp.recs.length from hfull)]
  unfold State.fits at hf
  cases hp : s.natural (s.withRec c) with
  | none => exact absurd hp hn
  | some places =>
    rw [hp] at hf
    exact if_neg (of_decide_eq_false hf)

theorem State.judgeInsert_of_noStop (hroom : s.comp.recs.length < 200) (h : s.natural (s.withRec c) = none) :
    s.judgeInsert c = .fails := by
  rw [State.judgeInsert, if_neg (show ¬recPlaces ≤ s.comp.recs.length from hroom.not_ge), h]

theorem State.insertOrRefuse_of_fits (h : s.judgeInsert c = .fits) : s.insertOrRefuse c = .taken (s.insertRec c) := by
  rw [State.insertOrRefuse, h]

/-- What does not fit the line or its records does not go in. -/
theorem State.insertOrRefuse_of_not_fits (h : ¬(s.comp.recs.length < 200 ∧ s.fits (s.withRec c) = true)) :
    s.insertOrRefuse c = .refused s := by
  have hjudge : s.judgeInsert c = .overflow ∨ s.judgeInsert c = .fails := by
    by_cases hfull : 200 ≤ s.comp.recs.length
    · exact .inl (State.judgeInsert_of_overflow (.inl hfull))
    have hroom := Nat.lt_of_not_le hfull
    by_cases hn : s.natural (s.withRec c) = none
    · exact .inr (State.judgeInsert_of_noStop hroom hn)
    · exact .inl (State.judgeInsert_of_overflow (.inr ⟨hn, by simpa [hroom] using h⟩))
  rw [State.insertOrRefuse]
  rcases hjudge with hj | hj <;> rw [hj]

end Insertion

/-! ### A record inserted (R39, R33) -/

theorem State.alike.signal (h : s.alike t) (g : Pattern) : s.alike (t.signal g) :=
  h.trans ⟨by simp, by simp, by simp, by simp, by simp, fun k _ => by simp⟩

theorem State.alike.rung (h : s.alike t) (p : Nat) : (s.rung p).alike (t.rung p) := by
  have hs : (s.signal .bell).alike s := State.alike.symm (State.alike.signal ⟨rfl, rfl, rfl, rfl, rfl, fun _ _ => rfl⟩ .bell)
  exact (hs.trans (h.signal .bell)).event _

theorem State.rung_beeper_congr (hs : t.set = s.set) (hd : t.disp.beeper = s.disp.beeper) (p : Nat) :
    (t.rung p).disp.beeper = (s.rung p).disp.beeper := by
  have hsignal := State.signal_beeper_congr hs hd .bell
  simpa [State.rung] using hsignal

/-- The record `c` has gone in at the cursor of `s`; the signals and events are those of `v`. -/
structure State.inserts (s v t : State) (recs : List CompRec) (flags : LineFlags) : Prop where
  alike : v.alike t
  beeper : t.disp.beeper = v.disp.beeper
  text : plainRecs t.comp.recs = plainRecs recs
  comp : t.comp = { s.comp with
    recs := t.comp.recs, cursor := s.comp.cursor + 1, flags := flags
    logical := State.cursorPosition { s with comp := { s.comp with recs := recs, cursor := s.comp.cursor + 1 } } }
  line : t.line = s.line
  users : t.spell.users = s.spell.users
  keeps : s.keeps t [.comp, .ret, .ctr, .spell, .window, .beeper]

/-- With a record in the composition LINE is at no line boundary, so the text alone follows (R25). -/
theorem State.textChanged_of_recs (hm : s.comp.modeInEffect = .line) (hr : s.comp.recs ≠ []) (was : Bool) :
    s.retexts (s.textChanged was) ∧ (s.textChanged was).line = s.line := by
  have hfollow := s.followText_retexts
  have hbound : s.followText.atBoundary = false := by
    rw [hfollow.atBoundary, State.atBoundary, hm]
    simp [List.isEmpty_eq_false_iff.mpr hr]
  have hstands : s.textChanged was = s.followText := by
    unfold State.textChanged State.boundaryAfter
    rw [hbound, Bool.and_false]
    rfl
  have hline : s.followText.line = s.line := by
    have hother := s.trimMarks.respell_other.2 hm
    simpa [State.followText, State.moveWindow] using hother
  rw [hstands]
  exact ⟨hfollow, hline⟩

theorem State.insertRec_inserts (hm : s.comp.modeInEffect = .line) (c : CompRec) (hcursor : s.comp.cursor ≤ s.comp.recs.length)
    {bell : Prop} [Decidable bell] :
    let recs := s.withRec c
    let p := State.placeOf { s with comp := { s.comp with recs := recs, cursor := s.comp.cursor + 1 } } s.comp.cursor
    (bell ↔ (c.kind = .char ∨ c.kind = .dead) ∧ s.nearMargin p) →
    s.inserts (if bell then s.rung p else s) (s.insertRec c) recs
      (if bell then { s.comp.flags with hotZone := true } else s.comp.flags) := by
  intro recs p hbell
  set u : State := { s with comp := { s.comp with recs := recs, cursor := s.comp.cursor + 1 } } with hu
  set y : State := { s with comp := { s.comp with recs := recs, cursor := s.comp.cursor + 1, logical := u.cursorPosition } } with hy
  have hnonempty : y.comp.recs ≠ [] := by
    show s.withRec c ≠ []
    rw [State.withRec, insertAt_eq _ _ _ hcursor]
    simp
  have hedit : s.editRecs recs (s.comp.cursor + 1) = y.textChanged s.atBoundary := by
    rw [State.editRecs, State.syncCursor_eq, State.followed, if_pos (show u.comp.modeInEffect = .line from hm)]
  obtain ⟨htexts, hline⟩ := State.textChanged_of_recs (s := y) hm hnonempty s.atBoundary
  rw [← hedit] at htexts hline
  have hinsert : s.insertRec c = if c.kind = .char ∨ c.kind = .dead then
      (s.editRecs recs (s.comp.cursor + 1)).hotZoneCheck ((s.editRecs recs (s.comp.cursor + 1)).placeOf s.comp.cursor)
    else s.editRecs recs (s.comp.cursor + 1) := rfl
  rw [hinsert]
  generalize s.editRecs recs (s.comp.cursor + 1) = x at *
  have hxset : x.set = s.set := htexts.keeps .set (by decide)
  have hxcomp := htexts.comp
  have hplace : x.placeOf s.comp.cursor = p := State.placeOf_congr (t := x) (s := u) hxset (by rw [hxcomp]) (by rw [hxcomp])
    (by rw [hxcomp]) htexts.recs _
  have halike : s.alike x := ⟨htexts.keeps .seq (by decide), htexts.keeps .drv (by decide), htexts.keeps .ret (by decide),
    hxset, htexts.keeps.tab (by decide) (by decide) (by decide), htexts.get⟩
  have hsy : s.keeps y [.comp] := s.keeps_comp _
  have hsx : s.keeps x [.comp, .ctr, .spell, .window] := fun q hq => by
    by_cases hl : q = .line
    · subst hl
      exact hline
    · exact State.keeps_trans (State.keeps_mono hsy (by decide : _ ⊆ [Part.comp, .ctr, .spell, .window, .line]))
        (State.keeps_mono htexts.keeps (by decide)) q (by simp_all)
  have hnear : x.nearMargin p ↔ s.nearMargin p := by rw [State.nearMargin, hxcomp]
  rw [hplace]
  by_cases hb : bell
  · obtain ⟨hkind, hn⟩ := hbell.mp hb
    rw [if_pos hkind, State.hotZoneCheck_of_near (hnear.mpr hn), if_pos hb, if_pos hb]
    have hrung := x.keeps_rung p
    exact {
      alike := (halike.rung p).trans ⟨rfl, rfl, rfl, rfl, rfl, fun _ _ => rfl⟩
      beeper := State.rung_beeper_congr hxset (hsx .beeper (by decide)) p
      text := htexts.recs
      comp := by rw [hxcomp]
      line := (hrung .line (by decide)).trans hline
      users := (congrArg Spelling.users (hrung .spell (by decide))).trans htexts.users
      keeps := State.keeps_trans (State.keeps_mono hsx (by decide)) (State.keeps_trans (State.keeps_mono hrung (by decide))
        (State.keeps_mono (State.keeps_comp _ _) (by decide))) }
  · have hstands : (if c.kind = .char ∨ c.kind = .dead then x.hotZoneCheck p else x) = x := by
      by_cases hkind : c.kind = .char ∨ c.kind = .dead
      · rw [if_pos hkind, State.hotZoneCheck_of_not_near fun hn => hb (hbell.mpr ⟨hkind, hnear.mp hn⟩)]
      · rw [if_neg hkind]
    rw [hstands, if_neg hb, if_neg hb]
    exact {
      alike := halike
      beeper := hsx .beeper (by decide)
      text := htexts.recs
      comp := by rw [hxcomp]
      line := hline
      users := htexts.users
      keeps := State.keeps_mono hsx (by decide) }

/-! ### The break of a line (R43) -/

theorem lastIndexWhere_append {α : Type} {p : α → Bool} {d : α} {r : List α} (l : List α) (hd : p d = true)
    (hr : ∀ x ∈ r, p x = false) : lastIndexWhere p (l ++ d :: r) = some l.length := by
  have hnone : ∀ r : List α, (∀ x ∈ r, p x = false) → lastIndexWhere p r = none := by
    intro r
    induction r with
    | nil => exact fun _ => rfl
    | cons a r ih =>
      intro h
      rw [lastIndexWhere, ih fun x hx => h x (List.mem_cons_of_mem _ hx)]
      exact if_neg (by rw [h a List.mem_cons_self]; decide)
  induction l with
  | nil =>
    rw [List.nil_append, lastIndexWhere, hnone r hr]
    exact if_pos hd
  | cons a l ih =>
    rw [List.cons_append, lastIndexWhere, ih]
    rfl

theorem lastIndexWhere_split {α : Type} {p : α → Bool} {l : List α} {i : Nat} (h : lastIndexWhere p l = some i) :
    ∃ a d b, l = a ++ d :: b ∧ a.length = i ∧ p d = true := by
  induction l generalizing i with
  | nil => cases h
  | cons x l ih =>
    rw [lastIndexWhere] at h
    cases hl : lastIndexWhere p l with
    | some j =>
      rw [hl] at h
      obtain rfl := Option.some.inj h
      obtain ⟨a, d, b, rfl, rfl, hd⟩ := ih hl
      exact ⟨x :: a, d, b, rfl, rfl, hd⟩
    | none =>
      rw [hl] at h
      dsimp only at h
      split at h
      case isTrue hx =>
        obtain rfl := Option.some.inj h
        exact ⟨[], x, l, rfl, rfl, hx⟩
      case isFalse => cases h

/-- Where no record but a space stands before a space there is no break (R43). -/
theorem wrapBreak_of_leading {recs : List CompRec}
    (h : ∀ l d r, recs = l ++ d :: r → d.kind = .space → ∀ b ∈ l, b.kind = .space) : wrapBreak recs = none := by
  unfold wrapBreak
  cases hi : lastIndexWhere (fun c => decide (c.kind = RecKind.space)) recs with
  | none => rfl
  | some i =>
    obtain ⟨a, d, b, hsplit, rfl, hd⟩ := lastIndexWhere_split hi
    have hall := h a d b hsplit (of_decide_eq_true hd)
    have htake : recs.take a.length = a := by rw [hsplit, List.take_left]
    refine if_neg ?_
    rw [htake, List.any_eq_true]
    rintro ⟨x, hx, hne⟩
    exact of_decide_eq_true hne (hall x hx)

section Break

variable {recs released spaces carried : List CompRec} {b : CompRec} (hsplit : recs = released ++ spaces ++ carried)
  (hlast : released.getLast? = some b) (hb : b.kind ≠ .space) (hne : spaces ≠ []) (hspaces : ∀ d ∈ spaces, d.kind = .space)
  (hcarried : ∀ d ∈ carried, d.kind ≠ .space)
include hsplit hlast hb hne hspaces hcarried

/-- The break is the last of the spaces; before them stands what is released, after them what is carried (R43). -/
theorem wrapBreak_eq : ∃ i, wrapBreak recs = some i ∧ recs.drop (i + 1) = carried ∧
    releasedCount recs i = released.length := by
  obtain ⟨front, d, rfl⟩ : ∃ front d, spaces = front ++ [d] := ⟨_, _, (List.dropLast_append_getLast hne).symm⟩
  have hd : d.kind = .space := hspaces d (by simp)
  have hrecs : recs = (released ++ front) ++ d :: carried := by rw [hsplit]; simp
  have htake : recs.take (released ++ front).length = released ++ front := by rw [hrecs, List.take_left]
  refine ⟨(released ++ front).length, ?_, ?_, ?_⟩
  · have hindex := lastIndexWhere_append (p := fun c => decide (c.kind = RecKind.space)) (released ++ front) (decide_eq_true hd)
      fun x hx => decide_eq_false (hcarried x hx)
    rw [← hrecs] at hindex
    unfold wrapBreak
    rw [hindex]
    dsimp only
    rw [htake]
    refine if_pos (List.any_eq_true.mpr ⟨b, ?_, decide_eq_true hb⟩)
    exact List.mem_append_left _ (List.mem_of_getLast? hlast)
  · rw [show recs = (released ++ front ++ [d]) ++ carried by rw [hrecs]; simp]
    exact List.drop_left' (by simp [Nat.add_assoc])
  · have hdrop : ∀ l : List CompRec, (∀ x ∈ l, x.kind = .space) →
        (l ++ released.reverse).dropWhile (fun c => decide (c.kind = RecKind.space)) = released.reverse := by
      intro l hl
      obtain ⟨init, rfl⟩ := List.getLast?_eq_some_iff.mp hlast
      rw [List.dropWhile_append_of_pos fun x hx => decide_eq_true (hl x hx), List.reverse_append]
      exact List.dropWhile_cons_of_neg (by simpa using hb)
    rw [releasedCount, htake, List.reverse_append, hdrop _ (by
      intro x hx
      exact hspaces x (List.mem_append_left _ (List.mem_reverse.mp hx))), List.length_reverse]

end Break

/-! ### Word wrap carried out (R43) -/

theorem State.fits_same (hset : t.set = s.set) (htabs : t.comp.tabs = s.comp.tabs) (hleft : t.comp.left = s.comp.left)
    (hright : t.comp.right = s.comp.right) (l : List CompRec) : t.fits l = s.fits l := by
  unfold State.fits State.natural State.lineLength
  rw [hset, htabs, hleft, hright]

theorem State.keeps_signal (s : State) (g : Pattern) : s.keeps (s.signal g) [.beeper] :=
  fun p hp => by cases p <;> simp_all [State.same]

theorem State.alike.signals (h : s.alike t) (g : Pattern) : (s.signal g).alike (t.signal g) :=
  (State.alike.symm (State.alike.signal ⟨rfl, rfl, rfl, rfl, rfl, fun _ _ => rfl⟩ g)).trans (h.signal g)

/-- The character `c` that overflowed has met the line `released` gone out and `carried` in its place; the signals and
events are those of `w`. -/
structure State.wraps (s w t : State) (released now : List CompRec) (flags : LineFlags) : Prop where
  alike : w.alike t
  beeper : t.disp.beeper = w.disp.beeper
  text : plainRecs t.comp.recs = plainRecs now
  comp : t.comp = { s.comp with
    outgoing := some ⟨s.placementsFrom released 0 (s.laidOut released).placed, s.comp.left, s.set.lineSpacing⟩
    recs := t.comp.recs, cursor := now.length, choice := s.set.justify, flags := flags, override := false
    logical := State.cursorPosition { s with comp := { s.comp with recs := now, cursor := now.length } } }
  line : t.line = s.line
  users : t.spell.users = s.spell.users
  keeps : s.keeps t [.comp, .ret, .ctr, .spell, .window, .beeper]

section Wrapped

variable {released carried : List CompRec} {c : CompRec} (h : s.releases t released carried)
include h

theorem State.releases.length : t.comp.recs.length = carried.length := by
  rw [← plainRecs_length t.comp.recs, h.recs, plainRecs_length]

theorem State.releases.withRec : plainRecs (t.withRec c) = plainRecs (carried ++ [c]) := by
  have hlength := h.length
  have hcursor : t.comp.cursor = carried.length := by rw [h.comp]
  rw [State.withRec, insertAt_eq _ _ _ (by rw [hlength, hcursor]), hcursor, ← hlength, List.take_length, List.drop_length,
    List.append_nil]
  show List.map _ _ = List.map _ _
  rw [List.map_append, List.map_append]
  exact congrArg (· ++ _) h.recs

/-- What is carried takes the character at its end where it fits (R43). -/
theorem State.releases.wraps_of_fits (hm : s.comp.modeInEffect = .line) (hkind : c.kind ≠ .tab)
    (hfits : carried.length < 200 ∧ s.fits (carried ++ [c]) = true) {now : List CompRec} (hnow : now = carried ++ [c])
    {bell : Prop} [Decidable bell] :
    let p := State.placeOf { s with comp := { s.comp with recs := now, cursor := now.length } } carried.length
    let v := (s.abandons (s.laidOut released)).raise .lines
    (bell ↔ c.kind ≠ .space ∧ s.comp.right ≤ p + 60) →
    t.insertOrRefuse c = .taken (t.insertRec c) ∧ s.wraps (if bell then v.rung p else v) (t.insertRec c) released now
      (if bell then { LineFlags.clear with hotZone := true } else .clear) := by
  intro p v hbell
  subst hnow
  set now := carried ++ [c] with hnow
  have hcomp := h.comp
  have hset : t.set = s.set := h.keeps .set (by decide)
  have hlength : t.comp.recs.length = carried.length := h.length
  have hcursor : t.comp.cursor = carried.length := by rw [hcomp]
  have htm : t.comp.modeInEffect = .line := by rw [hcomp]; exact hm
  have hwithRec := h.withRec (c := c)
  have htfits : t.fits (t.withRec c) = s.fits now := by
    rw [State.fits_congr hwithRec, State.fits_same hset (by rw [hcomp]) (by rw [hcomp]) (by rw [hcomp])]
  set y : State := { t with comp := { t.comp with recs := t.withRec c, cursor := t.comp.cursor + 1 } } with hy
  set z : State := { s with comp := { s.comp with recs := now, cursor := now.length } } with hz
  have hlast : now.length = t.comp.cursor + 1 := by rw [hcursor, List.length_append, List.length_singleton]
  have hplace : y.placeOf t.comp.cursor = p := by
    rw [State.placeOf_congr (t := y) (s := z) hset (show t.comp.tabs = s.comp.tabs by rw [hcomp])
      (show t.comp.left = s.comp.left by rw [hcomp]) (show t.comp.right = s.comp.right by rw [hcomp]) hwithRec, hcursor]
  have hcursorPlace : y.cursorPosition = z.cursorPosition :=
    State.cursorPosition_plain (t := y) (s := z) hset (show t.comp.tabs = s.comp.tabs by rw [hcomp])
      (show t.comp.left = s.comp.left by rw [hcomp]) (show t.comp.right = s.comp.right by rw [hcomp]) hwithRec hlast.symm
  have hchar : c.kind ≠ .space ↔ c.kind = .char ∨ c.kind = .dead := by
    revert hkind
    cases c.kind <;> simp
  have hbell' : bell ↔ (c.kind = .char ∨ c.kind = .dead) ∧ t.nearMargin (y.placeOf t.comp.cursor) := by
    rw [hbell, hplace, State.nearMargin, show t.comp.right = s.comp.right by rw [hcomp],
      show t.comp.flags.hotZone = false by rw [hcomp]; rfl, hchar, and_iff_left rfl]
  have hinserts := State.insertRec_inserts htm c (by rw [hlength, hcursor]) hbell'
  rw [hplace] at hinserts
  refine ⟨State.insertOrRefuse_of_fits (State.judgeInsert_of_fits (by rw [hlength]; exact hfits.1) (htfits.trans hfits.2)), ?_⟩
  generalize t.insertRec c = x at hinserts
  have hbeeper : t.disp.beeper = v.disp.beeper := (h.keeps .beeper (by decide)).trans ((s.abandons_keeps _ .beeper (by decide)).symm)
  have hvset : t.set = v.set := hset.trans (s.abandons_keeps _ .set (by decide)).symm
  exact {
    alike := by
      refine State.alike.trans ?_ hinserts.alike
      split
      · exact h.alike.rung p
      · exact h.alike
    beeper := by
      refine hinserts.beeper.trans ?_
      split
      · exact State.rung_beeper_congr hvset hbeeper p
      · exact hbeeper
    text := hinserts.text.trans hwithRec
    comp := by
      rw [hinserts.comp, show State.cursorPosition { t with comp := { t.comp with recs := t.withRec c, cursor := t.comp.cursor + 1 } } =
        z.cursorPosition from hcursorPlace, ← hlast, hcomp]
    line := hinserts.line.trans h.line
    users := hinserts.users.trans h.users
    keeps := State.keeps_trans (State.keeps_mono h.keeps (by decide)) hinserts.keeps }

/-- Where it overflows even there, it is refused. -/
theorem State.releases.wraps_of_not_fits (hfits : ¬(carried.length < 200 ∧ s.fits (carried ++ [c]) = true))
    {now : List CompRec} (hnow : now = carried) :
    t.insertOrRefuse c = .refused t ∧
      s.wraps (State.signal ((s.abandons (s.laidOut released)).raise .lines) .refused) (t.signal .refused) released now .clear := by
  subst hnow
  have hcomp := h.comp
  have hset : t.set = s.set := h.keeps .set (by decide)
  have hfits' : ¬(t.comp.recs.length < 200 ∧ t.fits (t.withRec c) = true) := by
    rw [h.length, State.fits_congr h.withRec, State.fits_same hset (by rw [hcomp]) (by rw [hcomp]) (by rw [hcomp])]
    exact hfits
  have hsignal := t.keeps_signal .refused
  have hsame : (t.signal .refused).comp = t.comp := hsignal .comp (by decide)
  refine ⟨State.insertOrRefuse_of_not_fits hfits', ?_⟩
  exact {
    alike := h.alike.signals .refused
    beeper := State.signal_beeper_congr (s := (s.abandons (s.laidOut released)).raise .lines) (hset.trans (s.abandons_keeps _ .set (by decide)).symm)
      ((h.keeps .beeper (by decide)).trans ((s.abandons_keeps _ .beeper (by decide)).symm)) _
    text := by rw [hsame, h.recs]
    comp := by rw [hsame, ← hcomp]
    line := (hsignal .line (by decide)).trans h.line
    users := (congrArg Spelling.users (hsignal .spell (by decide))).trans h.users
    keeps := State.keeps_trans (State.keeps_mono h.keeps (by decide)) (State.keeps_mono hsignal (by decide)) }

/-- What word wrap comes to once its line has gone out (R43). -/
theorem State.releases.wraps (hm : s.comp.modeInEffect = .line) (hkind : c.kind ≠ .tab) :
    let inserted := carried.length < 200 ∧ s.fits (carried ++ [c]) = true
    let now := if inserted then carried ++ [c] else carried
    let p := State.placeOf { s with comp := { s.comp with recs := now, cursor := now.length } } carried.length
    let bell := inserted ∧ c.kind ≠ .space ∧ s.comp.right ≤ p + 60
    let v := (s.abandons (s.laidOut released)).raise .lines
    ∃ x, t.insertOrRefuse c = .taken x ∧
      s.wraps (if bell then v.rung p else if inserted then v else v.signal .refused) x released now
        (if bell then { LineFlags.clear with hotZone := true } else .clear) := by
  intro inserted now p bell v
  by_cases hins : inserted
  · have hnow : now = carried ++ [c] := if_pos hins
    obtain ⟨htaken, hwraps⟩ := h.wraps_of_fits hm hkind hins hnow (bell := bell) ⟨fun hb => hb.2, fun hb => ⟨hins, hb⟩⟩
    rw [if_pos hins]
    exact ⟨_, htaken, hwraps⟩
  · have hnow : now = carried := if_neg hins
    have hbell : ¬bell := fun hb => hins hb.1
    obtain ⟨hrefused, hwraps⟩ := h.wraps_of_not_fits hins hnow
    rw [if_neg hbell, if_neg hbell, if_neg hins]
    exact ⟨_, hrefused, hwraps⟩

end Wrapped

/-- The record of a character is told by the tables, the pitch and the attributes, which a release leaves (R39, R48). -/
theorem State.releases.newRec {released carried : List CompRec} (h : s.releases t released carried) (code : Byte) (isDead : Bool) :
    t.newRec code isDead = s.newRec code isDead := by
  have hcomp := h.comp
  have htab : t.tab = s.tab := h.keeps.tab (by decide) (by decide) (by decide)
  have hactive : t.active .wheelMap = s.active .wheelMap :=
    State.active_congr htab (h.keeps .set (by decide)) (by rw [h.keeps .seq (by decide)]) _
  have hbase : t.activeBase .wheelMap = s.activeBase .wheelMap := by rw [State.activeBase, State.activeBase, hactive, htab]
  have hadvance : t.advance code isDead = s.advance code isDead := by
    unfold State.advance State.wheelEntry State.spaceWidth
    rw [hbase, htab, hcomp]
  unfold State.newRec
  rw [hadvance, hcomp]

/-! ### The keys that type in LINE (R39, R43, R46) -/

theorem State.evalTyped_line (hm : s.comp.modeInEffect = .line) (code : Byte) (isDead : Bool) :
    (if isDead then s.evalDead code else s.evalChar code) = s.lineKeyChar code isDead := by
  unfold State.evalDead State.evalChar
  rw [hm]
  cases isDead <;> rfl

section Typed

variable {code : Byte} {isDead : Bool}

theorem State.lineKeyChar_of_noMap (h : s.active .wheelMap = none) : s.lineKeyChar code isDead = .refused s :=
  if_pos (by rw [h]; rfl)

variable (hmap : s.active .wheelMap ≠ none)
include hmap

theorem State.lineKeyChar_of_absent (h : s.isAbsent code isDead = true) :
    s.lineKeyChar code isDead = .refused (s.raise .unprintable) :=
  (if_neg (by simpa using hmap)).trans (if_pos h)

variable (habsent : ¬s.isAbsent code isDead = true)
include habsent

theorem State.lineKeyChar_of_fits (h : s.judgeInsert (s.newRec code isDead) = .fits) :
    s.lineKeyChar code isDead = .taken (s.insertRec (s.newRec code isDead)) := by
  rw [State.lineKeyChar, if_neg (by simpa using hmap), if_neg habsent, h]

theorem State.lineKeyChar_of_noStop (h : s.judgeInsert (s.newRec code isDead) = .fails) : s.lineKeyChar code isDead = .refused s := by
  rw [State.lineKeyChar, if_neg (by simpa using hmap), if_neg habsent, h]

theorem State.lineKeyChar_of_overflow (h : s.judgeInsert (s.newRec code isDead) = .overflow) : s.lineKeyChar code isDead =
    if s.comp.cursor = s.comp.recs.length ∧ s.set.autoReturn then s.wrap code isDead else .refused s := by
  rw [State.lineKeyChar, if_neg (by simpa using hmap), if_neg habsent, h]

end Typed

section Wrap

variable {released spaces carried : List CompRec} {b : CompRec} (hsplit : s.comp.recs = released ++ spaces ++ carried)
  (hlast : released.getLast? = some b) (hb : b.kind ≠ .space) (hne : spaces ≠ []) (hspaces : ∀ d ∈ spaces, d.kind = .space)
  (hcarried : ∀ d ∈ carried, d.kind ≠ .space) {code : Byte} {isDead : Bool}
include hsplit hlast hb hne hspaces hcarried

theorem State.wrap_of_tab (h : ∃ d ∈ carried, d.kind = .tab) : s.wrap code isDead = .refused s := by
  obtain ⟨i, hbreak, hdrop, -⟩ := wrapBreak_eq hsplit hlast hb hne hspaces hcarried
  obtain ⟨d, hd, htab⟩ := h
  rw [State.wrap, hbreak]
  dsimp only
  rw [hdrop]
  exact if_pos (List.any_eq_true.mpr ⟨d, hd, decide_eq_true htab⟩)

variable (htab : ∀ d ∈ carried, d.kind ≠ .tab)
include htab

theorem State.wrap_of_outgoing (h : s.comp.outgoing.isSome = true) : s.wrap code isDead = .waits s .outgoing := by
  obtain ⟨i, hbreak, hdrop, -⟩ := wrapBreak_eq hsplit hlast hb hne hspaces hcarried
  rw [State.wrap, hbreak]
  dsimp only
  rw [hdrop, if_neg (by simpa using htab), State.evalRelease_of_outgoing h]

/-- What stands before the break is released, and the character goes to the carried part (R43). -/
theorem State.wrap_of_free (h : s.comp.outgoing = none) (hold : s.set.holdOnMiss = false) (hm : s.comp.modeInEffect = .line) :
    ∃ t, s.releases t released carried ∧ s.wrap code isDead = t.insertOrRefuse (s.newRec code isDead) := by
  obtain ⟨i, hbreak, hdrop, hcount⟩ := wrapBreak_eq hsplit hlast hb hne hspaces hcarried
  have hj : (s.completed fun w => w.last < released.length).judgeHold released.length (false && s.comp.override) = .pass :=
    State.judgeHold_passes (.inl (by simpa [State.completed] using hold))
  obtain ⟨hrelease, -, -⟩ := State.evalRelease_of_free (carried := carried) (fromReturn := false) h hj
  have hreleases := State.completed_releases hm (fun w => w.last < released.length) released.length carried
  rw [show s.comp.recs.take released.length = released by rw [hsplit, List.append_assoc, List.take_left]] at hreleases
  refine ⟨_, hreleases, ?_⟩
  rw [State.wrap, hbreak]
  dsimp only
  rw [hdrop, if_neg (by simpa using htab), hcount, hrelease rfl]
  dsimp only
  rw [hreleases.newRec]

end Wrap

/-- A key that puts `c` in at the cursor. -/
theorem insert_of_exec {i : Instr} {a : KeyAction} {c : CompRec}
    (hx : exec i s = .next ((s.evalKey true a).finishKey a).formImage) (hq : s.quiet) (hreturn : a ≠ .func .returnKey)
    (hm : s.comp.modeInEffect = .line) (he : s.evalKey true a = .taken (s.insertRec c))
    (hcursor : s.comp.cursor ≤ s.comp.recs.length) {bell : Prop} [Decidable bell]
    (hbell : bell ↔ (c.kind = .char ∨ c.kind = .dead) ∧
      s.nearMargin (State.placeOf { s with comp := { s.comp with recs := s.withRec c, cursor := s.comp.cursor + 1 } } s.comp.cursor)) :
    let p := State.placeOf { s with comp := { s.comp with recs := s.withRec c, cursor := s.comp.cursor + 1 } } s.comp.cursor
    let v := if bell then s.rung p else s
    ∃ t, exec i s = .next t ∧ s.tookKey t a ∧ t.ret = v.ret ∧ t.disp.beeper = v.disp.beeper ∧
      (∀ k, k ≠ Counter.checksDropped → t.ctr.get k = v.ctr.get k) ∧ plainRecs t.comp.recs = plainRecs (s.withRec c) ∧
      t.comp = { s.comp with
        recs := t.comp.recs, cursor := s.comp.cursor + 1, override := false
        logical := State.cursorPosition { s with comp := { s.comp with recs := s.withRec c, cursor := s.comp.cursor + 1 } }
        flags := if bell then { s.comp.flags with hotZone := true } else s.comp.flags } ∧
      s.keeps t [.keyq, .intake, .comp, .line, .ret, .ctr, .spell, .window, .beeper, .image] ∧ s.imageFollows t := by
  intro p v
  have hins := State.insertRec_inserts hm c hcursor hbell
  generalize s.insertRec c = u at *
  have hwait : s.addsNoWait u := by
    rw [State.addsNoWait, hins.comp]
    exact ⟨rfl, id⟩
  obtain ⟨t, hx, htook, ht⟩ := takes_of_exec hx hq he hwait fun ha => absurd ha hreturn
  have hoverride : (decide (a = .func .returnKey) && u.comp.override) = false := by rw [decide_eq_false hreturn, Bool.false_and]
  have hcomp : t.comp = { u.comp with override := false } := ht.comp.trans (by rw [hoverride])
  refine ⟨t, hx, htook, (ht.keeps .ret (by decide)).trans hins.alike.ret, (ht.keeps .beeper (by decide)).trans hins.beeper,
    fun k hk => ?_, ?_, ?_, ht.keepsAll hins.keeps (by decide) (by decide), ht.followsFrom hins.keeps (by decide)⟩
  · rw [show t.ctr = u.ctr from ht.keeps .ctr (by decide)]
    exact hins.alike.get k hk
  · rw [hcomp]
    exact hins.text
  · rw [hcomp, hins.comp]

/-- A key that overflows the line and wraps it. -/
theorem wrap_of_exec {i : Instr} {a : KeyAction} {w x : State} {released now : List CompRec} {flags : LineFlags}
    (hx : exec i s = .next ((s.evalKey true a).finishKey a).formImage) (hq : s.quiet) (hreturn : a ≠ .func .returnKey)
    (he : s.evalKey true a = .taken x) (h : s.wraps w x released now flags) :
    ∃ t, exec i s = .next t ∧ s.tookKey t a ∧ plainRecs t.comp.recs = plainRecs now ∧
      t.comp = { s.comp with
        outgoing := some ⟨s.placementsFrom released 0 (s.laidOut released).placed, s.comp.left, s.set.lineSpacing⟩
        recs := t.comp.recs, cursor := now.length, choice := s.set.justify
        logical := State.cursorPosition { s with comp := { s.comp with recs := now, cursor := now.length } }
        flags := flags, override := false } ∧
      t.line = { s.line with run := none } ∧ t.ret = w.ret ∧ t.disp.beeper = w.disp.beeper ∧
      (∀ k, k ≠ Counter.checksDropped → t.ctr.get k = w.ctr.get k) ∧ t.spell.users = s.spell.users ∧
      s.keeps t [.keyq, .intake, .comp, .line, .ret, .ctr, .spell, .window, .beeper, .image] ∧ s.imageFollows t := by
  have hwait : s.addsNoWait x := by
    rw [State.addsNoWait, h.comp]
    exact ⟨rfl, id⟩
  obtain ⟨t, hx, htook, ht⟩ := takes_of_exec hx hq he hwait fun ha => absurd ha hreturn
  have hoverride : (decide (a = .func .returnKey) && x.comp.override) = false := by rw [decide_eq_false hreturn, Bool.false_and]
  have hcomp : t.comp = { x.comp with override := false } := ht.comp.trans (by rw [hoverride])
  refine ⟨t, hx, htook, ?_, ?_, ?_, (ht.keeps .ret (by decide)).trans h.alike.ret, (ht.keeps .beeper (by decide)).trans h.beeper,
    fun k hk => ?_, ?_, ht.keepsAll h.keeps (by decide) (by decide), ht.followsFrom h.keeps (by decide)⟩
  · rw [hcomp]
    exact h.text
  · rw [hcomp, h.comp]
  · rw [ht.line, h.line]
  · rw [show t.ctr = x.ctr from ht.keeps .ctr (by decide)]
    exact h.alike.get k hk
  · rw [show t.spell = x.spell from ht.keeps .spell (by decide), h.users]

theorem State.newRec_kind (s : State) (code : Byte) (isDead : Bool) : (s.newRec code isDead).kind ≠ .tab := by
  unfold State.newRec recKind
  cases isDead with
  | true => exact nofun
  | false => by_cases hspace : code = spaceCode <;> simp [hspace]

theorem State.isAbsent_iff_rec {code : Byte} {isDead : Bool} : s.isAbsent code isDead = true ↔
    (s.newRec code isDead).kind ≠ .space ∧ s.wheelEntry code = some .absent := by
  rw [State.isAbsent_iff]
  refine and_congr_left' ?_
  unfold State.newRec entryKind recKind
  cases isDead with
  | true => simp
  | false => by_cases hspace : code = spaceCode <;> simp [hspace]

/-- Settles O34: the insertion judged, and word wrap as a release followed by an insertion into what it leaves. -/
theorem lineInsertsAtTheCursor : Obligations.LineInsertsAtTheCursor := by
  refine ⟨fun s i a c hcase h hsource hmode hcursor => ?_, fun s i a code isDead hi h hsource hmode hcursor => ?_⟩
  · have hm : s.comp.modeInEffect = .line := (Composer.modeInEffect_local hsource).trans hmode
    have hrecs : s.withRec c = s.comp.recs.take s.comp.cursor ++ [c] ++ s.comp.recs.drop s.comp.cursor := insertAt_eq _ _ _ hcursor
    rw [← hrecs]
    obtain ⟨hx, hreturn, htaken, htab⟩ : exec i s = .next ((s.evalKey true a).finishKey a).formImage ∧ a ≠ .func .returnKey ∧
        (s.judgeInsert c = .fits → s.evalKey true a = .taken (s.insertRec c)) ∧
        (c.kind = .tab → s.evalKey true a = s.insertOrRefuse c) := by
      rcases hcase with ⟨code, isDead, hi, hmap, hchar, hdead, rfl⟩ | ⟨rfl, rfl, rfl⟩
      · obtain ⟨hx, he, hreturn⟩ := exec_typedChar hi h hsource
        rw [State.evalTyped_line hm] at he
        have hpresent : ¬s.isAbsent code isDead = true := by
          rw [State.isAbsent_iff_rec]
          rintro ⟨hkind, habsent⟩
          cases isDead with
          | true => exact hdead rfl habsent
          | false => exact (hchar rfl).elim (fun hspace => hkind (if_pos hspace)) fun hne => hne habsent
        exact ⟨hx, hreturn, fun hj => he.trans (State.lineKeyChar_of_fits (Option.isSome_iff_ne_none.mp hmap) hpresent hj),
          fun ht => absurd ht (s.newRec_kind code isDead)⟩
      · have hkey : s.evalKey true (.func .tab) = s.insertOrRefuse s.newTab := by
          rw [State.evalKey_func (.inl hsource)]
          show s.evalTab = _
          rw [State.evalTab, hm]
        exact ⟨exec_rowOf h rfl, nofun, fun hj => hkey.trans (State.insertOrRefuse_of_fits hj), fun _ => hkey⟩
    refine ⟨fun hroom hfits => ?_, fun hkind hno => ?_⟩
    · exact insert_of_exec hx h.1 hreturn hm (htaken (State.judgeInsert_of_fits hroom hfits)) hcursor Iff.rfl
    · refine refuses_of_exec hx h.1 ((htab hkind).trans (State.insertOrRefuse_of_not_fits ?_))
      rintro ⟨hroom, hfits⟩
      rcases hno with hfull | hno
      · exact absurd hroom hfull.not_gt
      · exact absurd (hfits.symm.trans hno) (by decide)
  · have hm : s.comp.modeInEffect = .line := (Composer.modeInEffect_local hsource).trans hmode
    have hrecs : s.withRec (s.newRec code isDead) =
        s.comp.recs.take s.comp.cursor ++ [s.newRec code isDead] ++ s.comp.recs.drop s.comp.cursor := insertAt_eq _ _ _ hcursor
    obtain ⟨hx, he, hreturn⟩ := exec_typedChar hi h hsource
    rw [State.evalTyped_line hm] at he
    have hrefuses (hr : s.lineKeyChar code isDead = .refused s) : ∃ t, exec i s = .next t ∧ s.refusedKey t a :=
      refuses_of_exec hx h.1 (he.trans hr)
    refine ⟨fun hmap => hrefuses (State.lineKeyChar_of_noMap hmap), fun habsent => ?_, fun hmap hpresent => ?_⟩
    · have habsent := State.isAbsent_iff_rec.mpr habsent
      have hmap : s.active .wheelMap ≠ none := fun hnone => by
        have hentry := (State.isAbsent_iff.mp habsent).2
        rw [State.wheelEntry_of_noMap hnone] at hentry
        cases hentry
      exact absent_of_exec hx h.1 hreturn (he.trans (State.lineKeyChar_of_absent hmap habsent))
    · have hpresent : ¬s.isAbsent code isDead = true := fun ha => hpresent (State.isAbsent_iff_rec.mp ha)
      have hoverflow (ho : 200 ≤ s.comp.recs.length ∨ s.natural (s.withRec (s.newRec code isDead)) ≠ none ∧
          s.fits (s.withRec (s.newRec code isDead)) = false) :=
        State.lineKeyChar_of_overflow hmap hpresent (State.judgeInsert_of_overflow ho)
      rw [hrecs] at hoverflow
      refine ⟨fun hroom hnone => hrefuses ?_, fun ho hend => hrefuses ?_, fun ho hend hauto => ⟨fun hleading => hrefuses ?_,
        fun released spaces carried b hsplit hlast hb hne hspaces hcarried => ⟨fun htab => hrefuses ?_, fun htab =>
          ⟨fun hout => waits_of_exec hx (he.trans ?_), fun hout hold => ?_⟩⟩⟩⟩
      · exact State.lineKeyChar_of_noStop hmap hpresent (State.judgeInsert_of_noStop hroom (by rw [hrecs]; exact hnone))
      · rw [hoverflow ho, if_neg ?_]
        rintro ⟨hat, hauto⟩
        rcases hend with hend | hoff
        · exact hend hat
        · exact absurd (hauto.symm.trans hoff) (by decide)
      · rw [hoverflow ho, if_pos ⟨hend, hauto⟩, State.wrap, wrapBreak_of_leading hleading]
      · rw [hoverflow ho, if_pos ⟨hend, hauto⟩, State.wrap_of_tab hsplit hlast hb hne hspaces hcarried htab]
      · rw [hoverflow ho, if_pos ⟨hend, hauto⟩, State.wrap_of_outgoing hsplit hlast hb hne hspaces hcarried htab hout]
      · obtain ⟨y, hreleases, hwrap⟩ := State.wrap_of_free hsplit hlast hb hne hspaces hcarried htab hout hold hm
          (code := code) (isDead := isDead)
        have hkind : (s.newRec code isDead).kind ≠ .tab := s.newRec_kind code isDead
        obtain ⟨x, hinsert, hwraps⟩ := hreleases.wraps hm hkind
        have heval : s.evalKey true a = .taken x := by
          rw [he, hoverflow ho, if_pos ⟨hend, hauto⟩, hwrap, hinsert]
        have hfinal := wrap_of_exec hx h.1 hreturn heval hwraps
        unfold State.abandons State.laidOut at hfinal
        dsimp only
        generalize (s.applyChoice s.comp.choice released ((s.natural released).getD [])).abandoned = o at hfinal ⊢
        cases o <;> exact hfinal

end Sys2Proof.Machine
end

section
/-! The waits of the two feeds, the image that is offered and the order of the records in the report queue are read by
nothing but what settles an item, forms an image or sends a block: two runs that differ in these alone go the same way
(R28, R136, R177). -/

namespace Sys2Proof.Machine

variable {s t u : State}

/-! ### What two twin states may differ in -/

/-- The parts in which a twin of a state may differ from it. -/
structure Overlay where
  key     : Option WaitCause
  text    : Option WaitCause
  current : Option Image
  slot    : Option Image
  ret     : ReturnLine

/-- A state with other waits, another image offered and another return line. -/
@[reducible] def State.over (s : State) (o : Overlay) : State :=
  { s with
    comp := { s.comp with keyWait := o.key, textWait := o.text }
    disp := { s.disp with current := o.current, slot := o.slot }
    ret := o.ret }

/-- What the feeds, the display and the report queue of a state show to those that settle an item. -/
structure Front where
  source       : Source
  comingSource : Option Source
  keyWait      : Option WaitCause
  textWait     : Option WaitCause
  current      : Option Image
  slot         : Option Image
  display      : Bool
  ret          : ReturnLine
  txt          : TextLink
  selected     : Option KeyAction
  resetHeld    : Bool

/-- The front of a state. -/
def State.front (s : State) : Front :=
  ⟨s.comp.source, s.comp.later.source, s.comp.keyWait, s.comp.textWait, s.disp.current, s.disp.slot, s.set.display,
    s.ret, s.txt, s.selected, s.resetHeld⟩

/-- Two report queues take the same EVENTs (R177): they hold as many, have as many places free and the same lost flag. -/
structure ReturnLine.alike (r q : ReturnLine) : Prop where
  events : q.eventCount = r.eventCount
  fill   : q.fill = r.fill
  lost   : q.lost = r.lost

/-- What a state and its twin wait on, the text item in REMOTE source only; the feeds and the reserved places that stand
meanwhile; and whether the images offered and the order of the reports may differ. -/
structure Veil where
  hereKey    : Option WaitCause
  hereText   : Option WaitCause
  key        : Option WaitCause
  text       : Option WaitCause
  txt        : TextLink
  selected   : Option KeyAction
  reserved   : Nat
  looseImage : Bool
  looseRet   : Bool

/-- What a text item waits on in a source, where it waits on `w` in REMOTE source (R23). -/
def Source.textWait (w : Option WaitCause) : Source → Option WaitCause
  | .remoteText => w
  | .localKeys => none

/-- No text item waits, in the state or in its twin. -/
def Veil.noText (x : Veil) : Prop := x.hereText = none ∧ x.text = none

/-- An overlay is as a veil has it over a front. Once the source has left REMOTE, none is pending (R26), so that it
does not come back. -/
structure Veil.fits (x : Veil) (f : Front) (o : Overlay) : Prop where
  keyWait  : f.keyWait = x.hereKey
  textWait : f.textWait = f.source.textWait x.hereText
  key      : o.key = x.key
  text     : o.text = f.source.textWait x.text
  calm     : x.noText ∨ f.source = .remoteText ∨ f.comingSource = none
  image    : (o.current = f.current ∧ o.slot = f.slot) ∨ x.looseImage = true ∧ f.display = true
  ret      : o.ret = f.ret ∨ x.looseRet = true ∧ f.ret.alike o.ret
  reserved : f.ret.reserved = x.reserved
  txt      : f.txt = x.txt
  selected : f.selected = x.selected
  live     : f.resetHeld = false

/-- `t` is `s` but for what the veil `x` has it differ in. -/
def Twin (x : Veil) (s t : State) : Prop := ∃ o, x.fits s.front o ∧ t = s.over o

variable {x : Veil}

/-! ### Rules of the relation -/

theorem Twin.ite {c : Prop} [Decidable c] {a a' b b' : State} (ha : c → Twin x a a') (hb : ¬c → Twin x b b') :
    Twin x (if c then a else b) (if c then a' else b') := by
  split
  · exact ha ‹_›
  · exact hb ‹_›

theorem Twin.foldl {α : Type} {f : State → α → State} (hf : ∀ {s t}, Twin x s t → ∀ a, Twin x (f s a) (f t a)) (l : List α) :
    ∀ {s t}, Twin x s t → Twin x (l.foldl f s) (l.foldl f t) := by
  induction l with
  | nil => exact fun h => h
  | cons a l ih => exact fun h => ih (hf h a)

theorem ReturnLine.alike.takesEvent {r q : ReturnLine} (h : r.alike q) : q.takesEvent = r.takesEvent := by
  simp only [ReturnLine.takesEvent, ReturnLine.hasFree, h.events, h.fill]

theorem ReturnLine.alike.append {r q : ReturnLine} (h : r.alike q) (l : List Report) (b : Bool) :
    ({ r with reports := r.reports ++ l, lost := b } : ReturnLine).alike { q with reports := q.reports ++ l, lost := b } := by
  obtain ⟨hevents, hfill, hlost⟩ := h
  refine ⟨?_, ?_, rfl⟩
  · simp only [ReturnLine.eventCount, List.filter_append, List.length_append] at hevents ⊢
    omega
  · simp only [ReturnLine.fill, List.length_append] at hfill ⊢
    omega

/-- The report queues of twins change alike. -/
theorem Veil.fits.withRet {f : Front} {o : Overlay} (h : x.fits f o) {g : ReturnLine → ReturnLine}
    (hres : ∀ r, (g r).reserved = r.reserved) (hg : ∀ {r q : ReturnLine}, r.alike q → (g r).alike (g q)) :
    x.fits { f with ret := g f.ret } { o with ret := g o.ret } :=
  { h with
    ret := h.ret.imp (congrArg g) fun ⟨hx, ha⟩ => ⟨hx, hg ha⟩
    reserved := (hres f.ret).trans h.reserved }

theorem Veil.fits.takesEvent {f : Front} {o : Overlay} (h : x.fits f o) : o.ret.takesEvent = f.ret.takesEvent := by
  rcases h.ret with he | ⟨-, ha⟩
  · rw [he]
  · exact ha.takesEvent

theorem Veil.fits.lost {f : Front} {o : Overlay} (h : x.fits f o) : o.ret.lost = f.ret.lost := by
  rcases h.ret with he | ⟨-, ha⟩
  · rw [he]
  · exact ha.lost

/-! ### Counters, reports, the beeper and the window -/

theorem Twin.raise (h : Twin x s t) (k : Counter) (n : Nat := 1) : Twin x (s.raise k n) (t.raise k n) := by
  obtain ⟨o, h, rfl⟩ := h
  exact ⟨o, h, rfl⟩

theorem Twin.event (h : Twin x s t) (e : Event) : Twin x (s.event e) (t.event e) := by
  obtain ⟨o, h, rfl⟩ := h
  unfold State.event
  have htakes : o.ret.takesEvent = s.ret.takesEvent := h.takesEvent
  have hlost : o.ret.lost = s.ret.lost := h.lost
  rw [show (s.over o).ret = o.ret from rfl, htakes, hlost]
  refine .ite (fun _ => ?_) fun _ => ?_
  · exact ⟨_, h.withRet (g := fun r => { r with reports := r.reports ++ [.event e s.ret.lost], lost := false })
      (fun _ => rfl) fun ha => ha.append _ _, rfl⟩
  · exact ⟨_, h.withRet (g := fun r => { r with lost := true }) (fun _ => rfl) fun ha => ⟨ha.events, ha.fill, rfl⟩, rfl⟩

theorem Twin.signal (h : Twin x s t) (p : Pattern) : Twin x (s.signal p) (t.signal p) := by
  obtain ⟨o, h, rfl⟩ := h
  refine .ite (fun _ => ?_) fun _ => ⟨o, h, rfl⟩
  cases s.disp.beeper with
  | none => exact ⟨o, h, rfl⟩
  | some b => exact .ite (fun _ => ⟨o, h, rfl⟩) fun _ => ⟨o, h, rfl⟩

theorem Twin.moveWindow (h : Twin x s t) : Twin x s.moveWindow t.moveWindow := by
  obtain ⟨o, h, rfl⟩ := h
  exact ⟨o, h, rfl⟩

/-! ### The Spelling Unit (chapter 6) -/

theorem State.over_mode (s : State) (o : Overlay) : (s.over o).comp.modeInEffect = s.comp.modeInEffect := rfl

theorem State.over_checkStep (s : State) (o : Overlay) (w : SpellWord) : (s.over o).checkStep w = s.checkStep w := rfl

theorem State.over_active (s : State) (o : Overlay) (k : TableKind) : (s.over o).active k = s.active k := rfl

theorem State.over_segments (s : State) (o : Overlay) : (s.over o).segments = s.segments := rfl

theorem Twin.setVerdict (h : Twin x s t) (n : Word) (v : Verdict) : Twin x (s.setVerdict n v) (t.setVerdict n v) := by
  obtain ⟨o, h, rfl⟩ := h
  exact ⟨o, h, rfl⟩

theorem Twin.dropOldest (h : Twin x s t) : Twin x s.dropOldest t.dropOldest := by
  obtain ⟨o, h, rfl⟩ := h
  unfold State.dropOldest
  cases s.spell.checkq with
  | nil => exact ⟨o, h, rfl⟩
  | cons e rest => exact .ite (fun _ => ⟨o, h, rfl⟩) fun _ => ⟨o, h, rfl⟩

theorem Twin.pumpEngine (h : Twin x s t) : Twin x s.pumpEngine t.pumpEngine := by
  obtain ⟨o, h, rfl⟩ := h
  unfold State.pumpEngine
  cases s.spell.engine with
  | none => exact ⟨o, h, rfl⟩
  | some e => exact ⟨o, h, rfl⟩

theorem Twin.appendCheck (h : Twin x s t) (n : Word) : Twin x (s.appendCheck n) (t.appendCheck n) := by
  obtain ⟨o, h, e⟩ := h.dropOldest
  unfold State.appendCheck
  rw [e]
  dsimp only
  cases findWord s.dropOldest.spell.words n with
  | none => exact ⟨o, h, rfl⟩
  | some w => exact Twin.pumpEngine ⟨o, h, rfl⟩

theorem Twin.enterQueue (h : Twin x s t) (n : Word) : Twin x (s.enterQueue n) (t.enterQueue n) := by
  have happend := h.appendCheck n
  obtain ⟨o, h, rfl⟩ := h
  exact .ite (fun _ => ⟨o, h, rfl⟩) fun _ => happend

theorem Twin.checkWord (h : Twin x s t) (n : Word) : Twin x (s.checkWord n) (t.checkWord n) := by
  obtain ⟨o, h, rfl⟩ := h
  unfold State.checkWord
  simp only [State.over_checkStep]
  cases findWord s.spell.words n with
  | none => exact ⟨o, h, rfl⟩
  | some w =>
    dsimp only
    cases s.checkStep w with
    | stay => exact ⟨o, h, rfl⟩
    | verdict v => exact ⟨o, h, rfl⟩
    | enqueue => exact Twin.enterQueue ⟨o, h, rfl⟩ n

theorem Twin.checkWords (h : Twin x s t) (l : List Word) : Twin x (l.foldl State.checkWord s) (l.foldl State.checkWord t) :=
  Twin.foldl Twin.checkWord l h

theorem Twin.withSweep (h : Twin x s t) (n : Word) :
    Twin x { s with spell := { s.spell with sweep := recordAfter n s.spell.words } }
      { t with spell := { t.spell with sweep := recordAfter n t.spell.words } } := by
  obtain ⟨o, h, rfl⟩ := h
  exact ⟨o, h, rfl⟩

theorem Twin.runSweep (k : Nat) : ∀ {s t}, Twin x s t → Twin x (State.runSweep k s) (State.runSweep k t) := by
  induction k with
  | zero => exact fun h => h
  | succ k ih =>
    intro s t h
    have hcheck := h.checkWord
    obtain ⟨o, h, rfl⟩ := h
    unfold State.runSweep
    simp only [State.over_checkStep]
    cases s.spell.sweep with
    | none => exact ⟨o, h, rfl⟩
    | some n =>
      dsimp only
      cases findWord s.spell.words n with
      | none => exact ⟨o, h, rfl⟩
      | some w =>
        refine .ite (fun _ => ⟨o, h, rfl⟩) fun _ => ih (Twin.withSweep ?_ n)
        exact .ite (fun _ => hcheck n) fun _ => ⟨o, h, rfl⟩

theorem Twin.spellOn (h : Twin x s t) : Twin x s.spellOn t.spellOn := by
  obtain ⟨o, h, e⟩ := h.pumpEngine
  unfold State.spellOn
  rw [e]
  exact Twin.runSweep _ ⟨o, h, rfl⟩

theorem Twin.startSweep (h : Twin x s t) : Twin x s.startSweep t.startSweep := by
  obtain ⟨o, h, rfl⟩ := h
  exact Twin.spellOn ⟨o, h, rfl⟩

theorem Twin.setRefs (h : Twin x s t) (refs : List (Word × List Nat)) : Twin x (s.setRefs refs) (t.setRefs refs) := by
  obtain ⟨o, h, rfl⟩ := h
  unfold State.setRefs
  rw [State.over_mode]
  cases s.comp.modeInEffect with
  | line => exact ⟨o, h, rfl⟩
  | direct => exact ⟨o, h, rfl⟩

theorem Twin.respell (h : Twin x s t) : Twin x s.respell t.respell := by
  obtain ⟨o, h, rfl⟩ := h
  unfold State.respell
  rw [State.over_segments]
  dsimp only
  refine Twin.spellOn (Twin.checkWords (Twin.setRefs ?_ _) _)
  exact ⟨o, h, rfl⟩

theorem Twin.completeWords (h : Twin x s t) (within : SpellWord → Bool) :
    Twin x (s.completeWords within) (t.completeWords within) := by
  obtain ⟨o, h, rfl⟩ := h
  unfold State.completeWords
  dsimp only
  refine Twin.checkWords ?_ _
  exact ⟨o, h, rfl⟩

theorem Twin.retireWords (h : Twin x s t) (within : SpellWord → Bool) :
    Twin x (s.retireWords within) (t.retireWords within) := by
  obtain ⟨o, h, rfl⟩ := h
  exact Twin.spellOn ⟨o, h, rfl⟩

theorem Twin.spellLineEnd (h : Twin x s t) : Twin x s.spellLineEnd t.spellLineEnd := by
  obtain ⟨o, h, e⟩ := h.completeWords (fun _ => true)
  unfold State.spellLineEnd
  rw [e]
  dsimp only
  refine Twin.retireWords ?_ _
  exact ⟨o, h, rfl⟩

theorem Twin.markBoundary (h : Twin x s t) : Twin x s.markBoundary t.markBoundary := by
  obtain ⟨o, h, rfl⟩ := h
  unfold State.markBoundary
  cases s.line.shown.getLast? with
  | none => exact ⟨o, h, rfl⟩
  | some e => exact .ite (fun _ => ⟨o, h, rfl⟩) fun _ => Twin.respell ⟨o, h, rfl⟩

theorem Twin.trimMarks (h : Twin x s t) : Twin x s.trimMarks t.trimMarks := by
  obtain ⟨o, h, rfl⟩ := h
  exact ⟨o, h, rfl⟩

theorem Twin.lexiconChanged (h : Twin x s t) : Twin x s.lexiconChanged t.lexiconChanged := by
  obtain ⟨o, h, rfl⟩ := h
  have hrespell : Twin x _ _ := Twin.respell (s := { s with spell := Spelling.purge { s.spell.abort with
    sweep := if (s.active .lexicon).isSome then none else s.spell.sweep
    words := s.spell.words.map (fun (w : SpellWord) => { w with verdict := w.verdict.reverted }) } }) ⟨o, h, rfl⟩
  exact .ite (fun _ => hrespell.startSweep) fun _ => hrespell

theorem Twin.setSpell (h : Twin x s t) (v : Bool) : Twin x (s.setSpell v) (t.setSpell v) := by
  obtain ⟨o, h, rfl⟩ := h
  exact .ite (fun _ => ⟨o, h, rfl⟩) fun _ => .ite (fun _ => Twin.startSweep ⟨o, h, rfl⟩) fun _ => ⟨o, h, rfl⟩

theorem Twin.addUserWord (h : Twin x s t) (l : List Nat) : Twin x (s.addUserWord l) (t.addUserWord l) := by
  obtain ⟨o, h, rfl⟩ := h
  exact Twin.spellOn ⟨o, h, rfl⟩

theorem Twin.removeUserWord (h : Twin x s t) (l : List Nat) : Twin x (s.removeUserWord l) (t.removeUserWord l) := by
  obtain ⟨o, h, rfl⟩ := h
  exact Twin.startSweep ⟨o, h, rfl⟩

theorem Twin.applyLookup (h : Twin x s t) (l : Lookup) (found : Bool) :
    Twin x (s.applyLookup l found) (t.applyLookup l found) := by
  have hset := h.setVerdict l.word
  obtain ⟨o, h, rfl⟩ := h
  unfold State.applyLookup
  cases findWord s.spell.words l.word with
  | none => exact ⟨o, h, rfl⟩
  | some w =>
    refine .ite (fun _ => .ite (fun _ => hset .known) fun _ => ?_) fun _ => ⟨o, h, rfl⟩
    exact (((hset .miss).raise .misses).signal .miss).event _

theorem Twin.completeLookup (h : Twin x s t) : Twin x s.completeLookup t.completeLookup := by
  obtain ⟨o, h, rfl⟩ := h
  unfold State.completeLookup
  cases s.spell.engine with
  | none => exact ⟨o, h, rfl⟩
  | some l =>
    dsimp only
    refine Twin.spellOn (Twin.applyLookup (Twin.raise ?_ _) l _)
    exact ⟨o, h, rfl⟩

end Sys2Proof.Machine
end

section
/-! Twin states go the same way at a line boundary, in the line record and in the Print Sequencer (R25, R26, R65 to
R101). -/

namespace Sys2Proof.Machine

variable {s t u : State} {x : Veil}

/-! ### Line boundaries (R25, R26) -/

theorem State.over_atBoundary (s : State) (o : Overlay) : (s.over o).atBoundary = s.atBoundary := rfl

/-- A boundary takes no wait into account, and ends that of the text item where LOCAL source comes into force (R26). -/
theorem Composer.applyPending_over (c : Composer) (j : Justify) (k w : Option WaitCause) :
    ({ c with keyWait := k, textWait := w } : Composer).applyPending j =
      { c.applyPending j with keyWait := k, textWait := if c.settled.source = .localKeys then none else w } := by
  rw [Composer.applyPending_eq, Composer.applyPending_eq]
  rfl

/-- What the boundary leaves of the text item's wait, by the source that comes into force (R26). -/
theorem Source.textWait_settled {w : Option WaitCause} {now : Source} {coming : Option Source}
    (h : w = none ∨ now = .remoteText ∨ coming = none) :
    (if coming.getD now = .localKeys then none else now.textWait w) = (coming.getD now).textWait w := by
  cases hnew : coming.getD now with
  | localKeys => rfl
  | remoteText =>
    rw [if_neg (by decide)]
    rcases h with hw | hs | hc
    · cases now <;> simp [Source.textWait, hw]
    · rw [hs]
    · rw [← hnew, hc]
      rfl

theorem Twin.boundaryReached (h : Twin x s t) :
    Twin x { s with comp := s.comp.applyPending s.set.justify, disp := { s.disp with window := 0 } }
      { t with comp := t.comp.applyPending t.set.justify, disp := { t.disp with window := 0 } } := by
  obtain ⟨o, h, rfl⟩ := h
  have heq := Composer.applyPending_eq s.comp s.set.justify
  have hover : (s.over o).comp.applyPending (s.over o).set.justify = { s.comp.applyPending s.set.justify with
      keyWait := o.key, textWait := if s.comp.settled.source = .localKeys then none else o.text } :=
    Composer.applyPending_over _ _ _ _
  have hkey : (s.comp.applyPending s.set.justify).keyWait = s.comp.keyWait := by rw [heq]; rfl
  have hsource : (s.comp.applyPending s.set.justify).source = s.comp.settled.source := by rw [heq]
  have hlater : (s.comp.applyPending s.set.justify).later.source = none := by rw [heq]; rfl
  have htext : (s.comp.applyPending s.set.justify).textWait =
      (if s.comp.settled.source = .localKeys then none else s.comp.textWait) := by rw [heq]
  have hhere := Source.textWait_settled (h.calm.imp_left And.left)
  have hthere := Source.textWait_settled (h.calm.imp_left And.right)
  rw [← h.textWait] at hhere
  rw [← h.text] at hthere
  rw [hover]
  refine ⟨{ o with text := if s.comp.settled.source = .localKeys then none else o.text }, ?_, rfl⟩
  exact { h with
    keyWait := hkey.trans h.keyWait
    textWait := htext.trans (hhere.trans (congrArg (Source.textWait x.hereText) hsource.symm))
    text := hthere.trans (congrArg (Source.textWait x.text) hsource.symm)
    calm := .inr (.inr hlater) }

theorem Twin.reachBoundary (h : Twin x s t) : Twin x s.reachBoundary t.reachBoundary := by
  have hreached := h.boundaryReached
  obtain ⟨o, h, rfl⟩ := h
  have hcond : ((s.over o).comp.applyPending (s.over o).set.justify).source = (s.comp.applyPending s.set.justify).source ∧
      ((s.over o).comp.applyPending (s.over o).set.justify).modeInEffect = (s.comp.applyPending s.set.justify).modeInEffect := by
    rw [Composer.applyPending_over]
    exact ⟨rfl, rfl⟩
  unfold State.reachBoundary
  dsimp only
  rw [hcond.1, hcond.2]
  exact .ite (fun _ => hreached.respell) fun _ => hreached

theorem Twin.boundaryAfter (h : Twin x s t) (was : Bool) : Twin x (s.boundaryAfter was) (t.boundaryAfter was) := by
  have hreach := h.reachBoundary
  obtain ⟨o, h, rfl⟩ := h
  exact .ite (fun _ => hreach) fun _ => ⟨o, h, rfl⟩

theorem Twin.followText (h : Twin x s t) : Twin x s.followText t.followText := h.trimMarks.respell.moveWindow

theorem Twin.textChanged (h : Twin x s t) (was : Bool) : Twin x (s.textChanged was) (t.textChanged was) :=
  h.followText.boundaryAfter was

/-- A line setting is changed alike while the source in force is the one that the item that waits was taken in (R26). -/
theorem Twin.setLine (h : Twin x s t) (hs : x.noText ∨ s.comp.source = .remoteText) (v : LineValue) :
    Twin x (s.setLine v).1 (t.setLine v).1 ∧ (t.setLine v).2 = (s.setLine v).2 := by
  obtain ⟨o, h, rfl⟩ := h
  have hlater (p : PendingLine) : Twin x { s with comp := { s.comp with later := p } }
      { s.over o with comp := { (s.over o).comp with later := p } } :=
    ⟨o, { h with calm := hs.imp_right .inl }, rfl⟩
  unfold State.setLine
  rw [State.over_atBoundary]
  by_cases hb : s.atBoundary = true
  · simp only [hb, if_true]
    exact ⟨(hlater _).reachBoundary, trivial⟩
  · simp only [hb, if_false, Bool.false_eq_true]
    by_cases hv : v.inForce s.comp = true
    · have hv' : v.inForce (s.over o).comp = true := by cases v <;> exact hv
      simp only [hv, hv', if_true]
      exact ⟨hlater _, trivial⟩
    · have hv' : ¬v.inForce (s.over o).comp = true := by cases v <;> exact hv
      simp only [hv, hv', if_false, Bool.false_eq_true]
      exact ⟨hlater _, trivial⟩

/-! ### The line record (R89 to R101) -/

theorem Twin.removeEntry (h : Twin x s t) (n : Word) : Twin x (s.removeEntry n) (t.removeEntry n) := by
  obtain ⟨o, h, rfl⟩ := h
  exact ⟨o, h, rfl⟩

theorem Twin.dropOldestEntry (h : Twin x s t) : Twin x s.dropOldestEntry t.dropOldestEntry := by
  obtain ⟨o, h, rfl⟩ := h
  refine .ite (fun _ => ⟨o, h, rfl⟩) fun _ => ?_
  cases s.line.entries with
  | nil => exact ⟨o, h, rfl⟩
  | cons e rest => exact ⟨o, h, rfl⟩

theorem Twin.emptyRecord (h : Twin x s t) : Twin x s.emptyRecord t.emptyRecord := by
  obtain ⟨o, h, rfl⟩ := h
  exact ⟨o, h, rfl⟩

theorem Twin.appendStrikes (h : Twin x s t) (ref : Option Word) (set : List Strike) :
    Twin x (s.appendStrikes ref set) (t.appendStrikes ref set) := by
  have hcount : Twin x (if pastTravel set = 0 then s else s.raise .pastTravel (pastTravel set))
      (if pastTravel set = 0 then t else t.raise .pastTravel (pastTravel set)) :=
    .ite (fun _ => h) fun _ => h.raise _ _
  obtain ⟨o, h, e⟩ := hcount
  unfold State.appendStrikes
  rw [e]
  exact ⟨o, h, rfl⟩

theorem Twin.appendEntry (h : Twin x s t) (code : Byte) (kind : EntryKind) (pos adv : Nat) (set : List Strike) :
    Twin x (s.appendEntry code kind pos adv set) (t.appendEntry code kind pos adv set) := by
  obtain ⟨o, h, e⟩ := h.dropOldestEntry
  unfold State.appendEntry
  rw [e]
  dsimp only
  refine Twin.appendStrikes ?_ _ _
  exact ⟨o, h, rfl⟩

theorem Twin.reportStrike (h : Twin x s t) (ref : Option Word) (num : Word) (f : StrikeStatus → StrikeStatus) :
    Twin x (s.reportStrike ref num f) (t.reportStrike ref num f) := by
  obtain ⟨o, h, rfl⟩ := h
  cases ref with
  | none => exact ⟨o, h, rfl⟩
  | some n => exact ⟨o, h, rfl⟩

theorem Twin.reportInFlight (h : Twin x s t) (a : Order) : Twin x (s.reportInFlight a) (t.reportInFlight a) := by
  cases a with
  | strike code pos role ref num => exact h.reportStrike _ _ _
  | _ => exact h

theorem Twin.reportLeftFlight (h : Twin x s t) (a : Order) : Twin x (s.reportLeftFlight a) (t.reportLeftFlight a) := by
  cases a with
  | strike code pos role ref num => exact h.reportStrike _ _ _
  | _ => exact h

theorem Twin.reportLift (h : Twin x s t) (ref : Option Word) (skipped : Bool) :
    Twin x (s.reportLift ref skipped) (t.reportLift ref skipped) := by
  have hremove := h.removeEntry
  obtain ⟨o, h, rfl⟩ := h
  unfold State.reportLift
  rw [State.over_atBoundary]
  cases ref.bind s.line.find with
  | none => exact ⟨o, h, rfl⟩
  | some e =>
    dsimp only
    refine .ite (fun _ => ⟨o, h, rfl⟩) fun _ => .ite (fun _ => ⟨o, h, rfl⟩) fun _ => .ite (fun _ => ?_) fun _ => ?_
    · refine Twin.textChanged ?_ _
      exact ⟨o, h, rfl⟩
    · exact (hremove _).textChanged _

theorem Twin.reportDone (h : Twin x s t) (petal wheel level : Nat) (a : Order) :
    Twin x (s.reportDone petal wheel level a) (t.reportDone petal wheel level a) := by
  cases a with
  | strike code pos role ref num => exact h.reportStrike _ _ _
  | lift pt w p l ref => exact h.reportLift _ _
  | _ => exact h

theorem Twin.reportSkipped (h : Twin x s t) (a : Order) : Twin x (s.reportSkipped a) (t.reportSkipped a) := by
  cases a with
  | strike code pos role ref num => exact h.reportStrike _ _ _
  | lift pt w p l ref => exact h.reportLift _ _
  | _ => exact h

/-! ### Executing orders (R67 to R83) -/

theorem Twin.enter (h : Twin x s t) (st : MechState) (r : Reason) : Twin x (s.enter st r) (t.enter st r) := by
  obtain ⟨o, h, rfl⟩ := h
  refine .ite (fun _ => ⟨o, h, rfl⟩) fun _ => Twin.event ?_ _
  exact ⟨o, h, rfl⟩

theorem Twin.enterWheelWait (h : Twin x s t) (c : WheelCondition) : Twin x (s.enterWheelWait c) (t.enterWheelWait c) := by
  have henter := h.enter .wheelWait
  obtain ⟨o, h, rfl⟩ := h
  cases c with
  | mismatch => exact (henter .mismatch).event _
  | noMap => exact (henter .noMap).event _
  | ready => exact ⟨o, h, rfl⟩

theorem Twin.popOrder (h : Twin x s t) : Twin x s.popOrder t.popOrder := by
  obtain ⟨o, h, rfl⟩ := h
  exact ⟨o, h, rfl⟩

theorem State.over_startStep (s : State) (o : Overlay) (a : Order) : (s.over o).startStep a = s.startStep a := rfl

theorem State.over_wheelCondition (s : State) (o : Overlay) : (s.over o).wheelCondition = s.wheelCondition := rfl

theorem Twin.startPosition (h : Twin x s t) (a : Order) (petal level : Nat) :
    Twin x (s.startPosition a petal level) (t.startPosition a petal level) := by
  obtain ⟨o, h, rfl⟩ := h
  unfold State.startPosition
  refine Twin.reportInFlight ?_ a
  exact ⟨o, h, rfl⟩

theorem Twin.skipOrder (h : Twin x s t) (a : Order) : Twin x (s.skipOrder a) (t.skipOrder a) := by
  cases a with
  | lift pt w p l ref => exact (h.popOrder.event _).reportSkipped _
  | _ => exact (h.popOrder.raise _).reportSkipped _

/-- The pause that a request asks for is entered (R83). -/
theorem Twin.pausedBy (h : Twin x s t) (r : Reason) :
    Twin x (State.enter { s with seq := { s.seq with pauseReq := none } } .paused r)
      (State.enter { t with seq := { t.seq with pauseReq := none } } .paused r) := by
  obtain ⟨o, h, rfl⟩ := h
  refine Twin.enter ?_ _ _
  exact ⟨o, h, rfl⟩

theorem Twin.runOrders (n : Nat) : ∀ {s t}, Twin x s t → Twin x (State.runOrders n s) (State.runOrders n t) := by
  induction n with
  | zero => exact fun h => h
  | succ n ih =>
    intro s t h
    have hpause := h.pausedBy
    have hidle := h.enter .idle .none
    have hstart := h.startPosition
    have hskip := h.skipOrder
    have hwait := h.enterWheelWait
    have hpop := h.popOrder
    obtain ⟨o, h, rfl⟩ := h
    unfold State.runOrders
    simp only [State.over_startStep]
    cases s.seq.pauseReq with
    | some r => exact hpause _
    | none =>
      cases s.seq.queue with
      | nil => exact hidle
      | cons a rest =>
        dsimp only
        cases s.startStep a with
        | position petal level => exact hstart a petal level
        | skip => exact ih (hskip a)
        | wait c => exact hwait c
        | moveDone => exact ih hpop
        | moving us => exact ⟨o, h, rfl⟩
        | indexing k => exact ⟨o, h, rfl⟩

theorem Twin.runQueue (h : Twin x s t) : Twin x s.runQueue t.runQueue := by
  have hrun := Twin.runOrders (s.seq.queue.length + 1) h
  obtain ⟨o, h, rfl⟩ := h
  exact hrun

theorem Twin.enterReady (h : Twin x s t) : Twin x s.enterReady t.enterReady := by
  have hpause := h.pausedBy
  have hidle := h.enter .idle .none
  have hrun := (h.enter .running .none).runQueue
  obtain ⟨o, h, rfl⟩ := h
  unfold State.enterReady
  cases s.seq.pauseReq with
  | some r => exact hpause _
  | none => exact .ite (fun _ => hidle) fun _ => hrun

theorem Twin.kick (h : Twin x s t) : Twin x s.kick t.kick := by
  have hrun := (h.enter .running .none).runQueue
  obtain ⟨o, h, rfl⟩ := h
  exact .ite (fun _ => hrun) fun _ => ⟨o, h, rfl⟩

theorem Twin.appendOrders (h : Twin x s t) (l : List Order) : Twin x (s.appendOrders l) (t.appendOrders l) := by
  obtain ⟨o, h, rfl⟩ := h
  unfold State.appendOrders
  refine Twin.kick ?_
  exact ⟨o, h, rfl⟩

theorem Twin.rejudge (h : Twin x s t) : Twin x s.rejudge t.rejudge := by
  have hready := h.enterReady
  have hwait := h.enterWheelWait
  obtain ⟨o, h, rfl⟩ := h
  unfold State.rejudge
  rw [State.over_wheelCondition]
  refine .ite (fun _ => ?_) fun _ => ⟨o, h, rfl⟩
  cases s.wheelCondition with
  | ready => exact hready
  | mismatch => exact .ite (fun _ => ⟨o, h, rfl⟩) fun _ => hwait _
  | noMap => exact .ite (fun _ => ⟨o, h, rfl⟩) fun _ => hwait _

theorem Twin.heatCheck (h : Twin x s t) (petal level : Nat) : Twin x (s.heatCheck petal level) (t.heatCheck petal level) := by
  obtain ⟨o, h, rfl⟩ := h
  refine .ite (fun _ => ⟨o, h, rfl⟩) fun _ => ?_
  have hcount : Twin x (if s.seq.heatCounted then s else s.raise .heatWaits)
      (if s.seq.heatCounted then s.over o else (s.over o).raise .heatWaits) :=
    .ite (fun _ => ⟨o, h, rfl⟩) fun _ => ⟨o, h, rfl⟩
  obtain ⟨p, h, e⟩ := hcount
  dsimp only
  rw [e]
  exact ⟨p, h, rfl⟩

theorem Twin.clearFault (h : Twin x s t) (k : FaultKind) (ch : Channel) : Twin x (s.clearFault k ch) (t.clearFault k ch) := by
  obtain ⟨o, h, rfl⟩ := h
  exact ⟨o, h, rfl⟩

theorem Twin.driven (h : Twin x s t) (ch : Channel) : Twin x (s.driven ch) (t.driven ch) := h.clearFault _ _

theorem Twin.drivenIf (h : Twin x s t) (b : Bool) (ch : Channel) : Twin x (s.drivenIf b ch) (t.drivenIf b ch) :=
  .ite (fun _ => h.driven ch) fun _ => h

theorem Twin.positionComplete (h : Twin x s t) : Twin x s.positionComplete t.positionComplete := by
  have hdriven (a b c : Bool) := ((h.drivenIf a .wheel).drivenIf b .carriage).drivenIf c .lift
  obtain ⟨o, h, rfl⟩ := h
  unfold State.positionComplete
  cases s.seq.flight with
  | none => exact ⟨o, h, rfl⟩
  | some f =>
    cases f with
    | position petal level us =>
      cases s.seq.queue with
      | nil => exact ⟨o, h, rfl⟩
      | cons a rest =>
        refine .ite (fun _ => ?_) fun _ => ⟨o, h, rfl⟩
        obtain ⟨p, h, e⟩ := hdriven (s.seq.petal ≠ some petal) (s.seq.carriage ≠ some a.pos) (s.seq.liftTarget ≠ none)
        dsimp only
        rw [e]
        refine Twin.heatCheck ?_ _ _
        exact ⟨p, h, rfl⟩
    | _ => exact ⟨o, h, rfl⟩

theorem Twin.countPulse (h : Twin x s t) : Twin x s.countPulse t.countPulse := by
  have hraise := h.raise
  obtain ⟨o, h, rfl⟩ := h
  unfold State.countPulse
  cases s.seq.queue with
  | nil => exact hraise .strikes
  | cons a rest => cases a <;> exact hraise _

theorem Twin.finishOrder (h : Twin x s t) (petal level : Nat) : Twin x (s.finishOrder petal level) (t.finishOrder petal level) := by
  have hdone := h.popOrder.reportDone petal s.seq.wheelCode level
  obtain ⟨o, h, rfl⟩ := h
  unfold State.finishOrder
  cases s.seq.queue with
  | nil => exact ⟨o, h, rfl⟩
  | cons a rest => exact hdone a

theorem Twin.indexComplete (h : Twin x s t) (paper : Bool) : Twin x (s.indexComplete paper) (t.indexComplete paper) := by
  obtain ⟨o, h, rfl⟩ := h
  unfold State.indexComplete
  cases s.seq.flight with
  | none => exact ⟨o, h, rfl⟩
  | some f =>
    cases f with
    | indexing k us =>
      cases s.seq.queue with
      | nil => exact ⟨o, h, rfl⟩
      | cons a rest =>
        have hpop (v : Nat) : Twin x (State.popOrder { s.driven .paper with seq := { s.seq with paperPos := v } })
            (State.popOrder { (s.over o).driven .paper with seq := { (s.over o).seq with paperPos := v } }) := ⟨o, h, rfl⟩
        have hafter (v : Nat) := Twin.ite (c := paper = true) (fun _ => (hpop v).runQueue) fun _ => (hpop v).pausedBy .paper
        exact hafter _
    | _ => exact ⟨o, h, rfl⟩

theorem Twin.moveComplete (h : Twin x s t) : Twin x s.moveComplete t.moveComplete := by
  obtain ⟨o, h, rfl⟩ := h
  unfold State.moveComplete
  cases s.seq.flight with
  | none => exact ⟨o, h, rfl⟩
  | some f =>
    cases f with
    | moving us =>
      cases s.seq.queue with
      | nil => exact ⟨o, h, rfl⟩
      | cons a rest =>
        cases a with
        | move p =>
          refine Twin.runQueue (Twin.popOrder ?_)
          exact ⟨o, h, rfl⟩
        | _ => exact ⟨o, h, rfl⟩
    | _ => exact ⟨o, h, rfl⟩

/-! ### Motions stopped on the way (R74, R81, R85 to R88) -/

theorem Twin.stopCarriage (h : Twin x s t) (dest : Nat) : Twin x (s.stopCarriage dest) (t.stopCarriage dest) := by
  obtain ⟨o, h, rfl⟩ := h
  unfold State.stopCarriage
  cases s.seq.carriage with
  | none => exact ⟨o, h, rfl⟩
  | some a => exact ⟨o, h, rfl⟩

theorem Twin.stopWheel (h : Twin x s t) (dest : Nat) : Twin x (s.stopWheel dest) (t.stopWheel dest) := by
  obtain ⟨o, h, rfl⟩ := h
  unfold State.stopWheel
  cases s.seq.petal with
  | none => exact ⟨o, h, rfl⟩
  | some a => exact ⟨o, h, rfl⟩

theorem Twin.stopTurning (h : Twin x s t) : Twin x s.stopTurning t.stopTurning := by
  obtain ⟨o, h, rfl⟩ := h
  unfold State.stopTurning
  cases s.seq.petal with
  | none => exact ⟨o, h, rfl⟩
  | some a => exact ⟨o, h, rfl⟩

theorem Twin.stopLift (h : Twin x s t) : Twin x s.stopLift t.stopLift := by
  obtain ⟨o, h, rfl⟩ := h
  unfold State.stopLift
  cases s.seq.liftTarget with
  | none => exact ⟨o, h, rfl⟩
  | some a => exact ⟨o, h, rfl⟩

theorem Twin.stopPaper (h : Twin x s t) (k : Nat) : Twin x (s.stopPaper k) (t.stopPaper k) := by
  obtain ⟨o, h, rfl⟩ := h
  unfold State.stopPaper
  dsimp only [State.drawReached]
  cases s.seq.queue with
  | nil => exact ⟨o, h, rfl⟩
  | cons a rest =>
    cases a with
    | index c => exact .ite (fun _ => ⟨o, h, rfl⟩) fun _ => ⟨o, h, rfl⟩
    | indexPage => exact .ite (fun _ => ⟨o, h, rfl⟩) fun _ => ⟨o, h, rfl⟩
    | _ => exact ⟨o, h, rfl⟩

/-- The order in flight leaves flight at the head of the queue (R85, R88). -/
theorem Twin.leaveFlight (h : Twin x s t) (a : Order) :
    Twin x (State.reportLeftFlight { s with seq := { s.seq with flight := none, coverStop := false } } a)
      (State.reportLeftFlight { t with seq := { t.seq with flight := none, coverStop := false } } a) := by
  obtain ⟨o, h, rfl⟩ := h
  refine Twin.reportLeftFlight ?_ a
  exact ⟨o, h, rfl⟩

theorem Twin.abandonFlight (h : Twin x s t) : Twin x s.abandonFlight t.abandonFlight := by
  have hcarriage := h.stopCarriage
  have hpaper := h.stopPaper
  have hleave := h.leaveFlight
  obtain ⟨o, h, rfl⟩ := h
  unfold State.abandonFlight
  cases s.seq.flight with
  | none => exact ⟨o, h, rfl⟩
  | some f =>
    cases s.seq.queue with
    | nil => exact ⟨o, h, rfl⟩
    | cons a rest =>
      cases f with
      | position petal level us => exact ((hcarriage a.pos).stopWheel petal).leaveFlight a
      | moving us => exact (hcarriage a.pos).leaveFlight a
      | indexing k us => exact (hpaper k).leaveFlight a
      | _ => exact hleave a

/-- The homing in progress ends (R69). -/
theorem Twin.leaveHoming (h : Twin x s t) :
    Twin x (State.stopLift { s with seq := { s.seq with homing := none } })
      (State.stopLift { t with seq := { t.seq with homing := none } }) := by
  obtain ⟨o, h, rfl⟩ := h
  refine Twin.stopLift ?_
  exact ⟨o, h, rfl⟩

theorem Twin.abandonHoming (h : Twin x s t) : Twin x s.abandonHoming t.abandonHoming := by
  have hcarriage := h.stopCarriage
  have hturn := h.stopTurning
  have hleave := h.leaveHoming
  obtain ⟨o, h, rfl⟩ := h
  unfold State.abandonHoming
  cases s.seq.homing with
  | none => exact ⟨o, h, rfl⟩
  | some m =>
    cases m with
    | home => exact (hcarriage 0).leaveHoming
    | ret target => exact (hcarriage target).leaveHoming
    | index => exact hturn.leaveHoming
    | ident reads => exact hturn.leaveHoming
    | test ch => exact hleave

/-- A pause in force becomes a request, and a state is entered (R69, R85, R87). -/
theorem Twin.keepPause (h : Twin x s t) (st : MechState) (r : Reason) :
    Twin x (State.enter { s with seq := s.seq.pauseToRequest } st r)
      (State.enter { t with seq := t.seq.pauseToRequest } st r) := by
  obtain ⟨o, h, rfl⟩ := h
  refine Twin.enter ?_ _ _
  exact ⟨o, h, rfl⟩

/-! ### Faults, homing and tests (R70, R71, R142 to R149) -/

theorem Twin.halt (h : Twin x s t) (k : FaultKind) : Twin x (s.halt k) (t.halt k) := by
  have hhalt := h.abandonFlight.abandonHoming.stopLift.keepPause .halted (.fault k)
  obtain ⟨o, h, rfl⟩ := h
  exact .ite (fun _ => ⟨o, h, rfl⟩) fun _ => hhalt

theorem Twin.raiseFault (h : Twin x s t) (k : FaultKind) (ch : Channel) : Twin x (s.raiseFault k ch) (t.raiseFault k ch) := by
  obtain ⟨o, h, rfl⟩ := h
  unfold State.raiseFault
  cases findFault s.drv.faults k ch with
  | none =>
    refine .ite (fun _ => Twin.event ?_ _) fun _ => ⟨o, h, rfl⟩
    exact ⟨o, h, rfl⟩
  | some r =>
    refine .ite (fun _ => ⟨o, h, rfl⟩) fun _ => Twin.event ?_ _
    exact ⟨o, h, rfl⟩

theorem State.over_halting (s : State) (o : Overlay) (k : FaultKind) : (s.over o).halting k = s.halting k := rfl

theorem Twin.fault (h : Twin x s t) (k : FaultKind) (ch : Channel) : Twin x (s.fault k ch) (t.fault k ch) := by
  have hraise := h.raiseFault k ch
  obtain ⟨o, h, rfl⟩ := h
  unfold State.fault
  rw [State.over_halting]
  exact .ite (fun _ => hraise.halt k) fun _ => hraise

theorem Twin.homingFault (h : Twin x s t) (k : FaultKind) (ch : Channel) :
    Twin x (s.homingFault k ch) (t.homingFault k ch) := by
  have hfault := h.fault k ch
  obtain ⟨o, h, rfl⟩ := h
  unfold State.homingFault
  rw [State.over_halting]
  refine .ite (fun _ => hfault) fun _ => ?_
  obtain ⟨p, h, e⟩ := hfault
  rw [e]
  refine Twin.enter ?_ _ _
  exact ⟨p, h, rfl⟩

theorem Twin.startHoming (h : Twin x s t) : Twin x s.startHoming t.startHoming := by
  obtain ⟨o, h, e⟩ := h.abandonHoming
  unfold State.startHoming
  rw [e]
  dsimp only
  refine .ite (fun _ => Twin.enter ?_ _ _) fun _ => Twin.enter ?_ _ _
  · exact ⟨o, h, rfl⟩
  · exact ⟨o, h, rfl⟩

theorem Twin.homeSeen (h : Twin x s t) : Twin x s.homeSeen t.homeSeen := by
  obtain ⟨o, h, rfl⟩ := h
  exact .ite (fun _ => ⟨o, h, rfl⟩) fun _ => ⟨o, h, rfl⟩

theorem Twin.returnComplete (h : Twin x s t) : Twin x s.returnComplete t.returnComplete := by
  obtain ⟨o, h, rfl⟩ := h
  unfold State.returnComplete
  cases s.seq.homing with
  | none => exact ⟨o, h, rfl⟩
  | some m => cases m <;> exact ⟨o, h, rfl⟩

theorem Twin.indexSeen (h : Twin x s t) : Twin x s.indexSeen t.indexSeen := by
  obtain ⟨o, h, rfl⟩ := h
  exact .ite (fun _ => ⟨o, h, rfl⟩) fun _ => ⟨o, h, rfl⟩

theorem Twin.identified (h : Twin x s t) (code : Nat) : Twin x (s.identified code) (t.identified code) := by
  have hcoded : Twin x (State.event { s with seq := { s.seq with wheelCode := code } } (.wheelIdentified code))
      (State.event { t with seq := { t.seq with wheelCode := code } } (.wheelIdentified code)) := by
    obtain ⟨o, h, rfl⟩ := h
    refine Twin.event ?_ _
    exact ⟨o, h, rfl⟩
  have hwas : t.active .wheelMap = s.active .wheelMap := by
    obtain ⟨o, -, rfl⟩ := h
    rfl
  have htold := hcoded.event
  obtain ⟨o, h, e⟩ := hcoded
  unfold State.identified
  rw [e] at htold ⊢
  rw [hwas]
  simp only [State.over_active]
  cases State.active (State.event { s with seq := { s.seq with wheelCode := code } } (.wheelIdentified code)) .wheelMap with
  | none => exact ⟨o, h, rfl⟩
  | some i => exact .ite (fun _ => ⟨o, h, rfl⟩) fun _ => htold _

theorem Twin.identRead (h : Twin x s t) (code : Nat) : Twin x (s.identRead code) (t.identRead code) := by
  obtain ⟨o, h, rfl⟩ := h
  unfold State.identRead
  cases s.seq.homing with
  | none => exact ⟨o, h, rfl⟩
  | some m =>
    cases m with
    | ident reads =>
      dsimp only
      cases identResult (reads ++ [code]) with
      | none => exact ⟨o, h, rfl⟩
      | some r =>
        refine Twin.identified ?_ r
        exact ⟨o, h, rfl⟩
    | _ => exact ⟨o, h, rfl⟩

theorem Twin.homingEnd (h : Twin x s t) : Twin x s.homingEnd t.homingEnd := by
  have hended : Twin x { s with seq := { s.seq with homing := none } } { t with seq := { t.seq with homing := none } } := by
    obtain ⟨o, h, rfl⟩ := h
    exact ⟨o, h, rfl⟩
  have hready := hended.enterReady
  have hwait := hended.enterWheelWait
  obtain ⟨o, -, e⟩ := hended
  unfold State.homingEnd
  rw [e] at hready hwait ⊢
  dsimp only
  rw [State.over_wheelCondition]
  cases State.wheelCondition { s with seq := { s.seq with homing := none } } with
  | ready => exact hready
  | mismatch => exact hwait _
  | noMap => exact hwait _

theorem Twin.testResult (h : Twin x s t) (ch : Channel) (pass : Bool) :
    Twin x (s.testResult ch pass) (t.testResult ch pass) := by
  obtain ⟨o, h, rfl⟩ := h
  refine .ite (fun _ => ⟨o, h, rfl⟩) fun _ => Twin.fault ?_ _ _
  exact ⟨o, h, rfl⟩

theorem Twin.nextTest (h : Twin x s t) (ch : Channel) : Twin x (s.nextTest ch) (t.nextTest ch) := by
  have hend := h.homingEnd
  obtain ⟨o, h, rfl⟩ := h
  exact .ite (fun _ => ⟨o, h, rfl⟩) fun _ => .ite (fun _ => hend) fun _ => ⟨o, h, rfl⟩

theorem Twin.testComplete (h : Twin x s t) (pass : Bool) : Twin x (s.testComplete pass) (t.testComplete pass) := by
  have htest (ch : Channel) := (h.testResult ch pass).nextTest ch
  obtain ⟨o, h, rfl⟩ := h
  have hrotation : Twin x
      (if s.drv.rotTest = some .running then
        State.testResult { s with drv := { s.drv with rotation := nextChannel s.drv.rotation, rotTest := none } } s.drv.rotation pass
      else s)
      (if (s.over o).drv.rotTest = some .running then
        State.testResult { s.over o with drv := { (s.over o).drv with rotation := nextChannel (s.over o).drv.rotation, rotTest := none } }
          (s.over o).drv.rotation pass
      else s.over o) := by
    refine .ite (fun _ => Twin.testResult ?_ _ _) fun _ => ⟨o, h, rfl⟩
    exact ⟨o, h, rfl⟩
  unfold State.testComplete
  cases s.seq.homing with
  | none => exact hrotation
  | some m =>
    cases m with
    | test ch => exact htest ch
    | _ => exact hrotation

theorem Twin.liftComplete (h : Twin x s t) : Twin x s.liftComplete t.liftComplete := by
  obtain ⟨o, h, rfl⟩ := h
  unfold State.liftComplete
  cases s.seq.liftTarget with
  | none => exact ⟨o, h, rfl⟩
  | some a => exact ⟨o, h, rfl⟩

theorem Twin.overcurrent (h : Twin x s t) (ch : Channel) : Twin x (s.overcurrent ch) (t.overcurrent ch) := by
  have hfault := h.fault .overcurrent ch
  obtain ⟨o, h, rfl⟩ := h
  exact .ite (fun _ => hfault) fun _ => ⟨o, h, rfl⟩

theorem Twin.homeLost (h : Twin x s t) : Twin x s.homeLost t.homeLost := by
  obtain ⟨o, h, rfl⟩ := h
  refine .ite (fun _ => Twin.homingFault ?_ _ _) fun _ => ⟨o, h, rfl⟩
  exact ⟨o, h, rfl⟩

theorem Twin.indexLost (h : Twin x s t) : Twin x s.indexLost t.indexLost := by
  obtain ⟨o, h, rfl⟩ := h
  refine .ite (fun _ => Twin.homingFault ?_ _ _) fun _ => ⟨o, h, rfl⟩
  exact ⟨o, h, rfl⟩

/-! ### Pause, resume and the cover (R83 to R86) -/

theorem Twin.requestPause (h : Twin x s t) (r : PauseReason) : Twin x (s.requestPause r) (t.requestPause r) := by
  obtain ⟨o, h, rfl⟩ := h
  exact ⟨o, h, rfl⟩

theorem Twin.pauseNow (h : Twin x s t) (r : PauseReason) : Twin x (s.pauseNow r) (t.pauseNow r) := by
  have hpause := h.pausedBy (s.seq.pauseReq.getD r).reason
  obtain ⟨o, h, rfl⟩ := h
  exact hpause

theorem Twin.askPause (h : Twin x s t) (r : PauseReason) : Twin x (s.askPause r) (t.askPause r) := by
  have hnow := h.pauseNow r
  have hask := h.requestPause r
  obtain ⟨o, h, rfl⟩ := h
  unfold State.askPause
  cases s.seq.state with
  | paused => exact ⟨o, h, rfl⟩
  | idle => exact hnow
  | running => exact .ite (fun _ => hnow) fun _ => hask
  | _ => exact hask

theorem Twin.askResume (h : Twin x s t) (paper : Bool) : Option.Rel (Twin x) (s.askResume paper) (t.askResume paper) := by
  have hready := h.enterReady
  obtain ⟨o, h, rfl⟩ := h
  unfold State.askResume
  split
  · exact .none
  · exact .some hready

theorem Twin.enterCover (h : Twin x s t) : Twin x s.enterCover t.enterCover := h.stopLift.keepPause _ _

theorem Twin.endCoverStop (h : Twin x s t) : Twin x s.endCoverStop t.endCoverStop := by
  have hcover : Twin x (State.enterCover { s with seq := { s.seq with coverStop := false } })
      (State.enterCover { t with seq := { t.seq with coverStop := false } }) := by
    obtain ⟨o, h, rfl⟩ := h
    refine Twin.enterCover ?_
    exact ⟨o, h, rfl⟩
  have hhome := hcover.startHoming
  obtain ⟨o, h, e⟩ := hcover
  unfold State.endCoverStop
  rw [e] at hhome ⊢
  exact .ite (fun _ => ⟨o, h, rfl⟩) fun _ => hhome

theorem Twin.pulseComplete (h : Twin x s t) : Twin x s.pulseComplete t.pulseComplete := by
  have hpulse := h.countPulse.driven .hammer
  obtain ⟨o, h, rfl⟩ := h
  unfold State.pulseComplete
  cases s.seq.flight with
  | none => exact ⟨o, h, rfl⟩
  | some f =>
    cases f with
    | pulse petal level us =>
      have hstop := (hpulse.finishOrder petal level).endCoverStop
      obtain ⟨p, h, e⟩ := hpulse
      dsimp only
      rw [e] at hstop ⊢
      exact .ite (fun _ => hstop) fun _ => ⟨p, h, rfl⟩
    | _ => exact ⟨o, h, rfl⟩

theorem Twin.recoverComplete (h : Twin x s t) : Twin x s.recoverComplete t.recoverComplete := by
  have hrun (petal level : Nat) := (h.finishOrder petal level).runQueue
  obtain ⟨o, h, rfl⟩ := h
  unfold State.recoverComplete
  cases s.seq.flight with
  | none => exact ⟨o, h, rfl⟩
  | some f =>
    cases f with
    | recover petal level us => exact hrun petal level
    | _ => exact ⟨o, h, rfl⟩

theorem Twin.openCover (h : Twin x s t) : Twin x s.openCover t.openCover := by
  have hopened : Twin x { s with coverOpen := true } { t with coverOpen := true } := by
    obtain ⟨o, h, rfl⟩ := h
    exact ⟨o, h, rfl⟩
  have hcover := hopened.enterCover
  have hhoming := hopened.abandonHoming.enterCover
  have hfinish (petal level : Nat) := (hopened.finishOrder petal level).enterCover
  have habandon := hopened.abandonFlight.enterCover
  obtain ⟨o, h, rfl⟩ := h
  refine .ite (fun _ => ⟨o, h, rfl⟩) fun _ => ?_
  dsimp only
  cases s.seq.state with
  | halted => exact ⟨o, h, rfl⟩
  | coverOpen => exact ⟨o, h, rfl⟩
  | homing => exact hhoming
  | running =>
    cases s.seq.flight with
    | none => exact hcover
    | some f =>
      cases f with
      | pulse petal level us => exact ⟨o, h, rfl⟩
      | recover petal level us => exact hfinish petal level
      | _ => exact habandon
  | _ => exact hcover

theorem Twin.closeCover (h : Twin x s t) : Twin x s.closeCover t.closeCover := by
  have hclosed : Twin x { s with coverOpen := false } { t with coverOpen := false } := by
    obtain ⟨o, h, rfl⟩ := h
    exact ⟨o, h, rfl⟩
  have hhome := hclosed.startHoming
  obtain ⟨o, h, rfl⟩ := h
  exact .ite (fun _ => hhome) fun _ => hclosed

end Sys2Proof.Machine
end

section
/-! Twin states evaluate an item of a feed alike, and the outgoing line goes on alike (R28 to R46, R96 to R105). -/

namespace Sys2Proof.Machine

variable {s t u : State} {x : Veil}

/-! ### Evaluations (R28) -/

/-- Two evaluations come to the same, in twin states. -/
structure TwinEval (x : Veil) (e f : Eval) : Prop where
  state : Twin x e.state f.state
  wait  : f.wait = e.wait

theorem TwinEval.ite {c : Prop} [Decidable c] {a a' b b' : Eval} (ha : c → TwinEval x a a') (hb : ¬c → TwinEval x b b') :
    TwinEval x (if c then a else b) (if c then a' else b') := by
  split
  · exact ha ‹_›
  · exact hb ‹_›

theorem Twin.taken (h : Twin x s t) : TwinEval x (.taken s) (.taken t) := ⟨h, rfl⟩

theorem Twin.waits (h : Twin x s t) (c : WaitCause) : TwinEval x (.waits s c) (.waits t c) := ⟨h, rfl⟩

theorem Twin.refused (h : Twin x s t) : TwinEval x (.refused s) (.refused t) := ⟨h.signal _, rfl⟩

theorem Twin.withRoom (h : Twin x s t) (n : Nat) {f g : State → State} (hf : Twin x (f s) (g t)) :
    TwinEval x (s.withRoom n f) (t.withRoom n g) := by
  have hwaits := h.waits .room
  obtain ⟨o, h, rfl⟩ := h
  exact .ite (fun _ => hf.taken) fun _ => hwaits

/-! ### The correction keys in DIRECT (R96 to R105) -/

theorem State.over_correctTarget (s : State) (o : Overlay) : (s.over o).correctTarget = s.correctTarget := rfl

theorem State.over_noTargetReason (s : State) (o : Overlay) : (s.over o).noTargetReason = s.noTargetReason := rfl

theorem State.over_correctStep (s : State) (o : Overlay) (e : Entry) : (s.over o).correctStep e = s.correctStep e := rfl

theorem Twin.refuseCorrect (h : Twin x s t) (r : CorrectReason) : TwinEval x (s.refuseCorrect r) (t.refuseCorrect r) :=
  (h.event _).refused

theorem Twin.cancelEntry (h : Twin x s t) (e : Entry) : Twin x (s.cancelEntry e) (t.cancelEntry e) := by
  obtain ⟨o, h, rfl⟩ := h
  unfold State.cancelEntry
  rw [State.over_atBoundary]
  refine Twin.textChanged ?_ _
  exact ⟨o, h, rfl⟩

theorem Twin.liftEntry (h : Twin x s t) (e : Entry) : Twin x (s.liftEntry e) (t.liftEntry e) := by
  obtain ⟨o, h, rfl⟩ := h
  unfold State.liftEntry
  rw [State.over_atBoundary, show (s.over o).liftOrders e = s.liftOrders e from rfl]
  dsimp only
  refine Twin.textChanged (Twin.appendOrders ?_ _) _
  exact ⟨o, h, rfl⟩

theorem Twin.directCorrect (h : Twin x s t) : TwinEval x s.directCorrect t.directCorrect := by
  have hrefuse := h.refuseCorrect
  have hwaits := h.waits
  have hcancel := h.cancelEntry
  have hlift := h.liftEntry
  obtain ⟨o, h, rfl⟩ := h
  unfold State.directCorrect
  simp only [State.over_correctTarget, State.over_noTargetReason, State.over_correctStep]
  cases s.correctTarget with
  | none => exact hrefuse _
  | some e =>
    dsimp only
    cases s.correctStep e with
    | wait c => exact hwaits c
    | wrongWheel => exact hrefuse _
    | cancel => exact (hcancel e).taken
    | lift => exact (hlift e).taken

theorem Twin.correctRun (n : Nat) : ∀ {s t}, Twin x s t → ∀ r, TwinEval x (State.correctRun n s r) (State.correctRun n t r) := by
  induction n with
  | zero => exact fun h r => h.taken
  | succ n ih =>
    intro s t h r
    have hrefuse := h.refuseCorrect
    have htaken := h.taken
    have hcancel := h.cancelEntry
    have hlift := h.liftEntry
    obtain ⟨o, h, rfl⟩ := h
    unfold State.correctRun
    simp only [State.over_correctTarget, State.over_noTargetReason, State.over_correctStep]
    cases s.correctTarget with
    | none => exact .ite (fun _ => htaken) fun _ => hrefuse _
    | some e =>
      dsimp only
      cases r.phase.next e.kind with
      | none => exact htaken
      | some p =>
        dsimp only
        cases s.correctStep e with
        | wait c =>
          refine Twin.waits ?_ c
          exact ⟨o, h, rfl⟩
        | wrongWheel => exact hrefuse _
        | cancel => exact ih (hcancel e) _
        | lift => exact ih (hlift e) _

theorem Twin.directRun (h : Twin x s t) (start : RunPhase) : TwinEval x (s.directRun start) (t.directRun start) := by
  have hrun := Twin.correctRun (s.line.entries.length + 1) h (s.line.run.getD ⟨start, false⟩)
  obtain ⟨o, h, rfl⟩ := h
  exact hrun

theorem Twin.directRelocate (h : Twin x s t) : TwinEval x s.directRelocate t.directRelocate := by
  have hgo : Twin x
      (State.appendOrders { s with comp := { s.comp with logical := s.relocation } } [.move (min lastPosition s.relocation)])
      (State.appendOrders { t with comp := { t.comp with logical := t.relocation } } [.move (min lastPosition t.relocation)]) := by
    obtain ⟨o, h, rfl⟩ := h
    rw [show (s.over o).relocation = s.relocation from rfl]
    refine Twin.appendOrders ?_ _
    exact ⟨o, h, rfl⟩
  exact h.withRoom 1 hgo

/-! ### Line ends and characters in DIRECT (R29 to R35, R46) -/

theorem Twin.hotZoneCheck (h : Twin x s t) (p : Nat) : Twin x (s.hotZoneCheck p) (t.hotZoneCheck p) := by
  obtain ⟨o, h, rfl⟩ := h
  refine .ite (fun _ => Twin.event (Twin.signal ?_ _) _) fun _ => ⟨o, h, rfl⟩
  exact ⟨o, h, rfl⟩

theorem Twin.syncCursor (h : Twin x s t) : Twin x s.syncCursor t.syncCursor := by
  obtain ⟨o, h, rfl⟩ := h
  unfold State.syncCursor
  rw [State.over_mode]
  cases s.comp.modeInEffect with
  | line => exact ⟨o, h, rfl⟩
  | direct => exact ⟨o, h, rfl⟩

theorem Twin.withFlags (h : Twin x s t) (f : LineFlags) :
    Twin x { s with comp := { s.comp with flags := f } } { t with comp := { t.comp with flags := f } } := by
  obtain ⟨o, h, rfl⟩ := h
  exact ⟨o, h, rfl⟩

/-- The orders of a line end in the print queue, with the margin and the spacing in force (R34). -/
theorem Twin.endOrders (h : Twin x s t) (k : LineEnd) :
    Twin x (s.appendOrders (k.orders s.comp.left s.set.lineSpacing)) (t.appendOrders (k.orders t.comp.left t.set.lineSpacing)) := by
  have happend := h.appendOrders (k.orders s.comp.left s.set.lineSpacing)
  obtain ⟨o, h, rfl⟩ := h
  exact happend

/-- The carriage of a line end returned and its line counted (R34). -/
theorem Twin.returned (h : Twin x s t) (b : Bool) :
    Twin x (if b then State.raise { s with comp := { s.comp with logical := s.comp.left } } .lines else s)
      (if b then State.raise { t with comp := { t.comp with logical := t.comp.left } } .lines else t) := by
  obtain ⟨o, h, rfl⟩ := h
  exact .ite (fun _ => ⟨o, h, rfl⟩) fun _ => ⟨o, h, rfl⟩

theorem Twin.lineEnd (h : Twin x s t) (k : LineEnd) : Twin x (s.lineEnd k) (t.lineEnd k) :=
  (((h.spellLineEnd.emptyRecord.withFlags .clear).reachBoundary.endOrders k).returned k.returns).moveWindow

theorem Twin.evalLineEnd (h : Twin x s t) (k : LineEnd) : TwinEval x (s.evalLineEnd k) (t.evalLineEnd k) :=
  h.withRoom _ (h.lineEnd k)

theorem Twin.withLogical (h : Twin x s t) (n : Nat) :
    Twin x { s with comp := { s.comp with logical := n } } { t with comp := { t.comp with logical := n } } := by
  obtain ⟨o, h, rfl⟩ := h
  exact ⟨o, h, rfl⟩

theorem Twin.takeDirect (h : Twin x s t) (code : Byte) (isDead bold underline : Bool) :
    Twin x (s.takeDirect code isDead bold underline) (t.takeDirect code isDead bold underline) := by
  have hplaced := (h.appendEntry code (entryKind code isDead) s.comp.logical (s.advance code isDead)
    (s.directStrikes code isDead bold underline)).kick.withLogical (s.comp.logical + s.advance code isDead)
  have hrung := Twin.ite (c := entryKind code isDead = .space) (fun _ => hplaced) fun _ => hplaced.hotZoneCheck s.comp.logical
  obtain ⟨o, h, rfl⟩ := h
  exact hrung.textChanged s.atBoundary

theorem Twin.placeDirect (h : Twin x s t) (code : Byte) (isDead bold underline : Bool) :
    TwinEval x (s.placeDirect code isDead bold underline) (t.placeDirect code isDead bold underline) := by
  have htake := h.withRoom (inTravel (s.directStrikes code isDead bold underline)).length
    (f := fun s => s.takeDirect code isDead bold underline) (g := fun s => s.takeDirect code isDead bold underline)
    (h.takeDirect code isDead bold underline)
  obtain ⟨o, h, rfl⟩ := h
  exact htake

theorem Twin.directKeyChar (h : Twin x s t) (code : Byte) (isDead : Bool) :
    TwinEval x (s.directKeyChar code isDead) (t.directKeyChar code isDead) := by
  have hplace := h.placeDirect code isDead
  have habsent := (h.raise .unprintable).refused
  have hrefused := h.refused
  obtain ⟨o, h, rfl⟩ := h
  exact .ite (fun _ => habsent) fun _ => .ite (fun _ => hrefused) fun _ => .ite (fun _ => hrefused) fun _ => hplace _ _

theorem Twin.advanceAbsent (h : Twin x s t) (code : Byte) : Twin x (s.advanceAbsent code) (t.advanceAbsent code) := by
  have hraised := (h.withLogical (s.comp.logical + s.advance code false)).raise .unprintable
  have htold : Twin x
      (if s.comp.flags.unprintableReported then
        State.raise { s with comp := { s.comp with logical := s.comp.logical + s.advance code false } } .unprintable
      else State.event (State.raise { s with comp := { s.comp with
          logical := s.comp.logical + s.advance code false,
          flags := { s.comp.flags with unprintableReported := true } } } .unprintable) (.unprintable code))
      (if t.comp.flags.unprintableReported then
        State.raise { t with comp := { t.comp with logical := s.comp.logical + s.advance code false } } .unprintable
      else State.event (State.raise { t with comp := { t.comp with
          logical := s.comp.logical + s.advance code false,
          flags := { t.comp.flags with unprintableReported := true } } } .unprintable) (.unprintable code)) := by
    obtain ⟨o, h, rfl⟩ := h
    refine .ite (fun _ => hraised) fun _ => Twin.event ?_ _
    exact ⟨o, h, rfl⟩
  have hrung := htold.hotZoneCheck s.comp.logical
  obtain ⟨o, h, rfl⟩ := h
  exact hrung

theorem Twin.placeRemote (h : Twin x s t) (code : Byte) : TwinEval x (s.placeRemote code) (t.placeRemote code) := by
  have hplace := h.placeDirect code false false false
  have habsent := (h.advanceAbsent code).taken
  have hwaits := h.waits .wheelMap
  obtain ⟨o, h, rfl⟩ := h
  exact .ite (fun _ => hwaits) fun _ => .ite (fun _ => habsent) fun _ => hplace

theorem Twin.discardPastMargin (h : Twin x s t) : Twin x s.discardPastMargin t.discardPastMargin := by
  obtain ⟨o, h, rfl⟩ := h
  refine .ite (fun _ => ⟨o, h, rfl⟩) fun _ => Twin.event ?_ _
  exact ⟨o, h, rfl⟩

theorem Twin.afterAutoReturn (h : Twin x s t) (code : Byte) : TwinEval x (s.afterAutoReturn code) (t.afterAutoReturn code) := by
  have htaken := h.taken
  have hplace := h.placeRemote code
  have hwaits := h.waits .room
  obtain ⟨o, h, rfl⟩ := h
  refine .ite (fun _ => htaken) fun _ => ?_
  cases s.comp.source with
  | remoteText => exact hplace
  | localKeys => exact hwaits

theorem Twin.remoteChar (h : Twin x s t) (code : Byte) : TwinEval x (s.remoteChar code) (t.remoteChar code) := by
  have hwaits := h.waits
  have hreturn := (h.lineEnd .full).afterAutoReturn code
  have hdiscard := h.discardPastMargin.refused
  have hplace := h.placeRemote code
  obtain ⟨o, h, rfl⟩ := h
  refine .ite (fun _ => hwaits _) fun _ => .ite (fun _ => .ite (fun _ => ?_) fun _ => hdiscard) fun _ => hplace
  exact .ite (fun _ => hreturn) fun _ => hwaits _

theorem Twin.backspaceDirect (h : Twin x s t) : Twin x s.backspaceDirect t.backspaceDirect := by
  have hback := (h.withLogical (s.comp.logical - s.backStep)).markBoundary
  obtain ⟨o, h, rfl⟩ := h
  exact .ite (fun _ => ⟨o, h, rfl⟩) fun _ => hback

theorem State.over_directStop (s : State) (o : Overlay) : (s.over o).directStop = s.directStop := rfl

theorem Twin.tabTo (h : Twin x s t) (stop : TabStop) : Twin x (s.tabTo stop) (t.tabTo stop) :=
  (h.withLogical stop.pos).markBoundary

/-! ### The composition buffer (R39 to R45) -/

theorem Twin.editRecs (h : Twin x s t) (recs : List CompRec) (cursor : Nat) :
    Twin x (s.editRecs recs cursor) (t.editRecs recs cursor) := by
  obtain ⟨o, h, rfl⟩ := h
  unfold State.editRecs
  rw [State.over_atBoundary]
  refine Twin.textChanged (Twin.syncCursor ?_) _
  exact ⟨o, h, rfl⟩

theorem Twin.moveCursor (h : Twin x s t) (c : Nat) : Twin x (s.moveCursor c) (t.moveCursor c) := by
  obtain ⟨o, h, rfl⟩ := h
  unfold State.moveCursor
  refine Twin.moveWindow (Twin.syncCursor ?_)
  exact ⟨o, h, rfl⟩

theorem Twin.rungAt (h : Twin x s t) (c : CompRec) (i : Nat) :
    Twin x (if c.kind = .char ∨ c.kind = .dead then s.hotZoneCheck (s.placeOf i) else s)
      (if c.kind = .char ∨ c.kind = .dead then t.hotZoneCheck (t.placeOf i) else t) := by
  have hrung := h.hotZoneCheck (s.placeOf i)
  obtain ⟨o, h, rfl⟩ := h
  exact .ite (fun _ => hrung) fun _ => ⟨o, h, rfl⟩

theorem Twin.insertRec (h : Twin x s t) (c : CompRec) : Twin x (s.insertRec c) (t.insertRec c) := by
  have hedit := h.editRecs (s.withRec c) (s.comp.cursor + 1)
  have hrung := hedit.rungAt c s.comp.cursor
  obtain ⟨o, h, rfl⟩ := h
  exact hrung

theorem State.over_judgeInsert (s : State) (o : Overlay) (c : CompRec) : (s.over o).judgeInsert c = s.judgeInsert c := rfl

theorem Twin.insertOrRefuse (h : Twin x s t) (c : CompRec) : TwinEval x (s.insertOrRefuse c) (t.insertOrRefuse c) := by
  have hinsert := (h.insertRec c).taken
  have hrefused := h.refused
  obtain ⟨o, h, rfl⟩ := h
  unfold State.insertOrRefuse
  rw [State.over_judgeInsert]
  cases s.judgeInsert c with
  | fits => exact hinsert
  | _ => exact hrefused

/-! ### Releases (R41, R43, R129) -/

/-- Two releases come to the same, in twin states. -/
inductive TwinRelease (x : Veil) : Release → Release → Prop
  | done {s t : State} (h : Twin x s t) : TwinRelease x (.done s) (.done t)
  | wait {s t : State} (h : Twin x s t) (c : WaitCause) : TwinRelease x (.wait s c) (.wait t c)
  | refused {s t : State} (h : Twin x s t) : TwinRelease x (.refused s) (.refused t)

theorem Twin.holdRelease (h : Twin x s t) (w : SpellWord) (count : Nat) (fromReturn : Bool) :
    Twin x (s.holdRelease w count fromReturn) (t.holdRelease w count fromReturn) := by
  obtain ⟨o, h, e⟩ := h.event (.releaseHeld w.num count)
  unfold State.holdRelease
  rw [e]
  dsimp only
  refine Twin.moveCursor ?_ _
  exact ⟨o, h, rfl⟩

/-- The composition that a release leaves, with its outgoing line (R41, steps 3 and 4). -/
theorem Twin.composed (h : Twin x s t) (out : Outgoing) (carried : List CompRec) :
    Twin x (s.composed out carried) (t.composed out carried) := by
  obtain ⟨o, h, rfl⟩ := h
  refine Twin.syncCursor ?_
  exact ⟨o, h, rfl⟩

theorem Twin.abandons (h : Twin x s t) (a : LaidOut) : Twin x (s.abandons a) (t.abandons a) := by
  unfold State.abandons
  cases a.abandoned with
  | none => exact h
  | some p => exact h.event _

theorem State.over_placementsFrom (s : State) (o : Overlay) (recs : List CompRec) (l : List (CompRec × Nat × Nat)) :
    ∀ i, (s.over o).placementsFrom recs i l = s.placementsFrom recs i l := by
  induction l with
  | nil => exact fun _ => rfl
  | cons a l ih => exact fun i => congrArg₂ List.cons rfl (ih (i + 1))

theorem Twin.releaseRecs (h : Twin x s t) (n : Nat) (carried : List CompRec) :
    Twin x (s.releaseRecs n carried) (t.releaseRecs n carried) := by
  have hrelease (a : LaidOut) (out : Outgoing) :=
    (((h.abandons a).retireWords fun w => w.last < n).composed out carried).followText
  rw [State.releaseRecs_eq, State.releaseRecs_eq]
  obtain ⟨o, h, rfl⟩ := h
  rw [State.over_placementsFrom, show (s.over o).laidOut = s.laidOut from rfl]
  exact hrelease _ _

theorem State.over_judgeHold (s : State) (o : Overlay) (n : Nat) (b : Bool) : (s.over o).judgeHold n b = s.judgeHold n b := rfl

theorem Twin.evalRelease (h : Twin x s t) (n : Nat) (carried : List CompRec) (fromReturn : Bool) :
    TwinRelease x (s.evalRelease n carried fromReturn) (t.evalRelease n carried fromReturn) := by
  have hdone := (h.completeWords fun w => w.last < n).spellOn
  have hout : t.comp.outgoing = s.comp.outgoing := by
    obtain ⟨o, -, rfl⟩ := h
    rfl
  unfold State.evalRelease
  rw [hout]
  split
  · exact .wait h .outgoing
  · have hhold := hdone.holdRelease
    have hrelease := hdone.releaseRecs n carried
    have hwait := TwinRelease.wait hdone .verdict
    obtain ⟨o, h, e⟩ := hdone
    dsimp only
    rw [e] at hhold hrelease hwait ⊢
    rw [State.over_judgeHold]
    cases State.judgeHold _ n _ with
    | wait => exact hwait
    | held w count => exact .refused (hhold w count fromReturn)
    | pass => exact .done hrelease

theorem State.over_newRec (s : State) (o : Overlay) (code : Byte) (isDead : Bool) :
    (s.over o).newRec code isDead = s.newRec code isDead := rfl

theorem Twin.insertChar (h : Twin x s t) (code : Byte) (isDead : Bool) :
    TwinEval x (s.insertOrRefuse (s.newRec code isDead)) (t.insertOrRefuse (t.newRec code isDead)) := by
  have hinsert := h.insertOrRefuse (s.newRec code isDead)
  obtain ⟨o, h, rfl⟩ := h
  exact hinsert

theorem Twin.wrap (h : Twin x s t) (code : Byte) (isDead : Bool) : TwinEval x (s.wrap code isDead) (t.wrap code isDead) := by
  have hrefused := h.refused
  have hrelease := h.evalRelease
  have hcomp : t.comp.recs = s.comp.recs := by
    obtain ⟨o, -, rfl⟩ := h
    rfl
  unfold State.wrap
  rw [hcomp]
  cases wrapBreak s.comp.recs with
  | none => exact hrefused
  | some i =>
    refine .ite (fun _ => hrefused) fun _ => ?_
    have hrelease := hrelease (releasedCount s.comp.recs i) (s.comp.recs.drop (i + 1)) false
    generalize s.evalRelease _ _ _ = a, t.evalRelease _ _ _ = b at hrelease ⊢
    cases hrelease with
    | done h => exact h.insertChar code isDead
    | wait h c => exact h.waits c
    | refused h => exact h.refused

theorem Twin.lineKeyChar (h : Twin x s t) (code : Byte) (isDead : Bool) :
    TwinEval x (s.lineKeyChar code isDead) (t.lineKeyChar code isDead) := by
  have hrefused := h.refused
  have habsent := (h.raise .unprintable).refused
  have hinsert := (h.insertRec (s.newRec code isDead)).taken
  have hwrap := h.wrap code isDead
  obtain ⟨o, h, rfl⟩ := h
  unfold State.lineKeyChar
  rw [State.over_newRec, State.over_judgeInsert]
  refine .ite (fun _ => hrefused) fun _ => .ite (fun _ => habsent) fun _ => ?_
  cases s.judgeInsert (s.newRec code isDead) with
  | fits => exact hinsert
  | fails => exact hrefused
  | overflow => exact .ite (fun _ => hwrap) fun _ => hrefused

/-! ### Deletions and tab stops in LINE (R40, R44) -/

theorem Twin.deleteTo (h : Twin x s t) (recs : List CompRec) (cursor : Nat) :
    TwinEval x (s.deleteTo recs cursor) (t.deleteTo recs cursor) := by
  have hedit := (h.editRecs recs cursor).taken
  have hrefused := h.refused
  obtain ⟨o, h, rfl⟩ := h
  exact .ite (fun _ => hedit) fun _ => hrefused

theorem Twin.cutTo (h : Twin x s t) (n : Nat) : TwinEval x (s.cutTo n) (t.cutTo n) := by
  have hdelete := h.deleteTo (s.comp.recs.take n ++ s.comp.recs.drop s.comp.cursor) n
  obtain ⟨o, h, rfl⟩ := h
  exact hdelete

theorem Twin.deleteBefore (h : Twin x s t) : TwinEval x s.deleteBefore t.deleteBefore := by
  have hrefused := h.refused
  have hcut := h.cutTo
  obtain ⟨o, h, rfl⟩ := h
  exact .ite (fun _ => hrefused) fun _ => hcut _

theorem Twin.deleteWord (h : Twin x s t) : TwinEval x s.deleteWord t.deleteWord := by
  have hrefused := h.refused
  have hcut := h.cutTo
  obtain ⟨o, h, rfl⟩ := h
  exact .ite (fun _ => hrefused) fun _ => hcut _

theorem Twin.deleteAll (h : Twin x s t) : TwinEval x s.deleteAll t.deleteAll := by
  have hrefused := h.refused
  have hdelete := h.deleteTo [] 0
  obtain ⟨o, h, rfl⟩ := h
  exact .ite (fun _ => hrefused) fun _ => hdelete

theorem Twin.changeTabs (h : Twin x s t) (tabs : List TabStop) : Option.Rel (Twin x) (s.changeTabs tabs) (t.changeTabs tabs) := by
  have htabs : Twin x { s with comp := { s.comp with tabs := tabs } } { t with comp := { t.comp with tabs := tabs } } := by
    obtain ⟨o, h, rfl⟩ := h
    exact ⟨o, h, rfl⟩
  have hfits : State.fits { t with comp := { t.comp with tabs := tabs } } t.comp.recs =
      State.fits { s with comp := { s.comp with tabs := tabs } } s.comp.recs := by
    obtain ⟨o, -, rfl⟩ := h
    rfl
  unfold State.changeTabs
  dsimp only
  rw [hfits]
  split
  · exact .some htabs.syncCursor
  · exact .none

theorem Twin.evalTabSet (h : Twin x s t) (decimal : Bool) : TwinEval x (s.evalTabSet decimal) (t.evalTabSet decimal) := by
  have hrefused := h.refused
  have htabs := h.changeTabs (addStop s.comp.tabs ⟨s.comp.logical, decimal⟩)
  obtain ⟨o, h, rfl⟩ := h
  refine .ite (fun _ => hrefused) fun _ => .ite (fun _ => hrefused) fun _ => ?_
  generalize s.changeTabs _ = a, (s.over o).changeTabs _ = b at htabs ⊢
  cases htabs with
  | some h => exact h.taken
  | none => exact hrefused

theorem Twin.evalTabClear (h : Twin x s t) : TwinEval x s.evalTabClear t.evalTabClear := by
  have hrefused := h.refused
  have htabs := h.changeTabs (removeStop s.comp.tabs s.comp.logical)
  obtain ⟨o, h, rfl⟩ := h
  refine .ite (fun _ => hrefused) fun _ => ?_
  generalize s.changeTabs _ = a, (s.over o).changeTabs _ = b at htabs ⊢
  cases htabs with
  | some h => exact h.taken
  | none => exact hrefused

/-! ### The key functions (R37, R38) -/

theorem State.over_targetWord (s : State) (o : Overlay) : (s.over o).targetWord = s.targetWord := rfl

theorem Twin.evalChar (h : Twin x s t) (code : Byte) : TwinEval x (s.evalChar code) (t.evalChar code) := by
  have hdirect := h.directKeyChar code false
  have hline := h.lineKeyChar code false
  obtain ⟨o, h, rfl⟩ := h
  unfold State.evalChar
  rw [State.over_mode]
  cases s.comp.modeInEffect with
  | direct => exact hdirect
  | line => exact hline

theorem Twin.evalDead (h : Twin x s t) (code : Byte) : TwinEval x (s.evalDead code) (t.evalDead code) := by
  have hdirect := h.directKeyChar code true
  have hline := h.lineKeyChar code true
  obtain ⟨o, h, rfl⟩ := h
  unfold State.evalDead
  rw [State.over_mode]
  cases s.comp.modeInEffect with
  | direct => exact hdirect
  | line => exact hline

theorem Twin.evalReturn (h : Twin x s t) : TwinEval x s.evalReturn t.evalReturn := by
  have hdirect := h.evalLineEnd .full
  have hline := h.evalRelease s.comp.recs.length [] true
  obtain ⟨o, h, rfl⟩ := h
  unfold State.evalReturn
  rw [State.over_mode]
  cases s.comp.modeInEffect with
  | direct => exact hdirect
  | line =>
    dsimp only
    generalize s.evalRelease _ _ _ = a, (s.over o).evalRelease _ _ _ = b at hline ⊢
    cases hline with
    | done h => exact h.taken
    | wait h c => exact h.waits c
    | refused h => exact h.refused

theorem Twin.evalBackspace (h : Twin x s t) : TwinEval x s.evalBackspace t.evalBackspace := by
  have hdirect := h.backspaceDirect.taken
  have hline := h.deleteBefore
  obtain ⟨o, h, rfl⟩ := h
  unfold State.evalBackspace
  rw [State.over_mode]
  cases s.comp.modeInEffect with
  | direct => exact hdirect
  | line => exact hline

theorem Twin.evalTab (h : Twin x s t) : TwinEval x s.evalTab t.evalTab := by
  have hto := h.tabTo
  have hrefused := h.refused
  have hline := h.insertOrRefuse s.newTab
  obtain ⟨o, h, rfl⟩ := h
  unfold State.evalTab
  rw [State.over_mode, State.over_directStop]
  cases s.comp.modeInEffect with
  | direct =>
    dsimp only
    cases s.directStop with
    | none => exact hrefused
    | some stop => exact (hto stop).taken
  | line => exact hline

theorem Twin.evalMarginRelease (h : Twin x s t) : TwinEval x s.evalMarginRelease t.evalMarginRelease := by
  have hflags := (h.withFlags { s.comp.flags with marginReleased := true }).taken
  have hrefused := h.refused
  obtain ⟨o, h, rfl⟩ := h
  unfold State.evalMarginRelease
  rw [State.over_mode]
  cases s.comp.modeInEffect with
  | direct => exact hflags
  | line => exact hrefused

theorem Twin.evalCorrect (h : Twin x s t) : TwinEval x s.evalCorrect t.evalCorrect := by
  have hdirect := h.directCorrect
  have hline := h.deleteBefore
  obtain ⟨o, h, rfl⟩ := h
  unfold State.evalCorrect
  rw [State.over_mode]
  cases s.comp.modeInEffect with
  | direct => exact hdirect
  | line => exact hline

theorem Twin.evalWordCorrect (h : Twin x s t) : TwinEval x s.evalWordCorrect t.evalWordCorrect := by
  have hdirect := h.directRun .spaces
  have hline := h.deleteWord
  obtain ⟨o, h, rfl⟩ := h
  unfold State.evalWordCorrect
  rw [State.over_mode]
  cases s.comp.modeInEffect with
  | direct => exact hdirect
  | line => exact hline

theorem Twin.evalLineCorrect (h : Twin x s t) : TwinEval x s.evalLineCorrect t.evalLineCorrect := by
  have hdirect := h.directRun .all
  have hline := h.deleteAll
  obtain ⟨o, h, rfl⟩ := h
  unfold State.evalLineCorrect
  rw [State.over_mode]
  cases s.comp.modeInEffect with
  | direct => exact hdirect
  | line => exact hline

theorem Twin.evalRelocate (h : Twin x s t) : TwinEval x s.evalRelocate t.evalRelocate := by
  have hdirect := h.directRelocate
  have hline := (h.moveCursor s.comp.recs.length).taken
  obtain ⟨o, h, rfl⟩ := h
  unfold State.evalRelocate
  rw [State.over_mode]
  cases s.comp.modeInEffect with
  | direct => exact hdirect
  | line => exact hline

theorem Twin.evalPaper (h : Twin x s t) (n : Int) : TwinEval x (s.evalPaper n) (t.evalPaper n) := by
  have hdirect := h.evalLineEnd (.paper n)
  have hwaits := h.waits .outgoing
  have happend := h.withRoom 1 (f := fun s => s.appendOrders [.index n]) (g := fun s => s.appendOrders [.index n])
    (h.appendOrders _)
  obtain ⟨o, h, rfl⟩ := h
  unfold State.evalPaper
  rw [State.over_mode]
  cases s.comp.modeInEffect with
  | direct => exact hdirect
  | line => exact .ite (fun _ => hwaits) fun _ => happend

theorem Twin.evalJustifyCycle (h : Twin x s t) : TwinEval x s.evalJustifyCycle t.evalJustifyCycle := by
  have hrefused := h.refused
  obtain ⟨o, h, rfl⟩ := h
  unfold State.evalJustifyCycle
  rw [State.over_mode]
  cases s.comp.modeInEffect with
  | direct => exact hrefused
  | line =>
    refine Twin.taken ?_
    exact ⟨o, h, rfl⟩

theorem Twin.evalAcceptWord (h : Twin x s t) : TwinEval x s.evalAcceptWord t.evalAcceptWord := by
  have hset := h.setVerdict
  have hrefused := h.refused
  obtain ⟨o, h, rfl⟩ := h
  unfold State.evalAcceptWord
  rw [State.over_targetWord]
  cases s.targetWord with
  | none => exact hrefused
  | some w => exact .ite (fun _ => (hset _ _).taken) fun _ => hrefused

theorem Twin.evalAddWord (h : Twin x s t) : TwinEval x s.evalAddWord t.evalAddWord := by
  have hadd := h.addUserWord
  have htaken := h.taken
  have hrefused := h.refused
  obtain ⟨o, h, rfl⟩ := h
  unfold State.evalAddWord
  rw [State.over_targetWord]
  cases s.targetWord with
  | none => exact hrefused
  | some w =>
    refine .ite (fun _ => hrefused) fun _ => .ite (fun _ => htaken) fun _ => .ite (fun _ => hrefused) fun _ => ?_
    exact (hadd _).taken

theorem Twin.evalCursorLeft (h : Twin x s t) : TwinEval x s.evalCursorLeft t.evalCursorLeft := by
  have hmove := h.moveCursor
  have hrefused := h.refused
  obtain ⟨o, h, rfl⟩ := h
  unfold State.evalCursorLeft
  rw [State.over_mode]
  cases s.comp.modeInEffect with
  | direct => exact hrefused
  | line => exact .ite (fun _ => hrefused) fun _ => (hmove _).taken

theorem Twin.evalCursorRight (h : Twin x s t) : TwinEval x s.evalCursorRight t.evalCursorRight := by
  have hmove := h.moveCursor
  have hrefused := h.refused
  obtain ⟨o, h, rfl⟩ := h
  unfold State.evalCursorRight
  rw [State.over_mode]
  cases s.comp.modeInEffect with
  | direct => exact hrefused
  | line => exact .ite (fun _ => hrefused) fun _ => (hmove _).taken

theorem Twin.evalBold (h : Twin x s t) : TwinEval x s.evalBold t.evalBold := by
  obtain ⟨o, h, rfl⟩ := h
  refine Twin.taken ?_
  exact ⟨o, h, rfl⟩

theorem Twin.evalUnderline (h : Twin x s t) : TwinEval x s.evalUnderline t.evalUnderline := by
  obtain ⟨o, h, rfl⟩ := h
  refine Twin.taken ?_
  exact ⟨o, h, rfl⟩

theorem Twin.evalPause (h : Twin x s t) (paper : Bool) : TwinEval x (s.evalPause paper) (t.evalPause paper) := by
  have hresume := h.askResume paper
  have hask := (h.askPause .key).taken
  have hrefused := h.refused
  obtain ⟨o, h, rfl⟩ := h
  refine .ite (fun _ => ?_) fun _ => hask
  generalize s.askResume paper = a, (s.over o).askResume paper = b at hresume ⊢
  cases hresume with
  | some h => exact h.taken
  | none => exact hrefused

theorem Twin.evalSpellToggle (h : Twin x s t) : TwinEval x s.evalSpellToggle t.evalSpellToggle := by
  have hset := (h.setSpell (!s.set.spell)).taken
  obtain ⟨o, h, rfl⟩ := h
  exact hset

theorem Twin.paperKeys (h : Twin x s t) :
    TwinEval x (s.evalPaper s.set.lineSpacing) (t.evalPaper t.set.lineSpacing) ∧
      TwinEval x (s.evalPaper (-(s.set.lineSpacing : Int))) (t.evalPaper (-(t.set.lineSpacing : Int))) := by
  have hpaper := h.evalPaper
  obtain ⟨o, h, rfl⟩ := h
  exact ⟨hpaper _, hpaper _⟩

section LineSettings

variable (hs : x.noText ∨ s.comp.source = .remoteText)
include hs

theorem Twin.lineSet (h : Twin x s t) (v : LineValue) : TwinEval x (.taken (s.setLine v).1) (.taken (t.setLine v).1) :=
  (h.setLine hs v).1.taken

theorem Twin.evalMarginLeft (h : Twin x s t) : TwinEval x s.evalMarginLeft t.evalMarginLeft := by
  have hset := h.lineSet hs
  have hrefused := h.refused
  obtain ⟨o, h, rfl⟩ := h
  exact .ite (fun _ => hset _) fun _ => hrefused

theorem Twin.evalMarginRight (h : Twin x s t) : TwinEval x s.evalMarginRight t.evalMarginRight := by
  have hset := h.lineSet hs
  have hrefused := h.refused
  obtain ⟨o, h, rfl⟩ := h
  exact .ite (fun _ => hset _) fun _ => hrefused

theorem Twin.evalPitchCycle (h : Twin x s t) : TwinEval x s.evalPitchCycle t.evalPitchCycle := by
  have hset := h.lineSet hs
  obtain ⟨o, h, rfl⟩ := h
  exact hset _

theorem Twin.evalModeToggle (h : Twin x s t) : TwinEval x s.evalModeToggle t.evalModeToggle := by
  have hset := h.lineSet hs
  obtain ⟨o, h, rfl⟩ := h
  exact hset _

theorem Twin.evalSourceToggle (h : Twin x s t) : TwinEval x s.evalSourceToggle t.evalSourceToggle := by
  have hset := h.lineSet hs
  obtain ⟨o, h, rfl⟩ := h
  exact hset _

theorem Twin.evalFunc (h : Twin x s t) (paper : Bool) (f : Func) : TwinEval x (s.evalFunc paper f) (t.evalFunc paper f) := by
  cases f with
  | shift => exact h.taken
  | code => exact h.taken
  | shiftLock => exact h.taken
  | space => exact h.evalChar _
  | returnKey => exact h.evalReturn
  | backspace => exact h.evalBackspace
  | tab => exact h.evalTab
  | marginLeft => exact h.evalMarginLeft hs
  | marginRight => exact h.evalMarginRight hs
  | marginRelease => exact h.evalMarginRelease
  | tabSet => exact h.evalTabSet false
  | tabClear => exact h.evalTabClear
  | decimalTabSet => exact h.evalTabSet true
  | correct => exact h.evalCorrect
  | wordCorrect => exact h.evalWordCorrect
  | lineCorrect => exact h.evalLineCorrect
  | relocate => exact h.evalRelocate
  | paperUp => exact h.paperKeys.1
  | paperDown => exact h.paperKeys.2
  | halfUp => exact h.evalPaper 1
  | halfDown => exact h.evalPaper (-1)
  | pitchCycle => exact h.evalPitchCycle hs
  | modeToggle => exact h.evalModeToggle hs
  | justifyCycle => exact h.evalJustifyCycle
  | spellToggle => exact h.evalSpellToggle
  | acceptWord => exact h.evalAcceptWord
  | addWord => exact h.evalAddWord
  | cursorLeft => exact h.evalCursorLeft
  | cursorRight => exact h.evalCursorRight
  | boldToggle => exact h.evalBold
  | underlineToggle => exact h.evalUnderline
  | pause => exact h.evalPause paper
  | sourceToggle => exact h.evalSourceToggle hs

theorem Twin.evalKey (h : Twin x s t) (paper : Bool) (a : KeyAction) : TwinEval x (s.evalKey paper a) (t.evalKey paper a) := by
  have hrefused := h.refused
  have hchar := h.evalChar
  have hdead := h.evalDead
  have hfunc := h.evalFunc hs paper
  obtain ⟨o, h, rfl⟩ := h
  refine .ite (fun _ => hrefused) fun _ => ?_
  cases a with
  | char c => exact hchar c
  | dead c => exact hdead c
  | func f => exact hfunc f

end LineSettings

theorem Twin.evalText (h : Twin x s t) (code : Byte) : TwinEval x (s.evalText code) (t.evalText code) := by
  have hunmapped := (h.raise .unmappedControls).taken
  have htab : TwinEval x
      (match s.directStop with | some a => .taken (s.tabTo a) | none => .taken (s.raise .unmappedControls))
      (match t.directStop with | some a => .taken (t.tabTo a) | none => .taken (t.raise .unmappedControls)) := by
    have hto := h.tabTo
    obtain ⟨o, h, rfl⟩ := h
    rw [State.over_directStop]
    cases s.directStop with
    | none => exact hunmapped
    | some a => exact (hto a).taken
  refine .ite (fun _ => h.remoteChar code) fun _ => .ite (fun _ => h.evalLineEnd .cr) fun _ =>
    .ite (fun _ => h.evalLineEnd .lf) fun _ => .ite (fun _ => h.evalLineEnd .ff) fun _ =>
    .ite (fun _ => h.backspaceDirect.taken) fun _ => .ite (fun _ => htab) fun _ => hunmapped

/-! ### The outgoing line (R42) -/

theorem Twin.streamPlacement (h : Twin x s t) : Twin x s.streamPlacement t.streamPlacement := by
  obtain ⟨o, h, rfl⟩ := h
  unfold State.streamPlacement
  cases s.comp.outgoing with
  | none => exact ⟨o, h, rfl⟩
  | some out =>
    obtain ⟨placements, left, spacing⟩ := out
    cases placements with
    | nil => exact ⟨o, h, rfl⟩
    | cons p rest =>
      refine .ite (fun _ => Twin.kick (Twin.appendStrikes ?_ _ _)) fun _ => ⟨o, h, rfl⟩
      exact ⟨o, h, rfl⟩

theorem Twin.endOutgoing (h : Twin x s t) : Twin x s.endOutgoing t.endOutgoing := by
  obtain ⟨o, h, rfl⟩ := h
  unfold State.endOutgoing
  rw [State.over_atBoundary]
  cases s.comp.outgoing with
  | none => exact ⟨o, h, rfl⟩
  | some out =>
    obtain ⟨placements, left, spacing⟩ := out
    cases placements with
    | cons p rest => exact ⟨o, h, rfl⟩
    | nil =>
      refine .ite (fun _ => Twin.boundaryAfter (Twin.appendOrders ?_ _) _) fun _ => ⟨o, h, rfl⟩
      exact ⟨o, h, rfl⟩

end Sys2Proof.Machine
end

section
/-! Twin states carry out a command alike, up to the items it releases (R28, R176). -/

namespace Sys2Proof.Machine

variable {s t u p q : State} {x : Veil}

/-! ### Settings that act at once (R10, R14, R123, R137, R140, R181) -/

theorem Twin.withSet (h : Twin x s t) {f : Settings → Settings} (hf : ∀ c, (f c).display = c.display) :
    Twin x (s.withSet f) (t.withSet f) := by
  obtain ⟨o, h, rfl⟩ := h
  exact ⟨o, { h with image := h.image.imp_right fun ⟨hx, hd⟩ => ⟨hx, (hf s.set).trans hd⟩ }, rfl⟩

theorem Twin.tellActive (h : Twin x s t) (k : TableKind) : Twin x (s.tellActive k) (t.tellActive k) := by
  have htold := h.event
  obtain ⟨o, h, rfl⟩ := h
  unfold State.tellActive
  rw [State.over_active]
  cases s.active k with
  | none => exact ⟨o, h, rfl⟩
  | some i => exact htold _

theorem Twin.setKeyboard (h : Twin x s t) (v : Nat) : Twin x (s.setKeyboard v) (t.setKeyboard v) := by
  obtain ⟨o, h, rfl⟩ := h
  refine .ite (fun _ => ⟨o, h, rfl⟩) fun _ => Twin.tellActive ?_ _
  exact ⟨o, h, rfl⟩

theorem Twin.setLanguage (h : Twin x s t) (v : Nat) : Twin x (s.setLanguage v) (t.setLanguage v) := by
  have hset := h.withSet (f := fun c => { c with language := v }) fun _ => rfl
  have hchanged := (hset.tellActive .lexicon).lexiconChanged
  obtain ⟨o, h, rfl⟩ := h
  exact .ite (fun _ => hset) fun _ => hchanged

theorem State.over_image (s : State) (o : Overlay) : (s.over o).image = s.image := rfl

theorem Twin.formImage (h : Twin x s t) : Twin x s.formImage t.formImage := by
  obtain ⟨o, h, rfl⟩ := h
  unfold State.formImage
  rw [State.over_image]
  refine .ite (fun _ => ?_) fun _ => ⟨o, h, rfl⟩
  exact ⟨{ o with
      current := some s.image
      slot := if s.disp.lastSent = some s.image then none else some s.image },
    { h with image := .inl ⟨rfl, rfl⟩ }, rfl⟩

theorem Twin.freshImage (h : Twin x s t) (hx : x.looseImage = false) : Twin x s.freshImage t.freshImage := by
  obtain ⟨o, h, rfl⟩ := h
  have hsame := h.image.resolve_right fun ⟨hl, _⟩ => absurd hl (by simp [hx])
  unfold State.freshImage
  refine Twin.formImage ?_
  exact ⟨{ o with slot := none }, { h with image := .inl ⟨hsame.1, rfl⟩ }, rfl⟩

theorem Twin.setDisplay (h : Twin x s t) (hx : x.looseImage = false) (v : Bool) : Twin x (s.setDisplay v) (t.setDisplay v) := by
  have hset : Twin x (s.withSet fun c => { c with display := v }) (t.withSet fun c => { c with display := v }) := by
    obtain ⟨o, h, rfl⟩ := h
    exact ⟨o, { h with image := h.image.imp_right fun ⟨hl, _⟩ => absurd hl (by simp [hx]) }, rfl⟩
  have hon := hset.freshImage hx
  obtain ⟨o, h, rfl⟩ := h
  have hsame := h.image.resolve_right fun ⟨hl, _⟩ => absurd hl (by simp [hx])
  refine .ite (fun _ => ⟨o, h, rfl⟩) fun _ => .ite (fun _ => hon) fun _ => ?_
  exact ⟨{ o with slot := none }, { h with image := .inl ⟨hsame.1, rfl⟩ }, rfl⟩

theorem Twin.setBeeper (h : Twin x s t) (v : Bool) : Twin x (s.setBeeper v) (t.setBeeper v) := by
  obtain ⟨o, h, rfl⟩ := h
  exact .ite (fun _ => ⟨o, h, rfl⟩) fun _ => ⟨o, h, rfl⟩

theorem Twin.setDecimal (h : Twin x s t) (v : Bool) : Option.Rel (Twin x) (s.setDecimal v) (t.setDecimal v) := by
  have hset := h.withSet (f := fun c => { c with decimalComma := v }) fun _ => rfl
  obtain ⟨o, h, e⟩ := hset
  unfold State.setDecimal
  dsimp only
  rw [e]
  have hsync := Twin.syncCursor ⟨o, h, rfl⟩
  rw [show State.fits ((s.withSet fun c => { c with decimalComma := v }).over o)
      ((s.withSet fun c => { c with decimalComma := v }).over o).comp.recs =
    State.fits (s.withSet fun c => { c with decimalComma := v }) (s.withSet fun c => { c with decimalComma := v }).comp.recs from rfl]
  split
  · exact .some hsync
  · exact .none

/-- Two values applied come to the same, in twin states. -/
inductive TwinApplied (x : Veil) : Applied → Applied → Prop
  | done {s t : State} (h : Twin x s t) : TwinApplied x (.done s) (.done t)
  | later {s t : State} (h : Twin x s t) : TwinApplied x (.later s) (.later t)
  | inconsistent : TwinApplied x .inconsistent .inconsistent

theorem TwinApplied.ite {c : Prop} [Decidable c] {a a' b b' : Applied} (ha : TwinApplied x a a') (hb : TwinApplied x b b') :
    TwinApplied x (if c then a else b) (if c then a' else b') := by
  split
  · exact ha
  · exact hb

section Commands

variable (hs : x.noText ∨ s.comp.source = .remoteText)
include hs

theorem Twin.applyLine (h : Twin x s t) (v : LineValue) : TwinApplied x (s.applyLine v) (t.applyLine v) := by
  obtain ⟨hset, hpending⟩ := h.setLine hs v
  unfold State.applyLine
  rw [hpending]
  split
  · exact .later hset
  · exact .done hset

theorem Twin.applySetting (h : Twin x s t) (hx : x.looseImage = false) (v : Nat) (k : Setting) :
    TwinApplied x (s.applySetting v k) (t.applySetting v k) := by
  have hline := h.applyLine hs
  have hset {f : Settings → Settings} (hf : ∀ c, (f c).display = c.display) := TwinApplied.done (h.withSet hf)
  cases k with
  | mode => exact hline _
  | source => exact hline _
  | pitch => exact hline _
  | leftMargin =>
    obtain ⟨o, h, rfl⟩ := h
    exact .ite (hline _) .inconsistent
  | rightMargin =>
    obtain ⟨o, h, rfl⟩ := h
    exact .ite (hline _) .inconsistent
  | spell => exact .done (h.setSpell _)
  | language => exact .done (h.setLanguage _)
  | keyboard => exact .done (h.setKeyboard _)
  | expectedWheel => exact .done (h.withSet (f := fun c => { c with expectedWheel := v }) fun _ => rfl).rejudge
  | display => exact .done (h.setDisplay hx _)
  | beeper => exact .done (h.setBeeper _)
  | decimalChar =>
    have hdecimal := h.setDecimal (v = 1)
    unfold State.applySetting
    generalize s.setDecimal _ = a, t.setDecimal _ = b at hdecimal ⊢
    cases hdecimal with
    | some h => exact .done h
    | none => exact .inconsistent
  | _ => exact hset fun _ => rfl

end Commands

/-! ### The readers of the directory, and the restarts (R88, R107, R150, R158, R167) -/

theorem Twin.readersAct (hp : Twin x p q) (h : Twin x s t) : Twin x (p.readersAct s) (q.readersAct t) := by
  have hkeys : Twin x
      (if s.rejudge.active .keyMap = p.active .keyMap then s.rejudge
        else { s.rejudge with intake := s.rejudge.intake.endRepeat })
      (if t.rejudge.active .keyMap = q.active .keyMap then t.rejudge
        else { t.rejudge with intake := t.rejudge.intake.endRepeat }) := by
    obtain ⟨r, -, rfl⟩ := hp
    obtain ⟨o, h, e⟩ := h.rejudge
    rw [e]
    exact .ite (fun _ => ⟨o, h, rfl⟩) fun _ => ⟨o, h, rfl⟩
  have hlex := hkeys.lexiconChanged
  obtain ⟨r, -, rfl⟩ := hp
  obtain ⟨o, h, e⟩ := hkeys
  unfold State.readersAct
  dsimp only
  rw [e] at hlex ⊢
  exact .ite (fun _ => ⟨o, h, rfl⟩) fun _ => hlex

/-- Where the return lines are the same, an ANSWER takes one reserved place in both. -/
theorem Twin.answer (h : Twin x s t) (hx : x.looseRet = false) (code : Byte) (c : CmdOutcome) (data : List Byte) :
    Twin { x with reserved := x.reserved - 1 } (s.answer code c data) (t.answer code c data) := by
  obtain ⟨o, h, rfl⟩ := h
  have hret : o.ret = s.ret := h.ret.resolve_right fun ⟨hl, _⟩ => absurd hl (by simp [hx])
  refine ⟨{ o with ret := (s.answer code c data).ret }, ?_, ?_⟩
  · exact { h with
      ret := .inl rfl
      reserved := congrArg (· - 1) h.reserved }
  · rw [State.answer, show (s.over o).ret = s.ret from hret]
    rfl

theorem Twin.settleFlight (h : Twin x s t) : Twin x s.settleFlight t.settleFlight := by
  have hpulse : Twin x { s.countPulse.driven .hammer with seq := { s.seq with coverStop := false } }
      { t.countPulse.driven .hammer with seq := { t.seq with coverStop := false } } := by
    obtain ⟨p, hp, e⟩ := h.countPulse.driven .hammer
    obtain ⟨o, h, rfl⟩ := h
    rw [e]
    exact ⟨p, hp, rfl⟩
  have hfinish := h.finishOrder
  have habandon := h.abandonFlight
  have hcomplete := hpulse.finishOrder
  obtain ⟨o, h, rfl⟩ := h
  unfold State.settleFlight
  cases s.seq.flight with
  | none => exact habandon
  | some f =>
    cases f with
    | pulse petal level us => exact hcomplete petal level
    | recover petal level us => exact hfinish petal level
    | _ => exact habandon

theorem Twin.clearOrders (h : Twin x s t) : Twin x s.clearOrders t.clearOrders := by
  have hcleared : Twin x
      (State.textChanged s.atBoundary { s with
        seq := { s.seq with queue := [], heatCounted := false }
        line := { s.line with entries := (s.line.entries.filter Entry.stays).map Entry.restarted }
        comp := { s.comp with outgoing := none } })
      (State.textChanged t.atBoundary { t with
        seq := { t.seq with queue := [], heatCounted := false }
        line := { t.line with entries := (t.line.entries.filter Entry.stays).map Entry.restarted }
        comp := { t.comp with outgoing := none } }) := by
    obtain ⟨o, h, rfl⟩ := h
    rw [State.over_atBoundary]
    refine Twin.textChanged ?_ _
    exact ⟨o, h, rfl⟩
  have hsync := hcleared.syncCursor
  obtain ⟨o, h, e⟩ := hcleared
  unfold State.clearOrders
  dsimp only
  rw [e] at hsync ⊢
  rw [State.over_mode]
  cases Composer.modeInEffect _ with
  | direct => exact ⟨o, h, rfl⟩
  | line => exact hsync

theorem Twin.rehome (h : Twin x s t) : Twin x s.rehome t.rehome := by
  obtain ⟨o, h, e⟩ := h.startHoming
  unfold State.rehome
  rw [e]
  exact ⟨o, h, rfl⟩

theorem Twin.restartMech (h : Twin x s t) (hx : x.looseRet = false) :
    Twin { x with reserved := x.reserved - 1 } s.restartMech t.restartMech := by
  obtain ⟨o, h, e⟩ := (h.answer hx 0x11 .done []).settleFlight.abandonHoming.stopLift
  unfold State.restartMech State.restartAnswer
  dsimp only
  rw [e]
  refine Twin.rehome (Twin.clearOrders ?_)
  exact ⟨o, h, rfl⟩

theorem Twin.withSlots (h : Twin x s t) (l : List Slot) : Twin x (s.withSlots l) (t.withSlots l) := by
  obtain ⟨o, h, rfl⟩ := h
  exact ⟨o, h, rfl⟩

theorem Twin.restartTables (h : Twin x s t) (hx : x.looseRet = false) :
    Twin { x with reserved := x.reserved - 1 } s.restartTables t.restartTables :=
  have hanswer := h.answer hx 0x11 .done []
  hanswer.readersAct (hanswer.withSlots noSlots)

theorem Twin.tellCleared (h : Twin x s t) (l : List FaultRec) : Twin x (s.tellCleared l) (t.tellCleared l) :=
  Twin.foldl (f := fun s (f : FaultRec) => s.event (.faultCleared f.kind f.ch)) (fun h _ => h.event _) l h

/-! ### What a command comes to (R28, R176) -/

/-- A command that is answered last, with what it is answered. -/
abbrev Reply := Byte × CmdOutcome × List Byte

/-- The ANSWER queued that a command ends with, where it ends with one. -/
def State.replied (s : State) : Option Reply → State
  | none => s
  | some (code, o, data) => s.answer code o data

/-- From `p` to `t` nothing has changed that an item waits on, and the Composer stands (R28). -/
structure State.standsIn (p t : State) : Prop where
  comp   : t.comp = p.comp
  queue  : t.seq.queue = p.seq.queue
  flight : t.seq.flight = p.seq.flight
  hold   : t.set.holdOnMiss = p.set.holdOnMiss
  words  : t.spell.words = p.spell.words
  active : t.active .wheelMap = p.active .wheelMap

/-- The twin of a state in a strict veil. -/
@[reducible] def State.waiting (s : State) (x : Veil) : State :=
  { s with comp := { s.comp with keyWait := x.key, textWait := s.comp.source.textWait x.text } }

/-- What a step comes to from the twin states `p` and `q`: operations that twin states go through alike, the items they
release and an answer; or nothing that releases an item. -/
inductive Ended (x : Veil) (p q : State) : State → State → Prop
  | settled {b b' : State} {n : Nat} (h : Twin { x with reserved := n } b b') (r : Option Reply) (hroom : r = none ∨ 0 < n) :
    Ended x p q ((b.settle p).replied r) ((b'.settle q).replied r)
  | stands {t : State} (h : p.standsIn t) : Ended x p q t (t.waiting x)

theorem Ended.ite {c : Prop} [Decidable c] {a a' b b' : State} (ha : c → Ended x p q a a')
    (hb : ¬c → Ended x p q b b') : Ended x p q (if c then a else b) (if c then a' else b') := by
  split
  · exact ha ‹_›
  · exact hb ‹_›

theorem State.standsIn.refl (p : State) : p.standsIn p := ⟨rfl, rfl, rfl, rfl, rfl, rfl⟩

theorem Ended.answer (code : Byte) (c : CmdOutcome) (data : List Byte) :
    Ended x p (p.waiting x) (p.answer code c data) ((p.waiting x).answer code c data) :=
  .stands (t := p.answer code c data) ⟨rfl, rfl, rfl, rfl, rfl, rfl⟩

/-- A twin whose image and return line are the same differs in what it waits on alone. -/
theorem Twin.eq_waiting (h : Twin x s t) (hx : x.looseImage = false) (hr : x.looseRet = false) : t = s.waiting x := by
  obtain ⟨⟨key, text, current, slot, ret⟩, h, rfl⟩ := h
  obtain ⟨hcurrent, hslot⟩ := h.image.resolve_right fun ⟨hl, _⟩ => absurd hl (by simp [hx])
  have hret := h.ret.resolve_right fun ⟨hl, _⟩ => absurd hl (by simp [hr])
  have hkey := h.key
  have htext := h.text
  dsimp only at hcurrent hslot hret hkey htext
  rw [hcurrent, hslot, hret, hkey, htext]
  rfl

/-- The veil over a state in which nothing waits, whose twin waits on `k` and `w`. -/
def State.veil (p : State) (k w : Option WaitCause) : Veil :=
  ⟨none, none, k, w, p.txt, p.selected, p.ret.reserved, false, false⟩

/-- A step begins in twin states that differ in what they wait on alone (R28). -/
structure Commanded (x : Veil) (p : State) : Prop where
  twin   : Twin x p (p.waiting x)
  image  : x.looseImage = false
  ret    : x.looseRet = false
  source : x.noText ∨ p.comp.source = .remoteText

theorem Commanded.of_quiet (hq : p.quiet) {k w : Option WaitCause} (hw : w = none ∨ p.comp.source = .remoteText) :
    Commanded (p.veil k w) p := by
  obtain ⟨hlive, hkey, htext⟩ := hq
  have hnone : p.comp.source.textWait none = none := by cases p.comp.source <;> rfl
  have hcalm : (p.veil k w).noText ∨ p.comp.source = .remoteText := hw.imp_left fun hw => ⟨rfl, hw⟩
  refine ⟨⟨⟨k, p.comp.source.textWait w, p.disp.current, p.disp.slot, p.ret⟩, ?_, rfl⟩, rfl, rfl, hcalm⟩
  exact {
    keyWait := hkey
    textWait := htext.trans hnone.symm
    key := rfl
    text := rfl
    calm := hcalm.imp_right .inl
    image := .inl ⟨rfl, rfl⟩
    ret := .inl rfl
    reserved := rfl
    txt := rfl
    selected := rfl
    live := hlive }

/-- A command answered once its releases are made. -/
theorem Twin.ends {b b' : State} (h : Twin x b b') (hroom : 0 < x.reserved) (code : Byte) (c : CmdOutcome) (data : List Byte) :
    Ended x p q ((b.settle p).answer code c data) ((b'.settle q).answer code c data) :=
  .settled (n := x.reserved) h (some (code, c, data)) (.inr hroom)

/-- A step that ends with its releases. -/
theorem Twin.releases {b b' : State} {n : Nat} (h : Twin { x with reserved := n } b b') :
    Ended x p q (b.settle p) (b'.settle q) :=
  .settled h none (.inl rfl)

/-! ### The commands (R176) -/

section Commands

variable (k : Commanded x p) (hroom : 0 < x.reserved)
include k hroom

theorem Commanded.setTo (a : Setting) (v : Nat) : Ended x p (p.waiting x) (p.setTo a v) ((p.waiting x).setTo a v) := by
  have happlied := k.twin.applySetting k.source k.image (a.clamp v) a
  unfold State.setTo
  dsimp only
  generalize p.applySetting _ _ = b, (p.waiting x).applySetting _ _ = c at happlied ⊢
  cases happlied with
  | done h => exact h.ends hroom _ _ _
  | later h => exact h.ends hroom _ _ _
  | inconsistent => exact .answer _ _ _

theorem Commanded.cmdSet : ∀ l, Ended x p (p.waiting x) (p.cmdSet l) ((p.waiting x).cmdSet l)
  | [id, hi, lo] => by
    unfold State.cmdSet
    dsimp only
    cases Setting.ofId id.toNat with
    | none => exact .answer _ _ _
    | some a => exact k.setTo hroom _ _
  | [] => .answer _ _ _
  | [_] => .answer _ _ _
  | [_, _] => .answer _ _ _
  | _ :: _ :: _ :: _ :: _ => .answer _ _ _

omit hroom in
theorem Twin.directoryEnds (l : List Slot) :
    Twin x (p.readersAct (p.withSlots l)) ((p.waiting x).readersAct ((p.waiting x).withSlots l)) :=
  k.twin.readersAct (k.twin.withSlots l)

theorem Commanded.openSlot (i : Nat) (a : TableKind) (key count : Nat) :
    Ended x p (p.waiting x) (p.openSlot i a key count) ((p.waiting x).openSlot i a key count) := by
  unfold State.openSlot
  refine .ite (fun _ => .answer _ _ _) fun _ => ?_
  dsimp only
  cases lowestFit (otherRuns p.tab.slots i) count with
  | none => exact .answer _ _ _
  | some first => exact (Twin.directoryEnds k _).ends hroom _ _ _

theorem Commanded.cmdTableOpen : ∀ l, Ended x p (p.waiting x) (p.cmdTableOpen l) ((p.waiting x).cmdTableOpen l)
  | [slot, kind, key, hi, lo] => by
    unfold State.cmdTableOpen
    refine .ite (fun _ => .answer _ _ _) fun _ => ?_
    cases TableKind.ofNum kind.toNat with
    | none => exact .answer _ _ _
    | some a =>
      refine .ite (fun _ => .answer _ _ _) fun _ => .ite (fun _ => .answer _ _ _) fun _ => ?_
      exact k.openSlot hroom _ _ _ _
  | [] => .answer _ _ _
  | [_] => .answer _ _ _
  | [_, _] => .answer _ _ _
  | [_, _, _] => .answer _ _ _
  | [_, _, _, _] => .answer _ _ _
  | _ :: _ :: _ :: _ :: _ :: _ :: _ => .answer _ _ _

theorem Commanded.cmdTableDrop : ∀ l, Ended x p (p.waiting x) (p.cmdTableDrop l) ((p.waiting x).cmdTableDrop l)
  | [_] => .ite (fun _ => .answer _ _ _) fun _ => (Twin.directoryEnds k _).ends hroom _ _ _
  | [] => .answer _ _ _
  | _ :: _ :: _ => .answer _ _ _

theorem Commanded.commandTabs (code : Byte) (l : List TabStop) :
    Ended x p (p.waiting x) (p.commandTabs code l) ((p.waiting x).commandTabs code l) := by
  have htabs := k.twin.changeTabs l
  unfold State.commandTabs
  generalize p.changeTabs _ = a, (p.waiting x).changeTabs _ = b at htabs ⊢
  cases htabs with
  | some h => exact h.ends hroom _ _ _
  | none => exact .answer _ _ _

theorem Commanded.cmdTabAdd : ∀ l, Ended x p (p.waiting x) (p.cmdTabAdd l) ((p.waiting x).cmdTabAdd l)
  | [_, _, _] => .ite (fun _ => .answer _ _ _) fun _ => .ite (fun _ => .answer _ _ _) fun _ => k.commandTabs hroom _ _
  | [] => .answer _ _ _
  | [_] => .answer _ _ _
  | [_, _] => .answer _ _ _
  | _ :: _ :: _ :: _ :: _ => .answer _ _ _

theorem Commanded.cmdTabRemove : ∀ l, Ended x p (p.waiting x) (p.cmdTabRemove l) ((p.waiting x).cmdTabRemove l)
  | [_, _] => .ite (fun _ => k.commandTabs hroom _ _) fun _ => .answer _ _ _
  | [] => .answer _ _ _
  | [_] => .answer _ _ _
  | _ :: _ :: _ :: _ => .answer _ _ _

theorem Commanded.cmdTabsClear : ∀ l, Ended x p (p.waiting x) (p.cmdTabsClear l) ((p.waiting x).cmdTabsClear l)
  | [] => k.commandTabs hroom _ _
  | _ :: _ => .answer _ _ _

theorem Commanded.cmdUserAdd (l : List Byte) : Ended x p (p.waiting x) (p.cmdUserAdd l) ((p.waiting x).cmdUserAdd l) := by
  unfold State.cmdUserAdd
  cases judgeWord l with
  | some o => exact .answer _ _ _
  | none =>
    refine .ite (fun _ => .answer _ _ _) fun _ => .ite (fun _ => .answer _ _ _) fun _ => ?_
    exact (k.twin.addUserWord _).ends hroom _ _ _

theorem Commanded.cmdUserRemove (l : List Byte) :
    Ended x p (p.waiting x) (p.cmdUserRemove l) ((p.waiting x).cmdUserRemove l) := by
  unfold State.cmdUserRemove
  cases judgeWord l with
  | some o => exact .answer _ _ _
  | none => exact .ite (fun _ => (k.twin.removeUserWord _).ends hroom _ _ _) fun _ => .answer _ _ _

theorem Commanded.cmdPause : ∀ l, Ended x p (p.waiting x) (p.cmdPause l) ((p.waiting x).cmdPause l)
  | [] => (k.twin.askPause .command).ends hroom _ _ _
  | _ :: _ => .answer _ _ _

theorem Commanded.cmdResume (paper : Bool) :
    ∀ l, Ended x p (p.waiting x) (p.cmdResume paper l) ((p.waiting x).cmdResume paper l)
  | [] => by
    have hresume := k.twin.askResume paper
    refine .ite (fun _ => ?_) fun _ => ?_
    · generalize p.askResume paper = a, (p.waiting x).askResume paper = b at hresume ⊢
      cases hresume with
      | some h => exact h.ends hroom _ _ _
      | none => exact .answer _ _ _
    · exact .stands (t := State.answer { p with seq := { p.seq with pauseReq := none } } 0x0D .done [])
        ⟨rfl, rfl, rfl, rfl, rfl, rfl⟩
  | _ :: _ => .answer _ _ _

omit hroom

theorem Commanded.ackFaults : Ended x p (p.waiting x) p.ackFaults (p.waiting x).ackFaults := by
  have htold : Twin x
      (State.tellCleared { p with drv := { p.drv with faults := p.drv.faults.filter FaultRec.isPresent } }
        (p.drv.faults.filter fun f => !f.isPresent))
      (State.tellCleared { p.waiting x with drv := { p.drv with faults := p.drv.faults.filter FaultRec.isPresent } }
        (p.drv.faults.filter fun f => !f.isPresent)) := by
    refine Twin.tellCleared ?_ _
    obtain ⟨o, h, e⟩ := k.twin
    rw [e]
    exact ⟨o, h, rfl⟩
  have hanswer := htold.answer k.ret 0x0E
  unfold State.ackFaults
  refine .ite (fun _ => ?_) fun _ => ?_
  · exact Twin.releases (.ite (fun _ => (hanswer .done _).startHoming) fun _ => hanswer .done _)
  · exact (hanswer .notHalted _).releases

theorem Commanded.cmdAckFault : ∀ l, Ended x p (p.waiting x) (p.cmdAckFault l) ((p.waiting x).cmdAckFault l)
  | [] => k.ackFaults
  | _ :: _ => .answer _ _ _

theorem Commanded.restartTables : Ended x p (p.waiting x) (p.restart .tables) ((p.waiting x).restart .tables) :=
  (k.twin.restartTables k.ret).releases

theorem Commanded.sealSucceeds (hroom : 0 < x.reserved) (e : Seal) (check : Word) :
    Ended x p (p.waiting x) (p.sealSucceeds e check) ((p.waiting x).sealSucceeds e check) := by
  have hslots := k.twin.withSlots (sealSlots p.tab.slots e.slot check e.guarded)
  have htold := Twin.ite (c := (slotAt p.tab.slots e.slot).key = p.selection (slotAt p.tab.slots e.slot).kind)
    (fun _ => hslots.event (.tableActive (slotAt p.tab.slots e.slot).kind (slotAt p.tab.slots e.slot).key e.slot)) fun _ => hslots
  exact (k.twin.readersAct htold).ends hroom _ _ _

end Commands

/-! ### Commands that release nothing -/

theorem Ended.cmdRestate : ∀ l, Ended x p (p.waiting x) (p.cmdRestate l) ((p.waiting x).cmdRestate l)
  | [] => .stands (t := p.restateCredit.answer 0x0F .done []) ⟨rfl, rfl, rfl, rfl, rfl, rfl⟩
  | _ :: _ => .answer _ _ _

theorem Ended.cmdClear : ∀ l, Ended x p (p.waiting x) (p.cmdClear l) ((p.waiting x).cmdClear l)
  | [] => .stands (t := State.answer { p with ctr := Counters.zero } 0x10 .done []) ⟨rfl, rfl, rfl, rfl, rfl, rfl⟩
  | _ :: _ => .answer _ _ _

theorem Ended.restartCounters : Ended x p (p.waiting x) (p.restart .counters) ((p.waiting x).restart .counters) :=
  .stands (t := p.restart .counters) ⟨rfl, rfl, rfl, rfl, rfl, rfl⟩

theorem Ended.cmdQuery : ∀ l, Ended x p (p.waiting x) (p.cmdQuery l) ((p.waiting x).cmdQuery l)
  | [item, index] => by
    unfold State.cmdQuery
    refine .ite (fun _ => .answer _ _ _) fun _ => .ite (fun _ => ?_) fun _ => .ite (fun _ => ?_) fun _ =>
      .ite (fun _ => ?_) fun _ => .ite (fun _ => ?_) fun _ => .ite (fun _ => ?_) fun _ =>
      .ite (fun _ => .answer _ _ _) fun _ => .answer _ _ _
    · exact .ite (fun _ => .answer _ _ _) fun _ => .ite (fun _ => .answer _ _ _) fun _ => .answer _ _ _
    · exact .ite (fun _ => .answer _ _ _) fun _ => .answer _ _ _
    · exact .ite (fun _ => .answer _ _ _) fun _ => .answer _ _ _
    · exact .ite (fun _ => .answer _ _ _) fun _ => .answer _ _ _
    · unfold State.userWordAnswer
      cases p.spell.users[index.toNat]? with
      | none => exact .answer _ _ _
      | some w => exact .answer _ _ _
  | [] => .answer _ _ _
  | [_] => .answer _ _ _
  | _ :: _ :: _ :: _ => .answer _ _ _

theorem State.writeSegments_standsIn (p : State) (i index : Nat) (data : List Byte) : p.standsIn (p.writeSegments i index data) :=
  ⟨rfl, rfl, rfl, rfl, rfl, findSealed_written _ _ _ _ _⟩

theorem Ended.writeSlot (i index : Nat) (data : List Byte) :
    Ended x p (p.waiting x) (p.writeSlot i index data) ((p.waiting x).writeSlot i index data) := by
  refine .ite (fun _ => .answer _ _ _) fun _ => .ite (fun _ => .answer _ _ _) fun _ => .ite (fun _ => .answer _ _ _) fun _ => ?_
  obtain ⟨hcomp, hqueue, hflight, hhold, hwords, hactive⟩ := p.writeSegments_standsIn i index data
  exact .stands (t := (p.writeSegments i index data).answer 0x04 .done
    (twoBytes (slotAt (p.writeSegments i index data).tab.slots i).unwritten)) ⟨hcomp, hqueue, hflight, hhold, hwords, hactive⟩

theorem Ended.cmdTableWrite : ∀ l, Ended x p (p.waiting x) (p.cmdTableWrite l) ((p.waiting x).cmdTableWrite l)
  | _ :: _ :: _ :: _ => .ite (fun _ => .writeSlot _ _ _) fun _ => .answer _ _ _
  | [] => .answer _ _ _
  | [_] => .answer _ _ _
  | [_, _] => .answer _ _ _

theorem Ended.cmdTableSeal : ∀ l, Ended x p (p.waiting x) (p.cmdTableSeal l) ((p.waiting x).cmdTableSeal l)
  | [slot, hi, lo, guarded] => by
    refine .ite (fun _ => .answer _ _ _) fun _ => .ite (fun _ => .answer _ _ _) fun _ =>
      .ite (fun _ => .answer _ _ _) fun _ => ?_
    exact .stands (t := { p with tab := { p.tab with sealing := some ⟨slot.toNat, BitVec.ofNat 16 (ofTwoBytes hi lo),
      guarded ≠ 0, 16 * (slotAt p.tab.slots slot.toNat).count, 0, 0⟩ } }) ⟨rfl, rfl, rfl, rfl, rfl, rfl⟩
  | [] => .answer _ _ _
  | [_] => .answer _ _ _
  | [_, _] => .answer _ _ _
  | [_, _, _] => .answer _ _ _
  | _ :: _ :: _ :: _ :: _ :: _ => .answer _ _ _

end Sys2Proof.Machine
end

section
/-! Items that wait are evaluated again in twin states alike (R23, R28). -/

namespace Sys2Proof.Machine

variable {s t u p q b c' : State} {x y : Veil}

/-! ### What an item waits on (R28) -/

theorem State.fired_iff (s u : State) (c : WaitCause) : s.fired u c = true ↔ s.causeChanged u c := by
  cases c <;> simp [State.fired, State.causeChanged, Option.isSome_iff_ne_none]

theorem Twin.fired (hp : Twin y p q) (h : Twin x s t) (c : WaitCause) : q.fired t c = p.fired s c := by
  obtain ⟨r, -, rfl⟩ := hp
  obtain ⟨o, -, rfl⟩ := h
  cases c <;> rfl

theorem State.standsIn.fired (h : p.standsIn t) (c : WaitCause) : p.fired t c = p.fired p c := by
  obtain ⟨hcomp, hqueue, hflight, hhold, hwords, hactive⟩ := h
  cases c <;> simp only [State.fired, hcomp, hqueue, hflight, hhold, hwords, hactive]

/-! ### The key action taken or waiting (R28) -/

/-- A text item waits in REMOTE source only. -/
def Veil.inSource (x : Veil) (a : Source) : Veil :=
  { x with hereText := a.textWait x.hereText, text := a.textWait x.text }

theorem Source.textWait_twice (a : Source) (w : Option WaitCause) : a.textWait (a.textWait w) = a.textWait w := by
  cases a <;> rfl

theorem Veil.inSource_calm (x : Veil) (a : Source) : (x.inSource a).noText ∨ a = .remoteText := by
  cases a with
  | remoteText => exact .inr rfl
  | localKeys => exact .inl ⟨rfl, rfl⟩

theorem Twin.inSource (h : Twin x s t) : Twin (x.inSource s.comp.source) s t := by
  obtain ⟨o, h, rfl⟩ := h
  exact ⟨o, { h with
    textWait := h.textWait.trans (Source.textWait_twice _ _).symm
    text := h.text.trans (Source.textWait_twice _ _).symm
    calm := (x.inSource_calm _).imp_right .inl }, rfl⟩

theorem Twin.dropSelected (h : Twin x s t) : Twin { x with selected := s.dropSelected.selected } s.dropSelected t.dropSelected := by
  obtain ⟨o, h, rfl⟩ := h
  unfold State.dropSelected
  cases s.intake.pendingRepeat with
  | some a => exact ⟨o, { h with selected := rfl }, rfl⟩
  | none =>
    dsimp only
    cases s.intake.offered with
    | some a => exact ⟨o, { h with selected := rfl }, rfl⟩
    | none => exact ⟨o, { h with selected := rfl }, rfl⟩

theorem TwinEval.finishKey {e f : Eval} (h : TwinEval x e f) (a : KeyAction) :
    Twin { x with hereKey := e.wait, key := e.wait, selected := (e.finishKey a).selected } (e.finishKey a) (f.finishKey a) := by
  obtain ⟨h, hwait⟩ := h
  unfold Eval.finishKey
  rw [hwait]
  cases e.wait with
  | none =>
    have htaken : Twin { x with hereKey := none, key := none }
        { e.state with
          comp := { e.state.comp with keyWait := none, override := a = .func .returnKey && e.state.comp.override }
          line := { e.state.line with run := none } }
        { f.state with
          comp := { f.state.comp with keyWait := none, override := a = .func .returnKey && f.state.comp.override }
          line := { f.state.line with run := none } } := by
      obtain ⟨o, h, e⟩ := h
      rw [e]
      exact ⟨{ o with key := none }, { h with keyWait := rfl, key := rfl }, rfl⟩
    exact htaken.dropSelected
  | some c =>
    obtain ⟨o, h, e⟩ := h
    rw [e]
    exact ⟨{ o with key := some c }, { h with keyWait := rfl, key := rfl, selected := rfl }, rfl⟩

theorem Source.textWait_none (a : Source) : a.textWait none = none := by cases a <;> rfl

theorem Composer.storeTextWait_eq (c : Composer) (w : WaitCause) :
    c.storeTextWait w = { c with textWait := c.source.textWait (some w) } := by
  unfold Composer.storeTextWait
  split <;> rename_i h <;> rw [h] <;> rfl

theorem Composer.storeTextWait_over (c : Composer) (k v : Option WaitCause) (w : WaitCause) :
    ({ c with keyWait := k, textWait := v } : Composer).storeTextWait w =
      { c with keyWait := k, textWait := c.source.textWait (some w) } := by
  rw [Composer.storeTextWait_eq]

theorem TwinEval.finishText {e f : Eval} (h : TwinEval x e f) :
    Twin { x with
        hereText := e.state.comp.source.textWait e.wait, text := e.state.comp.source.textWait e.wait, txt := e.finishText.txt }
      e.finishText f.finishText := by
  obtain ⟨h, hwait⟩ := h
  unfold Eval.finishText
  rw [hwait]
  cases e.wait with
  | none =>
    obtain ⟨o, h, he⟩ := h
    rw [he, Source.textWait_none]
    have hnone := (Source.textWait_none e.state.comp.source).symm
    exact ⟨{ o with text := none }, { h with
      textWait := hnone, text := hnone, calm := .inl ⟨rfl, rfl⟩, txt := rfl, selected := h.selected }, rfl⟩
  | some c =>
    obtain ⟨o, h, he⟩ := h
    rw [he]
    dsimp only
    rw [Composer.storeTextWait_over, Composer.storeTextWait_eq]
    have htwice := (Source.textWait_twice e.state.comp.source (some c)).symm
    have hcalm : (e.state.comp.source.textWait (some c) = none ∧ e.state.comp.source.textWait (some c) = none) ∨
        e.state.comp.source = .remoteText := by cases e.state.comp.source <;> simp [Source.textWait]
    exact ⟨{ o with text := e.state.comp.source.textWait (some c) }, { h with
      textWait := htwice, text := htwice, calm := hcalm.imp_right .inl, txt := rfl }, rfl⟩

/-! ### The image that a step ends with (R136) -/

/-- Two states are the same but for the image offered and, when `loose`, the order of the reports. -/
def Matching (loose : Bool) (s t : State) : Prop :=
  ∃ x : Veil, Twin x s t ∧ x.hereKey = x.key ∧
    s.comp.source.textWait x.hereText = s.comp.source.textWait x.text ∧ x.looseRet = loose

/-- The image makes the states that match the same, but for the order of the reports where they may differ. -/
theorem Matching.formImage {loose : Bool} (h : Matching loose s t) :
    t.formImage = { s.formImage with ret := t.ret } ∧ (loose = false → t.ret = s.ret) := by
  obtain ⟨x, ⟨⟨key, text, current, slot, ret⟩, h, rfl⟩, hkey, htext, rfl⟩ := h
  have hk : key = s.comp.keyWait := h.key.trans (hkey.symm.trans h.keyWait.symm)
  have hw : text = s.comp.textWait := h.text.trans (htext.symm.trans h.textWait.symm)
  refine ⟨?_, fun hloose => h.ret.resolve_right fun ⟨hl, _⟩ => absurd hl (by simp [hloose])⟩
  rw [hk, hw]
  unfold State.formImage
  rw [State.over_image]
  by_cases hd : s.set.display = true
  · simp only [hd, if_true]
  · obtain ⟨hcurrent, hslot⟩ := h.image.resolve_right fun ⟨_, hon⟩ => hd hon
    dsimp only at hcurrent hslot
    simp only [hd, if_false, Bool.false_eq_true]
    rw [hcurrent, hslot]
    rfl

theorem State.formImage_off (h : ¬s.set.display = true) : s.formImage = s := if_neg h

theorem State.formImage_on (h : s.set.display = true) : s.formImage = s.over
    ⟨s.comp.keyWait, s.comp.textWait, some s.image, if s.disp.lastSent = some s.image then none else some s.image, s.ret⟩ :=
  if_pos h

theorem State.formImage_twice (s : State) : s.formImage.formImage = s.formImage := by
  by_cases h : s.set.display = true
  · rw [State.formImage_on h]
    exact State.formImage_on (s := s.over _) h
  · rw [State.formImage_off h, State.formImage_off h]

/-- A step that ends in the image of a state that matches, with its answer, has come to that state. -/
theorem Matching.replied {r : Option Reply} (h : Matching r.isSome s t) :
    t.formImage.replied r = { s.formImage with ret := (t.formImage.replied r).ret } ∧
      (r = none → t.formImage.replied r = s.formImage) := by
  obtain ⟨hformed, hret⟩ := h.formImage
  cases r with
  | none =>
    have hsame : t.formImage = s.formImage := by
      rw [hformed, hret rfl]
      unfold State.formImage
      split <;> rfl
    exact ⟨by rw [show t.formImage.replied none = t.formImage from rfl, hsame], fun _ => hsame⟩
  | some r =>
    refine ⟨?_, nofun⟩
    rw [hformed]
    rfl

/-! ### Items that wait, evaluated again (R28) -/

/-- A key action that waits, and is evaluated again or not, leaves twin states the same but for the report order. -/
theorem Twin.settleKey (hp : Twin y p q) (hkey : y.hereKey = y.key) (h : Twin x s t) (hk : x.hereKey = x.key)
    (ht : x.hereText = x.text) : Matching x.looseRet (p.settleKey s) (q.settleKey t) := by
  have hfired := hp.fired h
  have hnormal := h.inSource
  have hmatch : Matching x.looseRet s t := ⟨x, h, hk, by rw [ht], rfl⟩
  have hq : q.comp.keyWait = p.comp.keyWait := by
    obtain ⟨r, hp, rfl⟩ := hp
    exact hp.key.trans (hkey.symm.trans hp.keyWait.symm)
  have hwait : t.comp.keyWait = s.comp.keyWait := by
    obtain ⟨o, h, rfl⟩ := h
    exact h.key.trans (hk.symm.trans h.keyWait.symm)
  have hsel : t.selected = s.selected := by
    obtain ⟨o, -, rfl⟩ := h
    rfl
  unfold State.settleKey
  rw [hwait, hsel]
  cases s.comp.keyWait with
  | none => exact hmatch
  | some c =>
    cases s.selected with
    | none => exact hmatch
    | some a =>
      dsimp only
      rw [hq, hfired c]
      split
      · have heval := (hnormal.evalKey (x.inSource_calm _) false a).finishKey a
        exact ⟨_, heval, rfl, by simp only [Veil.inSource, ht], rfl⟩
      · exact hmatch

/-! ### The end of a step whose items wait (R23, R28) -/

theorem State.settleKey_of_none (h : p.comp.keyWait = none) (s : State) (anew : Bool) : p.settleKey s anew = s := by
  unfold State.settleKey
  split
  · exact if_neg fun hc => by simp [h] at hc
  · rfl

theorem State.settleText_of_none (h : p.comp.textWait = none) (mid s : State) (anew : Bool) : p.settleText mid s anew = s := by
  unfold State.settleText
  split
  · exact if_neg fun hc => by simp [h] at hc
  · rfl

theorem State.settleText_of_wait_none (h : s.comp.textWait = none) (p mid : State) (anew : Bool) : p.settleText mid s anew = s := by
  unfold State.settleText
  rw [h]

theorem State.settle_noText (h : p.comp.textWait = none) (s : State) (anew : Bool) :
    s.settle p anew = (p.settleKey s anew).formImage := by
  unfold State.settle
  dsimp only
  rw [State.settleText_of_none h, State.settleKey_self]

theorem State.settle_noWait (hk : p.comp.keyWait = none) (ht : p.comp.textWait = none) (s : State) (anew : Bool) :
    s.settle p anew = s.formImage := by
  rw [State.settle_noText ht, State.settleKey_of_none hk]

theorem State.fired_waiting (p s : State) (x : Veil) (c : WaitCause) : (p.waiting x).fired s c = p.fired s c := by
  cases c <;> rfl

theorem Twin.quiet (h : Twin x s t) (hk : x.hereKey = none) (ht : x.hereText = none) : s.quiet := by
  obtain ⟨o, h, -⟩ := h
  exact ⟨h.live, h.keyWait.trans hk, h.textWait.trans (by rw [ht]; exact Source.textWait_none _)⟩

theorem Twin.selected (h : Twin x s t) : s.selected = x.selected ∧ t.selected = x.selected := by
  obtain ⟨o, h, rfl⟩ := h
  exact ⟨h.selected, h.selected⟩

theorem Twin.txt (h : Twin x s t) : s.txt = x.txt ∧ t.txt = x.txt := by
  obtain ⟨o, h, rfl⟩ := h
  exact ⟨h.txt, h.txt⟩

theorem Twin.keyWait (h : Twin x s t) : t.comp.keyWait = x.key := by
  obtain ⟨o, h, rfl⟩ := h
  exact h.key

theorem Twin.textWait (h : Twin x s t) : t.comp.textWait = s.comp.source.textWait x.text := by
  obtain ⟨o, h, rfl⟩ := h
  exact h.text

theorem Twin.source (h : Twin x s t) : t.comp.source = s.comp.source := by
  obtain ⟨o, -, rfl⟩ := h
  rfl

theorem Twin.keyReady (h : Twin x s t) (hk : x.hereKey = x.key) : t.keyReady = s.keyReady := by
  obtain ⟨o, h, rfl⟩ := h
  have hwait : o.key = s.comp.keyWait := h.key.trans (hk.symm.trans h.keyWait.symm)
  unfold State.keyReady
  rw [show (s.over o).comp.keyWait = s.comp.keyWait from hwait]
  rfl

/-- A state and its twin, once the state has formed its image. -/
theorem Twin.formedHere (h : Twin x s t) : Twin { x with looseImage := true } s.formImage t := by
  obtain ⟨o, h, rfl⟩ := h
  by_cases hd : s.set.display = true
  · rw [State.formImage_on hd]
    exact ⟨o, { h with image := .inr ⟨rfl, hd⟩ }, rfl⟩
  · rw [State.formImage_off hd]
    exact ⟨o, { h with image := h.image.imp_right fun ⟨_, hon⟩ => ⟨rfl, hon⟩ }, rfl⟩

/-- A state and its twin, once the state has queued its answer. -/
theorem Twin.repliedHere (h : Twin x s t) (hx : x.looseRet = false) {r : Option Reply} (hroom : r = none ∨ 0 < x.reserved) :
    Twin { x with reserved := (s.replied r).ret.reserved, looseRet := r.isSome } (s.replied r) t := by
  obtain ⟨o, h, rfl⟩ := h
  have hret : o.ret = s.ret := h.ret.resolve_right fun ⟨hl, _⟩ => absurd hl (by simp [hx])
  cases r with
  | none => exact ⟨o, { h with reserved := rfl, ret := .inl hret }, rfl⟩
  | some r =>
    have hsome : 0 < s.ret.reserved := (hroom.resolve_left nofun).trans_eq h.reserved.symm
    have halike : (s.replied (some r)).ret.alike o.ret := by
      rw [hret]
      refine ⟨?_, ?_, rfl⟩
      · simp [State.replied, State.answer, ReturnLine.eventCount, Report.isEvent]
      · simp only [State.replied, State.answer, ReturnLine.fill, List.length_append, List.length_singleton]
        omega
    exact ⟨o, { h with reserved := rfl, ret := .inr ⟨rfl, halike⟩ }, rfl⟩

section Ends

variable {k w : Option WaitCause} {r : Option Reply} {anew : Bool} {n : Nat}
  (h : Twin { p.veil k w with reserved := n } s t) (hroom : r = none ∨ 0 < n)
include h hroom

/-- The step from where nothing waits and the step whose items wait, before these are evaluated again (R28). -/
theorem Twin.ended : Twin
    ⟨none, none, k, w, p.txt, p.selected, (s.formImage.replied r).ret.reserved, true, r.isSome⟩ (s.formImage.replied r) t :=
  h.formedHere.repliedHere rfl hroom

end Ends

/-- The key action that waits has been evaluated again where its cause has changed (R28). -/
theorem State.settleKey_of_wait {c : WaitCause} {a : KeyAction} (hp : p.comp.keyWait = some c) (hs : s.comp.keyWait = some c)
    (ha : s.selected = some a) (anew : Bool) :
    (anew = true ∨ p.fired s c = true → p.settleKey s anew = (s.evalKey false a).finishKey a) ∧
      (¬(anew = true ∨ p.fired s c = true) → p.settleKey s anew = s) := by
  unfold State.settleKey
  rw [hs, ha]
  exact ⟨fun h => if_pos ⟨hp, h⟩, fun h => if_neg fun hc => h hc.2⟩

/-- The character that waits has been evaluated again where its cause has changed, or waits on nothing where a key action
is ready (R23, R28). -/
theorem State.settleText_of_wait {c : WaitCause} {code : Byte} {rest : List Byte} (hp : p.comp.textWait = some c)
    (hs : s.comp.textWait = some c) (hq : s.txt.queue = code :: rest) (mid : State) (anew : Bool) :
    (anew = true ∨ p.fired mid c = true ∨ p.fired s c = true →
      (s.keyReady = true → p.settleText mid s anew = { s with comp := { s.comp with textWait := none } }) ∧
      (s.keyReady = false → p.settleText mid s anew = (s.evalText code).finishText)) ∧
    (¬(anew = true ∨ p.fired mid c = true ∨ p.fired s c = true) → p.settleText mid s anew = s) := by
  unfold State.settleText
  rw [hs, hq]
  refine ⟨fun h => ⟨fun hr => ?_, fun hr => ?_⟩, fun h => if_neg fun hc => h hc.2⟩
  · exact (if_pos ⟨hp, h⟩).trans (if_pos hr)
  · exact (if_pos ⟨hp, h⟩).trans (if_neg (by simp [hr]))

theorem Composer.unwaiting {c : Composer} (hk : c.keyWait = none) (ht : c.textWait = none) :
    { c with keyWait := none, textWait := none } = c := by
  cases c
  cases hk
  cases ht
  rfl

/-- A state in which nothing waits is its own twin. -/
theorem State.waiting_none (hq : s.quiet) (hx : x.key = none) (hw : s.comp.source.textWait x.text = none) : s.waiting x = s := by
  rw [State.waiting, hx, hw, Composer.unwaiting hq.2.1 hq.2.2]

end Sys2Proof.Machine
end

section
/-! PROOF of O8. A step whose items wait, beside the same step where nothing waits (R23, R28). -/

namespace Sys2Proof.Machine

variable {i : Instr} {s t u v w p b c' : State} {x y : Veil}

/-- The step `i` from `s` comes to `v`, but for the order of the reports where it ends with an answer (R28). -/
def State.comesTo (s : State) (i : Instr) (v : State) : Prop :=
  ∃ t, exec i s = .next t ∧ t = { v with ret := t.ret } ∧ (goesOnByItself i = true → t = v)

/-- The state from which the step of `s` begins, where `p` is that in which nothing waits. -/
abbrev State.begun (s p : State) : State := p.waiting (p.veil s.comp.keyWait s.comp.textWait)

/-- The step `i` from `s`, an operation that twin states go through alike with the items it releases, beside the same
step from where nothing waits, which ends in `u` (R28). -/
structure Releasing (i : Instr) (s u p b c' : State) (r : Option Reply) (anew : Bool) (n : Nat) : Prop where
  twin   : Twin { p.veil s.comp.keyWait s.comp.textWait with reserved := n } b c'
  room   : r = none ∨ 0 < n
  run    : exec i s = .next ((c'.settle (s.begun p) anew).replied r)
  lone   : u = b.formImage.replied r
  alone  : goesOnByItself i = true → r = none
  source : s.comp.textWait = none ∨ p.comp.source = .remoteText
  fired  : ∀ z c, p.fired z c = s.fired z c

/-! ### The rows of the items (R28) -/

theorem exec_textRowOf_settle {code : Byte} {rest : List Byte} (hlive : s.resetHeld = false) (hw : s.comp.textWait = none)
    (hs : s.comp.source = .remoteText) (hready : s.keyReady = false) (htxt : s.txt.queue = code :: rest) :
    exec (textRowOf code) s = .next (s.settleKey (s.evalText code).finishText).formImage := by
  have hrow {j : Instr} {f : Byte → Bool} (hj : exec j s = live s (fun s => s.textRow f)) (hf : f code = true) :
      exec j s = .next (s.settleKey (s.evalText code).finishText).formImage := by
    rw [hj, live_of_running hlive]
    unfold State.textRow
    rw [htxt]
    dsimp only
    rw [if_pos ⟨hs, hf, hw, by rw [hready]; rfl⟩, State.settle_noText hw]
  unfold textRowOf
  split_ifs with h20 hcr hlf hff hbs hht
  · exact hrow rfl (decide_eq_true h20)
  · exact hrow rfl (decide_eq_true hcr)
  · exact hrow rfl (decide_eq_true hlf)
  · exact hrow rfl (decide_eq_true hff)
  · exact hrow rfl (decide_eq_true hbs)
  · exact hrow rfl (decide_eq_true hht)
  · exact hrow rfl (isUnmapped_of (Nat.not_le.mp h20) hcr hlf hff hbs hht)

theorem State.formImage_waiting (s : State) (x : Veil) : (s.waiting x).formImage = s.formImage.waiting x := by
  by_cases h : s.set.display = true
  · rw [State.formImage_on h]
    exact State.formImage_on (s := s.waiting x) h
  · rw [State.formImage_off h]
    exact State.formImage_off (s := s.waiting x) h

/-- The image does not show what the items wait on (R130 to R135). -/
theorem State.formImage_waits (h : s.formImage = s) (k w : Option WaitCause) :
    State.formImage { s with comp := { s.comp with keyWait := k, textWait := w } } =
      { s with comp := { s.comp with keyWait := k, textWait := w } } := by
  by_cases hd : s.set.display = true
  · rw [State.formImage_on hd] at h
    refine (State.formImage_on (s := { s with comp := { s.comp with keyWait := k, textWait := w } }) hd).trans ?_
    exact congrArg (fun z : State => { z with comp := { s.comp with keyWait := k, textWait := w } }) h
  · exact State.formImage_off (s := { s with comp := { s.comp with keyWait := k, textWait := w } }) hd

theorem State.replied_formImage (s : State) (r : Option Reply) : (s.replied r).formImage = s.formImage.replied r := by
  cases r with
  | none => rfl
  | some r =>
    by_cases h : s.set.display = true
    · rw [State.formImage_on h]
      exact State.formImage_on (s := s.replied (some r)) h
    · rw [State.formImage_off h]
      exact State.formImage_off (s := s.replied (some r)) h

theorem State.replied_waiting (s : State) (x : Veil) (r : Option Reply) : (s.waiting x).replied r = (s.replied r).waiting x := by
  cases r <;> rfl

theorem State.keyReady_wait (h : s.keyReady = true) : s.comp.keyWait = none := by
  simp only [State.keyReady, Bool.and_eq_true, decide_eq_true_eq] at h
  exact h.2

/-- The two items are evaluated again one after the other, and the key action once more (R23, R28). -/
theorem State.settle_after (p c' : State) (anew : Bool) : c'.settle p anew =
    ((p.settleKey c' anew).settleKey (p.settleText c' (p.settleKey c' anew) anew)).formImage := rfl

section Ends

variable {r : Option Reply} {anew : Bool} {n : Nat} (h : Releasing i s u p b c' r anew n)
include h

theorem Releasing.comesTo (hrun : c'.settle (s.begun p) anew = t.formImage) (hm : Matching r.isSome v t) :
    s.comesTo i v.formImage := by
  obtain ⟨hformed, hsame⟩ := hm.replied
  refine ⟨t.formImage.replied r, ?_, hformed, fun hgo => hsame (h.alone hgo)⟩
  rw [h.run, hrun]

theorem Releasing.twin_after : Twin
    ⟨none, none, s.comp.keyWait, s.comp.textWait, p.txt, p.selected, u.ret.reserved, true, r.isSome⟩ u c' := by
  rw [h.lone]
  exact Twin.ended h.twin h.room

theorem Releasing.quiet_after : u.quiet := h.twin_after.quiet rfl rfl

/-- What an item waits on has changed where it has changed in a twin. -/
theorem Releasing.fired_twin (hw : Twin y w t) (c : WaitCause) : (s.begun p).fired t c = true ↔ s.causeChanged w c := by
  have hsame : (s.begun p).fired t c = s.fired w c := by
    rw [State.fired_waiting, h.fired]
    obtain ⟨o, -, rfl⟩ := hw
    cases c <;> rfl
  rw [hsame, State.fired_iff]

theorem Releasing.fired_iff (c : WaitCause) : (s.begun p).fired c' c = true ↔ s.causeChanged u c :=
  h.fired_twin h.twin_after c

theorem Releasing.text_start : (s.begun p).comp.textWait = s.comp.textWait := by
  show p.comp.source.textWait s.comp.textWait = _
  rcases h.source with hw | hs
  · rw [hw]
    exact Source.textWait_none _
  · rw [hs]
    rfl

/-- Where no item is evaluated again, the items wait on (R28). -/
theorem Releasing.stays : c'.formImage.replied r = u.waiting (p.veil s.comp.keyWait s.comp.textWait) := by
  rw [h.twin.eq_waiting rfl rfl, State.formImage_waiting, State.replied_waiting, h.lone]

/-- The key action evaluated again where its cause has changed (R28). -/
theorem Releasing.key_settled {c : WaitCause} {a : KeyAction} (hk : s.comp.keyWait = some c) (ha : p.selected = some a) :
    (anew = true ∨ s.causeChanged u c → (s.begun p).settleKey c' anew = (c'.evalKey false a).finishKey a) ∧
      (¬(anew = true ∨ s.causeChanged u c) → (s.begun p).settleKey c' anew = c') := by
  have hwait : c'.comp.keyWait = some c := h.twin_after.keyWait.trans hk
  have hsel : c'.selected = some a := h.twin_after.selected.2.trans ha
  have hstart : (s.begun p).comp.keyWait = some c := hk
  rw [← h.fired_iff]
  exact State.settleKey_of_wait hstart hwait hsel anew

/-- The key action evaluated in the state that the step leaves where nothing waits, in both (R28). -/
theorem Releasing.key_evaluated (a : KeyAction) : Twin
    { hereKey := (u.evalKey false a).wait, hereText := none, key := (u.evalKey false a).wait,
      text := u.comp.source.textWait s.comp.textWait, txt := p.txt, selected := ((u.evalKey false a).finishKey a).selected,
      reserved := u.ret.reserved, looseImage := true, looseRet := r.isSome }
    ((u.evalKey false a).finishKey a) ((c'.evalKey false a).finishKey a) := by
  have heval := (h.twin_after.inSource.evalKey (Veil.inSource_calm _ _) false a).finishKey a
  rw [Veil.inSource] at heval
  dsimp only at heval
  rw [Source.textWait_none] at heval
  exact heval

/-- The key action that waits, and no character (R28). -/
theorem Releasing.key_again {c : WaitCause} {a : KeyAction} {row : Instr} (ha : p.selected = some a)
    (hrow : rowOf false a = some row) (hk : s.comp.keyWait = some c) (ht : s.comp.textWait = none) :
    ((anew = true ∨ s.causeChanged u c) → ∀ v, exec row u = .next v → s.comesTo i v) ∧
      (¬(anew = true ∨ s.causeChanged u c) → exec i s = .next { u with comp := { u.comp with keyWait := some c } }) := by
  have hsettle := State.settle_noText (h.text_start.trans ht) c' anew
  obtain ⟨hdone, hstays⟩ := h.key_settled hk ha
  refine ⟨fun hfires v hv => ?_, fun hfires => ?_⟩
  · have hturn : u.turnOf a := ⟨h.quiet_after, h.twin_after.selected.1.trans ha⟩
    rw [exec_rowOf hturn hrow] at hv
    cases hv
    refine h.comesTo (hsettle.trans (by rw [hdone hfires])) ⟨_, h.key_evaluated a, rfl, ?_, rfl⟩
    simp only [ht, Source.textWait_none]
  · rw [h.run, hsettle, hstays hfires, h.stays, State.waiting, State.veil, hk, ht]
    dsimp only
    rw [Source.textWait_none, ← h.quiet_after.2.2]

/-- The character goes back to waiting on nothing (R28). -/
theorem Releasing.text_dropped (hk : s.comp.keyWait = none) :
    (State.formImage { c' with comp := { c'.comp with textWait := none } }).replied r = u := by
  have heq : { c' with comp := { c'.comp with textWait := none } } = b.waiting (p.veil none none) := by
    rw [h.twin.eq_waiting rfl rfl, State.waiting, State.waiting, State.veil, State.veil, hk]
    dsimp only
    rw [Source.textWait_none]
  rw [heq, State.formImage_waiting, State.replied_waiting, ← h.lone]
  exact State.waiting_none h.quiet_after rfl (Source.textWait_none _)

/-- A character that waits in REMOTE source, and no key action (R28). -/
theorem Releasing.text_again {c : WaitCause} {code : Byte} {rest : List Byte} (hk : s.comp.keyWait = none)
    (htxt : p.txt.queue = code :: rest) (ht : s.comp.textWait = some c) :
    (u.comp.source = .localKeys → exec i s = .next u) ∧
      (u.comp.source = .remoteText →
        (anew = true ∨ s.causeChanged u c → u.keyReady = true → exec i s = .next u) ∧
        (anew = true ∨ s.causeChanged u c → u.keyReady = false → ∀ v, exec (textRowOf code) u = .next v → s.comesTo i v) ∧
        (¬(anew = true ∨ s.causeChanged u c) →
          exec i s = .next { u with comp := { u.comp with textWait := some c } })) := by
  rw [← h.fired_iff c]
  have hkey : c'.comp.keyWait = none := h.twin_after.keyWait.trans hk
  have hready : c'.keyReady = u.keyReady := h.twin_after.keyReady hk.symm
  have htext : c'.comp.textWait = u.comp.source.textWait (some c) := h.twin_after.textWait.trans (by rw [ht])
  have hsettle : c'.settle (s.begun p) anew = ((s.begun p).settleText c' c' anew).formImage := by
    unfold State.settle
    rw [State.settleKey_of_none (p := s.begun p) hk]
    dsimp only
    rw [State.settleKey_of_none hkey]
  refine ⟨fun hs => ?_, fun hs => ?_⟩
  · rw [hs] at htext
    rw [h.run, hsettle, State.settleText_of_wait_none htext, h.stays]
    exact congrArg _ (State.waiting_none h.quiet_after hk (by rw [hs]; rfl))
  · rw [hs] at htext
    have hqueue : c'.txt.queue = code :: rest := by rw [h.twin_after.txt.2, htxt]
    obtain ⟨hdone, hstays⟩ := State.settleText_of_wait (h.text_start.trans ht) htext hqueue c' anew
    rw [or_self] at hdone hstays
    refine ⟨fun hfires hr => ?_, fun hfires hr v hv => ?_, fun hfires => ?_⟩
    · rw [h.run, hsettle, (hdone hfires).1 (hready.trans hr), h.text_dropped hk]
    · rw [(hdone hfires).2 (hready.trans hr)] at hsettle
      rw [exec_textRowOf_settle h.quiet_after.1 h.quiet_after.2.2 hs hr (by rw [h.twin_after.txt.1, htxt]),
        State.settleKey_of_none h.quiet_after.2.1] at hv
      cases hv
      exact h.comesTo hsettle ⟨_, (h.twin_after.evalText code).finishText, hk.symm, rfl, rfl⟩
    · rw [h.run, hsettle, hstays hfires, h.stays, State.waiting, State.veil, hk, ht, hs]
      dsimp only
      rw [← h.quiet_after.2.1]
      rfl

/-- Where both items wait the key action comes first (R23, R28): what it leaves, evaluated again or waiting on, is as
it is where nothing waited before, but for the text item's wait. -/
theorem Releasing.key_first {c d : WaitCause} {a : KeyAction} {row : Instr} (ha : p.selected = some a)
    (hrow : rowOf false a = some row) (hk : s.comp.keyWait = some c) (ht : s.comp.textWait = some d)
    (hw : ((anew = true ∨ s.causeChanged u c) ∧ exec row u = .next w) ∨
      ¬(anew = true ∨ s.causeChanged u c) ∧ w = { u with comp := { u.comp with keyWait := some c } }) :
    w.formImage = w ∧ ∃ y : Veil, Twin y w ((s.begun p).settleKey c' anew) ∧ y.hereKey = y.key ∧ y.hereText = none ∧
      y.text = u.comp.source.textWait (some d) ∧ y.txt = p.txt ∧ y.looseRet = r.isSome := by
  obtain ⟨hdone, hstays⟩ := h.key_settled hk ha
  rcases hw with ⟨hfires, hw⟩ | ⟨hfires, rfl⟩
  · have hturn : u.turnOf a := ⟨h.quiet_after, h.twin_after.selected.1.trans ha⟩
    rw [exec_rowOf hturn hrow] at hw
    cases hw
    rw [hdone hfires]
    exact ⟨State.formImage_twice _, _, (h.key_evaluated a).formedHere, rfl, rfl, by rw [ht], rfl, rfl⟩
  · rw [hstays hfires]
    have hformed : u.formImage = u := by rw [h.lone, State.replied_formImage, State.formImage_twice]
    have hwaits := State.formImage_waits hformed (some c) none
    have heq : ({ u.comp with keyWait := some c, textWait := none } : Composer) = { u.comp with keyWait := some c } := by
      rw [← h.quiet_after.2.2]
    rw [heq] at hwaits
    refine ⟨hwaits, ?_⟩
    have hnormal := h.twin_after.inSource
    obtain ⟨o, hfits, he⟩ := hnormal
    refine ⟨⟨some c, none, some c, u.comp.source.textWait (some d), p.txt, p.selected, u.ret.reserved, true, r.isSome⟩,
      ⟨o, ?_, he⟩, rfl, rfl, rfl, rfl, rfl⟩
    have hkey : o.key = some c := hfits.key.trans hk
    have htext : o.text = u.comp.source.textWait (u.comp.source.textWait (some d)) := by rw [← ht]; exact hfits.text
    have hcalm : ((none : Option WaitCause) = none ∧ u.comp.source.textWait (some d) = none) ∨ u.comp.source = .remoteText := by
      cases u.comp.source <;> simp [Source.textWait]
    exact { hfits with
      keyWait := rfl
      key := hkey
      textWait := h.quiet_after.2.2.trans (Source.textWait_none _).symm
      text := htext
      calm := hcalm.imp_right .inl }

/-- Both items wait (R23, R28). -/
theorem Releasing.both_again {c d : WaitCause} {a : KeyAction} {row : Instr} {code : Byte} {rest : List Byte}
    (ha : p.selected = some a) (hrow : rowOf false a = some row) (hk : s.comp.keyWait = some c)
    (htxt : p.txt.queue = code :: rest) (ht : s.comp.textWait = some d)
    (hw : ((anew = true ∨ s.causeChanged u c) ∧ exec row u = .next w) ∨
      ¬(anew = true ∨ s.causeChanged u c) ∧ w = { u with comp := { u.comp with keyWait := some c } }) :
    (u.comp.source = .localKeys ∨ w.comp.source = .localKeys → s.comesTo i w) ∧
      (u.comp.source = .remoteText → w.comp.source = .remoteText →
        ((anew = true ∨ s.causeChanged u d) ∨ s.causeChanged w d → w.keyReady = true → s.comesTo i w) ∧
        ((anew = true ∨ s.causeChanged u d) ∨ s.causeChanged w d → w.keyReady = false →
          ∀ v, exec (textRowOf code) w = .next v → s.comesTo i v) ∧
        (¬((anew = true ∨ s.causeChanged u d) ∨ s.causeChanged w d) →
          s.comesTo i { w with comp := { w.comp with textWait := some d } })) := by
  obtain ⟨hformed, y, hy, hkey, htext, hytext, hytxt, hloose⟩ := h.key_first ha hrow hk ht hw
  rw [or_assoc, ← h.fired_iff d, ← h.fired_twin hy d]
  have hsettle := State.settle_after (s.begun p) c' anew
  generalize hk1 : (s.begun p).settleKey c' anew = k1 at hsettle hy
  have hwait : k1.comp.textWait = w.comp.source.textWait y.text := hy.textWait
  refine ⟨fun hs => ?_, fun hu hs => ?_⟩
  · have hnone : k1.comp.textWait = none := by
      rcases hs with hs | hs
      · rw [hwait, hytext, hs]
        exact Source.textWait_none _
      · rw [hwait, hs]
        rfl
    rw [State.settleText_of_wait_none hnone, State.settleKey_self] at hsettle
    rw [← hformed]
    refine h.comesTo hsettle ⟨y, hy, hkey, ?_, hloose⟩
    rw [htext, ← hwait, hnone]
    exact Source.textWait_none _
  · rw [hs, hytext, hu] at hwait
    have hqueue : k1.txt.queue = code :: rest := by rw [hy.txt.2, hytxt, htxt]
    have hready : k1.keyReady = w.keyReady := hy.keyReady hkey
    obtain ⟨hdone, hstays⟩ := State.settleText_of_wait (h.text_start.trans ht) hwait hqueue c' anew
    refine ⟨fun hfires hr => ?_, fun hfires hr v hv => ?_, fun hfires => ?_⟩
    · rw [(hdone hfires).1 (hready.trans hr), State.settleKey_of_none (State.keyReady_wait (hready.trans hr))] at hsettle
      rw [← hformed]
      refine h.comesTo hsettle ?_
      obtain ⟨o, hfits, rfl⟩ := hy
      have hnone := (Source.textWait_none w.comp.source).symm
      exact ⟨{ y with text := none }, ⟨{ o with text := none }, { hfits with text := hnone, calm := .inr (.inl hs) }, rfl⟩,
        hkey, by rw [htext], hloose⟩
    · rw [(hdone hfires).2 (hready.trans hr)] at hsettle
      obtain ⟨hlive, hnone, hqueued⟩ : w.resetHeld = false ∧ w.comp.textWait = none ∧ w.txt.queue = code :: rest := by
        obtain ⟨o, hfits, -⟩ := hy
        refine ⟨hfits.live, hfits.textWait.trans (by rw [htext]; exact Source.textWait_none _), ?_⟩
        rw [show w.txt = y.txt from hfits.txt, hytxt, htxt]
      rw [exec_textRowOf_settle hlive hnone hs hr hqueued] at hv
      cases hv
      have hmatch := hy.settleKey hkey (hy.evalText code).finishText hkey rfl
      exact h.comesTo hsettle (hloose ▸ hmatch)
    · rw [hstays hfires, State.settleKey_self] at hsettle
      have hwaits := State.formImage_waits hformed w.comp.keyWait (some d)
      have hmatch : Matching r.isSome { w with comp := { w.comp with textWait := some d } } k1 := by
        obtain ⟨o, hfits, rfl⟩ := hy
        refine ⟨{ y with hereText := some d }, ⟨o, { hfits with textWait := ?_, calm := .inr (.inl hs) }, rfl⟩,
          hkey, ?_, hloose⟩
        · show some d = w.comp.source.textWait (some d)
          rw [hs]
          rfl
        · dsimp only
          rw [hytext, hu]
          rfl
      have hcome := h.comesTo hsettle hmatch
      exact hwaits ▸ hcome

end Ends

end Sys2Proof.Machine
end

section
/-! PROOF of O8. The steps whose items wait: what goes on by itself, the commands and the end of a seal (R28). -/

namespace Sys2Proof.Machine

variable {i : Instr} {s t u p : State} {x : Veil}

/-! ### What becomes of the items (R28) -/

/-- What becomes of the items that wait where the step `i` begins in `s`, and comes to `u` where nothing waits (R28). -/
structure State.itemsFollow (s : State) (i : Instr) (fires : WaitCause → Prop) (u : State) : Prop where
  key : ∀ a c row, s.selected = some a → rowOf false a = some row → s.comp.keyWait = some c → s.comp.textWait = none →
    (fires c → ∀ v, exec row u = .next v → s.comesTo i v) ∧
      (¬fires c → exec i s = .next { u with comp := { u.comp with keyWait := some c } })
  text : ∀ c code rest, s.comp.keyWait = none → s.txt.queue = code :: rest → s.comp.source = .remoteText →
    s.comp.textWait = some c →
    (u.comp.source = .localKeys → exec i s = .next u) ∧
      (u.comp.source = .remoteText →
        (fires c → u.keyReady = true → exec i s = .next u) ∧
        (fires c → u.keyReady = false → ∀ v, exec (textRowOf code) u = .next v → s.comesTo i v) ∧
        (¬fires c → exec i s = .next { u with comp := { u.comp with textWait := some c } }))
  both : ∀ a c row d code rest, s.selected = some a → rowOf false a = some row → s.comp.keyWait = some c →
    s.txt.queue = code :: rest → s.comp.source = .remoteText → s.comp.textWait = some d →
    ∀ w, (fires c ∧ exec row u = .next w ∨ ¬fires c ∧ w = { u with comp := { u.comp with keyWait := some c } }) →
      (u.comp.source = .localKeys ∨ w.comp.source = .localKeys → s.comesTo i w) ∧
        (u.comp.source = .remoteText → w.comp.source = .remoteText →
          (fires d ∨ s.causeChanged w d → w.keyReady = true → s.comesTo i w) ∧
          (fires d ∨ s.causeChanged w d → w.keyReady = false →
            ∀ v, exec (textRowOf code) w = .next v → s.comesTo i v) ∧
          (¬(fires d ∨ s.causeChanged w d) →
            s.comesTo i { w with comp := { w.comp with textWait := some d } }))

/-- `p` is as `s` to those that settle an item, but that nothing waits (R28). -/
structure Beside (s p : State) : Prop where
  quiet    : p.quiet
  source   : s.comp.textWait = none ∨ p.comp.source = .remoteText
  fired    : ∀ z c, p.fired z c = s.fired z c
  selected : p.selected = s.selected
  txt      : p.txt = s.txt

theorem Releasing.itemsFollow {b c' : State} {r : Option Reply} {anew : Bool} {n : Nat} (h : Releasing i s u p b c' r anew n)
    (hp : Beside s p) : s.itemsFollow i (fun c => anew = true ∨ s.causeChanged u c) u where
  key := fun _ _ _ ha hrow hk ht => h.key_again (hp.selected.trans ha) hrow hk ht
  text := fun _ _ _ hk htxt _ ht => h.text_again hk ((congrArg TextLink.queue hp.txt).trans htxt) ht
  both := fun _ _ _ _ _ _ ha hrow hk htxt _ ht _ hw =>
    h.both_again (hp.selected.trans ha) hrow hk ((congrArg TextLink.queue hp.txt).trans htxt) ht hw

theorem State.comesTo_of_exec {v : State} (h : exec i s = .next v) : s.comesTo i v := ⟨v, h, rfl, fun _ => rfl⟩

/-- Where a step changes nothing that an item waits on, the items wait on (R28). -/
theorem Beside.itemsFollow_of_stands (hp : Beside s p) (h : p.standsIn u)
    (hrun : exec i s = .next (u.waiting (p.veil s.comp.keyWait s.comp.textWait))) :
    s.itemsFollow i (fun c => s.causeChanged u c) u := by
  have hnever (k : Option WaitCause) (c : WaitCause) : ¬s.causeChanged { u with comp := { u.comp with keyWait := k } } c := by
    have hsame : p.fired { u with comp := { u.comp with keyWait := k } } c = p.fired u c := by cases c <;> rfl
    rw [← State.fired_iff, ← hp.fired, hsame, h.fired, State.fired_self]
    exact Bool.false_ne_true
  have hkey : u.comp.keyWait = none := (congrArg Composer.keyWait h.comp).trans hp.quiet.2.1
  have htext : u.comp.textWait = none := (congrArg Composer.textWait h.comp).trans hp.quiet.2.2
  have hrest (c : WaitCause) : ¬s.causeChanged u c := hnever u.comp.keyWait c
  have hwaits (k : Option WaitCause) (hk : s.comp.keyWait = k) (w : Option WaitCause)
      (hw : u.comp.source.textWait s.comp.textWait = w) :
      exec i s = .next { u with comp := { u.comp with keyWait := k, textWait := w } } := by
    rw [hrun, ← hk, ← hw]
    rfl
  refine ⟨fun a c row ha hrow hk ht => ?key, fun c code rest hk htxt hs ht => ?text,
    fun a c row d code rest ha hrow hk htxt hs ht w hw => ?both⟩
  case key =>
    refine ⟨fun hc => absurd hc (hrest c), fun _ => ?_⟩
    rw [hwaits _ hk none (by rw [ht, Source.textWait_none]), ← htext]
  case text =>
    refine ⟨fun hs => ?_, fun hs => ⟨fun hc => absurd hc (hrest c), fun hc => absurd hc (hrest c), fun _ => ?_⟩⟩
    · rw [hwaits _ hk none (by rw [hs]; rfl), Composer.unwaiting hkey htext]
    · rw [hwaits _ hk (some c) (by rw [hs, ht]; rfl), ← hkey]
  case both =>
    obtain ⟨hc, -⟩ | ⟨-, rfl⟩ := hw
    · exact absurd hc (hrest c)
    · refine ⟨fun hs => State.comesTo_of_exec ?_, fun hs _ => ⟨fun hc => ?_, fun hc => ?_, fun _ => State.comesTo_of_exec ?_⟩⟩
      · rw [hwaits _ hk none (by rw [or_self_iff.mp hs]; rfl), ← htext]
      · exact (hc.elim (hrest d) (hnever _ d)).elim
      · exact (hc.elim (hrest d) (hnever _ d)).elim
      · exact hwaits _ hk (some d) (by rw [hs, ht]; rfl)

/-- What becomes of the items where a command or the end of a seal comes to what it releases, or releases nothing (R28). -/
theorem Beside.itemsFollow (hp : Beside s p) (he : Ended (p.veil s.comp.keyWait s.comp.textWait) p (s.begun p) u t)
    (hrun : exec i s = .next t) (hgo : goesOnByItself i = false) : s.itemsFollow i (fun c => s.causeChanged u c) u := by
  cases he with
  | stands h => exact hp.itemsFollow_of_stands h hrun
  | @settled b _ _ h r hroom =>
    have hlone : b.settle p = b.formImage := State.settle_noWait hp.quiet.2.1 hp.quiet.2.2 b false
    have hreleases : Releasing i s ((b.settle p).replied r) p _ _ r false _ :=
      ⟨h, hroom, hrun, congrArg (State.replied · r) hlone, fun hg => absurd hg (by simp [hgo]), hp.source, hp.fired⟩
    have hfollow := hreleases.itemsFollow hp
    simpa only [Bool.false_eq_true, false_or] using hfollow

/-! ### Where a step begins (R28) -/

/-- The state in which nothing waits. -/
abbrev State.still (s : State) : State := { s with comp := { s.comp with keyWait := none, textWait := none } }

/-- The state once a seal has ended. -/
abbrev State.sealless (s : State) : State := { s with tab := { s.tab with sealing := none } }

section Begins

variable (hlive : s.resetHeld = false) (hsrc : s.comp.textWait = none ∨ s.comp.source = .remoteText)
include hlive hsrc

theorem Beside.still : Beside s s.still :=
  ⟨⟨hlive, rfl, rfl⟩, hsrc, fun _ c => by cases c <;> rfl, rfl, rfl⟩

theorem Beside.reserve : Beside s s.still.reserve :=
  ⟨⟨hlive, rfl, rfl⟩, hsrc, fun _ c => by cases c <;> rfl, rfl, rfl⟩

theorem Beside.sealless : Beside s s.still.sealless :=
  ⟨⟨hlive, rfl, rfl⟩, hsrc, fun _ c => by cases c <;> rfl, rfl, rfl⟩

theorem Beside.abortSeal : Beside s s.still.reserve.abortSeal := by
  unfold State.abortSeal
  cases s.still.reserve.tab.sealing with
  | none => exact Beside.reserve hlive hsrc
  | some _ => exact ⟨⟨hlive, rfl, rfl⟩, hsrc, fun _ c => by cases c <;> rfl, rfl, rfl⟩

omit hlive

theorem State.begun_still : s.begun s.still = s := by
  have htext : s.comp.source.textWait s.comp.textWait = s.comp.textWait := by
    rcases hsrc with hw | hs
    · rw [hw]
      exact Source.textWait_none _
    · rw [hs]
      rfl
  show ({ s with comp := { s.comp with textWait := s.comp.source.textWait s.comp.textWait } } : State) = s
  rw [htext]

end Begins

/-! ### What goes on by itself (R28) -/

/-- The step `i` is an operation that twin states go through alike, and then settles the items. -/
def Operates (i : Instr) : Prop := ∃ f : State → State,
  (∀ s : State, s.resetHeld = false → exec i s = .next ((f s).settle s)) ∧ ∀ {x s t}, Twin x s t → Twin x (f s) (f t)

theorem operates_of_live {f : State → State} (h : ∀ s, exec i s = live s fun s => (f s).settle s)
    (hf : ∀ {x s t}, Twin x s t → Twin x (f s) (f t)) : Operates i :=
  ⟨f, fun s hlive => (h s).trans (live_of_running hlive _), hf⟩

theorem operates_of_goesOn (hgo : goesOnByItself i = true) : Operates i := by
  cases i with
  | positionComplete => exact operates_of_live (fun _ => rfl) Twin.positionComplete
  | hammerPulseComplete => exact operates_of_live (fun _ => rfl) Twin.pulseComplete
  | recoverComplete => exact operates_of_live (fun _ => rfl) Twin.recoverComplete
  | moveComplete => exact operates_of_live (fun _ => rfl) Twin.moveComplete
  | indexComplete paper => exact operates_of_live (f := fun s => s.indexComplete paper) (fun _ => rfl) fun h => h.indexComplete paper
  | liftMotionComplete => exact operates_of_live (fun _ => rfl) Twin.liftComplete
  | coverOpen => exact ⟨State.openCover, fun s h => congrArg Host.Outcome.next (if_neg (by simp [h])), Twin.openCover⟩
  | coverClose => exact ⟨State.closeCover, fun s h => congrArg Host.Outcome.next (if_neg (by simp [h])), Twin.closeCover⟩
  | homeSensorSeen => exact operates_of_live (fun _ => rfl) Twin.homeSeen
  | homeNotFound => exact operates_of_live (fun _ => rfl) Twin.homeLost
  | homingReturnComplete => exact operates_of_live (fun _ => rfl) Twin.returnComplete
  | indexMarkSeen => exact operates_of_live (fun _ => rfl) Twin.indexSeen
  | wheelIndexLost => exact operates_of_live (fun _ => rfl) Twin.indexLost
  | identificationRead code =>
    exact operates_of_live (f := fun s => s.identRead code.toNat) (fun _ => rfl) fun h => h.identRead code.toNat
  | offStateTestComplete pass => exact operates_of_live (f := fun s => s.testComplete pass) (fun _ => rfl) fun h => h.testComplete pass
  | overcurrent ch => exact operates_of_live (f := fun s => s.overcurrent ch) (fun _ => rfl) fun h => h.overcurrent ch
  | lookupComplete => exact operates_of_live (fun _ => rfl) Twin.completeLookup
  | outgoingPlacementAppended => exact operates_of_live (fun _ => rfl) Twin.streamPlacement
  | outgoingLineEnd => exact operates_of_live (fun _ => rfl) Twin.endOutgoing
  | _ => cases hgo

/-! ### The commands (R176) -/

variable {code : Byte} {params : List Byte} {paper : Bool}

theorem State.takeControl_of_full (h : ¬s.ret.hasFree = true) (code : Byte) (params : List Byte) (paper : Bool) :
    s.takeControl code params paper = s.raise .answersLost := if_pos (by simp [h])

theorem State.takeControl_of_busy (h : s.ret.hasFree = true) (hbusy : s.tab.sealing.isSome ∧ code ≠ 0x11) (params : List Byte)
    (paper : Bool) : s.takeControl code params paper = s.reserve.answer code .busy [] :=
  (if_neg (by simp [h])).trans (if_pos hbusy)

theorem State.takeControl_of_free (h : s.ret.hasFree = true) (hfree : ¬(s.tab.sealing.isSome ∧ code ≠ 0x11)) (params : List Byte)
    (paper : Bool) : s.takeControl code params paper = s.reserve.command code params paper :=
  (if_neg (by simp [h])).trans (if_neg hfree)

/-- A command but RESTART (R176). -/
theorem Commanded.command (k : Commanded x p) (hroom : 0 < x.reserved) (hcode : code ≠ 0x11) (params : List Byte) (paper : Bool) :
    Ended x p (p.waiting x) (p.command code params paper) ((p.waiting x).command code params paper) := by
  unfold State.command
  refine .ite (fun _ => k.cmdSet hroom _) fun _ => .ite (fun _ => .cmdQuery _) fun _ => .ite (fun _ => k.cmdTableOpen hroom _) fun _ =>
    .ite (fun _ => .cmdTableWrite _) fun _ => .ite (fun _ => .cmdTableSeal _) fun _ => .ite (fun _ => k.cmdTableDrop hroom _) fun _ =>
    .ite (fun _ => k.cmdTabAdd hroom _) fun _ => .ite (fun _ => k.cmdTabRemove hroom _) fun _ =>
    .ite (fun _ => k.cmdTabsClear hroom _) fun _ => .ite (fun _ => k.cmdUserAdd hroom _) fun _ =>
    .ite (fun _ => k.cmdUserRemove hroom _) fun _ => .ite (fun _ => k.cmdPause hroom _) fun _ =>
    .ite (fun _ => k.cmdResume hroom _ _) fun _ => .ite (fun _ => k.cmdAckFault _) fun _ => .ite (fun _ => .cmdRestate _) fun _ =>
    .ite (fun _ => .cmdClear _) fun _ => .ite (fun h => absurd h hcode) fun _ => .answer _ _ _

/-! ### The restarts (R88, R164, R167, R185) -/

theorem State.abortSeal_waiting (p : State) (x : Veil) : (p.waiting x).abortSeal = p.abortSeal.waiting x := by
  unfold State.abortSeal
  cases p.tab.sealing <;> rfl

/-- A RESTART that finds a free place, once a seal in progress is aborted (R164). -/
theorem takeControl_of_restart {a : Selector} (hfree : s.ret.hasFree = true) (ha : restartOf params = .inl a) :
    s.takeControl 0x11 params paper = s.reserve.abortSeal.restart a := by
  rw [State.takeControl_of_free hfree fun h => h.2 rfl]
  show s.reserve.cmdRestart params = _
  rw [State.cmdRestart, ha]

/-! ### The end of a seal (R161, R162) -/

theorem sealDone_ended {e : Seal} (hs : s.tab.sealing = some e) {k w : Option WaitCause}
    (h : Commanded (s.sealless.veil k w) s.sealless) (hroom : 0 < s.ret.reserved) :
    Ended (s.sealless.veil k w) s.sealless (s.sealless.waiting (s.sealless.veil k w)) s.sealDone
      (s.waiting (s.veil k w)).sealDone := by
  unfold State.sealDone
  rw [hs]
  dsimp only
  refine .ite (fun _ => .answer _ _ _) fun _ => ?_
  cases validateTable s.tab.mem (slotAt s.tab.slots e.slot) with
  | some off => exact .answer _ _ _
  | none => exact h.sealSucceeds hroom e _

/-! ### The rows of the commands (R176) -/

theorem goesOn_of_payload (hp : payloadOf i = some (code, params)) : goesOnByItself i = false := by
  cases i with
  | positionComplete | hammerPulseComplete | recoverComplete | moveComplete | indexComplete | liftMotionComplete | coverOpen
  | coverClose | homeSensorSeen | homeNotFound | homingReturnComplete | indexMarkSeen | wheelIndexLost | identificationRead
  | offStateTestComplete | overcurrent | lookupComplete | outgoingPlacementAppended | outgoingLineEnd => cases hp
  | _ => rfl

/-- TABLE_WRITE reads the runs, and goes on where they lie in the memory alone. -/
theorem runsInside_of_exec (hp : payloadOf i = some (code, params)) (hu : exec i s = .next u) (hcode : code = 0x04) :
    runsInside s.tab.slots = true := by
  by_contra hruns
  subst hcode
  cases i with
  | tableWrite p =>
    have hfault : exec (.tableWrite p) s = .fault .runOutsideTableMemory := if_neg hruns
    rw [hfault] at hu
    cases hu
  | _ => exact absurd hp (by simp [payloadOf])

/-! ### The steps (R28) -/

section Steps

variable (hlive : s.resetHeld = false) (hsrc : s.comp.textWait = none ∨ s.comp.source = .remoteText)
include hlive hsrc

theorem itemsFollow_of_goesOn (hgo : goesOnByItself i = true) (hu : exec i s.still = .next u) :
    s.itemsFollow i (fun c => s.causeChanged u c) u := by
  obtain ⟨f, hexec, htwin⟩ := operates_of_goesOn hgo
  have hp := Beside.still hlive hsrc
  have hbegun := State.begun_still hsrc
  have hbegins : Twin (s.still.veil s.comp.keyWait s.comp.textWait) s.still (s.begun s.still) :=
    (Commanded.of_quiet hp.quiet hsrc).twin
  rw [hexec s.still hlive, State.settle_noWait (p := s.still) rfl rfl] at hu
  cases hu
  have hrun : exec i s = .next (((f (s.begun s.still)).settle (s.begun s.still)).replied none) := by rw [hbegun, hexec _ hlive]; rfl
  have hreleases : Releasing i s (f s.still).formImage s.still _ _ none false _ :=
    ⟨htwin hbegins, .inl rfl, hrun, rfl, fun _ => rfl, hsrc, hp.fired⟩
  have hfollow := hreleases.itemsFollow hp
  simpa only [Bool.false_eq_true, false_or] using hfollow

/-- A command that finds no free place releases no item (R176). -/
theorem itemsFollow_of_full (hgo : goesOnByItself i = false) (hfull : ¬s.ret.hasFree = true)
    (hrun : exec i s = .next (s.takeControl code params paper)) :
    s.itemsFollow i (fun c => s.causeChanged (s.still.takeControl code params paper) c) (s.still.takeControl code params paper) := by
  rw [State.takeControl_of_full hfull] at hrun
  rw [State.takeControl_of_full (s := s.still) hfull]
  refine (Beside.still hlive hsrc).itemsFollow (.stands (t := s.still.raise .answersLost) ⟨rfl, rfl, rfl, rfl, rfl, rfl⟩) ?_ hgo
  rw [hrun]
  exact congrArg (fun z : State => Host.Outcome.next (z.raise .answersLost)) (State.begun_still hsrc).symm

/-- A command but RESTART: what becomes of the items (R28, R176). -/
theorem itemsFollow_of_command (hgo : goesOnByItself i = false) (hcode : code ≠ 0x11)
    (hrun : exec i s = .next (s.takeControl code params paper)) :
    s.itemsFollow i (fun c => s.causeChanged (s.still.takeControl code params paper) c) (s.still.takeControl code params paper) := by
  by_cases hfree : s.ret.hasFree = true
  · have hp := Beside.reserve hlive hsrc
    have hbegun : s.begun s.still.reserve = s.reserve := congrArg State.reserve (State.begun_still hsrc)
    by_cases hbusy : s.tab.sealing.isSome ∧ code ≠ 0x11
    · rw [State.takeControl_of_busy hfree hbusy, ← hbegun] at hrun
      rw [State.takeControl_of_busy (s := s.still) hfree hbusy]
      exact hp.itemsFollow (.answer _ _ _) hrun hgo
    · rw [State.takeControl_of_free hfree hbusy, ← hbegun] at hrun
      rw [State.takeControl_of_free (s := s.still) hfree hbusy]
      exact hp.itemsFollow ((Commanded.of_quiet hp.quiet hsrc).command (Nat.succ_pos _) hcode params paper) hrun hgo
  · exact itemsFollow_of_full hlive hsrc hgo hfree hrun

omit hlive in
theorem begun_abortSeal : s.begun s.still.reserve.abortSeal = s.reserve.abortSeal :=
  (State.abortSeal_waiting _ _).symm.trans (congrArg (fun z : State => z.reserve.abortSeal) (State.begun_still hsrc))

/-- RESTART TABLES and RESTART COUNTERS with a free place: what becomes of the items (R28, R167, R185). -/
theorem itemsFollow_of_restart {a : Selector} (hgo : goesOnByItself i = false) (hfree : s.ret.hasFree = true)
    (ha : restartOf params = .inl a) (htwo : a = .tables ∨ a = .counters)
    (hrun : exec i s = .next (s.takeControl 0x11 params paper)) :
    s.itemsFollow i (fun c => s.causeChanged (s.still.takeControl 0x11 params paper) c) (s.still.takeControl 0x11 params paper) := by
  have hp := Beside.abortSeal hlive hsrc
  rw [takeControl_of_restart hfree ha, ← begun_abortSeal hsrc] at hrun
  rw [takeControl_of_restart (s := s.still) hfree ha]
  refine hp.itemsFollow ?_ hrun hgo
  rcases htwo with rfl | rfl
  · exact (Commanded.of_quiet hp.quiet hp.source).restartTables
  · exact .restartCounters

/-- RESTART MECH with a free place: every item that waits is evaluated again (R28, R88). -/
theorem itemsFollow_of_restartMech (hfree : s.ret.hasFree = true)
    (ha : restartOf params = .inl .mech) (hrun : exec i s = .next (s.takeControl 0x11 params paper)) :
    s.itemsFollow i (fun c => true = true ∨ s.causeChanged (s.still.takeControl 0x11 params paper) c)
      (s.still.takeControl 0x11 params paper) := by
  have hp := Beside.abortSeal hlive hsrc
  rw [takeControl_of_restart hfree ha, ← begun_abortSeal hsrc] at hrun
  rw [takeControl_of_restart (s := s.still) hfree ha]
  have hk : Commanded (State.veil s.still.reserve.abortSeal s.comp.keyWait s.comp.textWait) s.still.reserve.abortSeal :=
    Commanded.of_quiet hp.quiet hp.source
  have hlone := State.settle_noWait hp.quiet.2.1 hp.quiet.2.2 s.still.reserve.abortSeal.restartMech true
  have hreleases : Releasing i s (s.still.reserve.abortSeal.restart .mech) _ _ _ none true _ :=
    ⟨hk.twin.restartMech hk.ret, .inl rfl, hrun, hlone, fun _ => rfl, hp.source, hp.fired⟩
  exact hreleases.itemsFollow hp

/-- The end of a seal: what becomes of the items (R28, R161). -/
theorem itemsFollow_of_seal (hroom : 0 < s.ret.reserved) (hu : exec .sealComplete s.still = .next u) :
    s.itemsFollow .sealComplete (fun c => s.causeChanged u c) u := by
  have hruns : runsInside s.tab.slots = true := by
    by_contra hruns
    have hfault : exec .sealComplete s.still = .fault .runOutsideTableMemory := if_neg hruns
    rw [hfault] at hu
    cases hu
  have hrun : exec .sealComplete s = .next s.sealDone := liveTables_of_running hlive hruns _
  rw [show exec .sealComplete s.still = .next s.still.sealDone from liveTables_of_running (s := s.still) hlive hruns _] at hu
  cases hu
  cases hs : s.tab.sealing with
  | none =>
    have hdone {z : State} (hz : z.tab = s.tab) : z.sealDone = z := by
      unfold State.sealDone
      rw [hz, hs]
    rw [hdone rfl] at hrun
    rw [hdone (z := s.still) rfl]
    exact (Beside.still hlive hsrc).itemsFollow_of_stands (.refl _)
      (hrun.trans (congrArg Host.Outcome.next (State.begun_still hsrc).symm))
  | some e =>
    have hp := Beside.sealless hlive hsrc
    refine hp.itemsFollow (sealDone_ended (s := s.still) hs (Commanded.of_quiet hp.quiet hp.source) hroom) ?_ rfl
    rw [hrun]
    exact congrArg (fun z : State => Host.Outcome.next z.sealDone) (State.begun_still hsrc).symm

/-- A payload: what becomes of the items (R28, R176). -/
theorem itemsFollow_of_payload (hp : payloadOf i = some (code, params)) (hlink : i ≠ .restartLink) (htext : i ≠ .restartText)
    (hall : i ≠ .restartAll) (hu : exec i s.still = .next u) :
    s.itemsFollow i (fun c => (i = .restartMech ∧ s.ret.hasFree = true) ∨ s.causeChanged u c) u := by
  obtain ⟨paper, hpaper⟩ : ∃ paper, ∀ p, i = .resume p → p = paper := by
    cases i with
    | resume p => exact ⟨p, fun _ h => (Instr.resume.inj h).symm⟩
    | _ => exact ⟨true, nofun⟩
  have hgo : goesOnByItself i = false := goesOn_of_payload hp
  have hruns := runsInside_of_exec hp hu
  have hrun := exec_of_payload hlive hruns hp hpaper
  rw [exec_of_payload (s := s.still) hlive hruns hp hpaper] at hu
  cases hu
  by_cases hmech : i = .restartMech ∧ s.ret.hasFree = true
  · obtain ⟨rfl, hfree⟩ := hmech
    cases hp
    have hfollow := itemsFollow_of_restartMech hlive hsrc hfree rfl hrun
    simpa only [hfree, and_self] using hfollow
  · simp only [hmech, false_or]
    by_cases hfree : s.ret.hasFree = true
    · by_cases hcode : code = 0x11
      · subst hcode
        obtain ⟨a, ha, htwo⟩ : ∃ a, restartOf params = .inl a ∧ (a = .tables ∨ a = .counters) := by
          cases i with
          | restartTables => cases hp; exact ⟨.tables, rfl, .inl rfl⟩
          | restartCounters => cases hp; exact ⟨.counters, rfl, .inr rfl⟩
          | restartMech => exact absurd ⟨rfl, hfree⟩ hmech
          | restartLink => exact absurd rfl hlink
          | restartText => exact absurd rfl htext
          | restartAll => exact absurd rfl hall
          | _ => exact absurd hp (by simp [payloadOf])
        exact itemsFollow_of_restart hlive hsrc hgo hfree ha htwo hrun
      · exact itemsFollow_of_command hlive hsrc hgo hcode hrun
    · exact itemsFollow_of_full hlive hsrc hgo hfree hrun

end Steps

/-- Settles O8: a step whose items wait goes beside the same step from where nothing waits, in twin states, to its end,
where the items whose cause has changed are evaluated (R28). -/
theorem waitingItemsAreEvaluatedAgain : Obligations.WaitingItemsAreEvaluatedAgain := by
  intro i s u hlive hkind hu
  by_cases hsrc : s.comp.textWait = none ∨ s.comp.source = .remoteText
  · have hfollow : s.itemsFollow i (fun c => (i = .restartMech ∧ s.ret.hasFree = true) ∨ s.causeChanged u c) u := by
      rcases hkind with hgo | ⟨rfl, hroom⟩ | ⟨hpayload, hlink, htext, hall⟩
      · have hmech : ¬(i = .restartMech ∧ s.ret.hasFree = true) := by
          rintro ⟨rfl, -⟩
          cases hgo
        simpa only [hmech, false_or] using itemsFollow_of_goesOn hlive hsrc hgo hu
      · simpa only [reduceCtorEq, false_and, false_or] using itemsFollow_of_seal hlive hsrc hroom hu
      · obtain ⟨⟨code, params⟩, hp⟩ := Option.isSome_iff_exists.mp hpayload
        exact itemsFollow_of_payload hlive hsrc hp hlink htext hall hu
    exact ⟨hfollow.key, hfollow.text, hfollow.both⟩
  · obtain ⟨htext, hs⟩ := not_or.mp hsrc
    exact ⟨fun _ _ _ _ _ _ ht => absurd ht htext, fun _ _ _ _ _ h => absurd h hs, fun _ _ _ _ _ _ _ _ _ _ h => absurd h hs⟩

end Sys2Proof.Machine
end
